-- ==== Sys2Proof/Word.lean ====
section
/-! DEFINITION. The byte of the habitation link and of the configuration image (R183, R204). -/

namespace Sys2Proof

/-- One byte of a frame or of the configuration image: bit 0 is its least significant bit (section 12.2). -/
abbrev Byte := BitVec 8

end Sys2Proof
end

