-- ==== Sys2Proof/Config.lean ====
section
/-! DEFINITION. What a node's configuration image fixes for it (chapter 12.4 and the settings tables of
chapters 1 to 9), and the values the manual leaves open, as constants without a body. -/

namespace Sys2Proof

/-- The eleven duties, in the order of the duty set's bits 0 to 10 (section 12.3, PRESENCE). A channel's owner
is a duty too, AUX being 10 (section 12.4, CHANNELS). -/
inductive Duty where
  | battery | tanks | pump | frost | heater | awning | step | lights | travel | wind | aux
deriving DecidableEq, Repr

/-- A channel's role, in the order of its code (section 9.1, section 12.4). -/
inductive Role where
  | off | out | inp | ain | pulse
deriving DecidableEq, Repr

/-- The pull device of an IN or PULSE channel (section 9.1). -/
inductive Pull where
  | none | up | down
deriving DecidableEq, Repr

/-- The type of a temperature input (section 9.6). -/
inductive TempType where
  | unused | ntc | high
deriving DecidableEq, Repr

/-- The water a tank holds, in the order of its code (section 12.3, TANKS). -/
inductive TankKind where
  | fresh | grey | black
deriving DecidableEq, Repr

/-- The heater's mode, in the order of its code (section 12.3, CLIMATE). -/
inductive HeaterMode where
  | off | heat | frost | vent
deriving DecidableEq, Repr

/-- One channel's record of the CHANNELS section (section 9.1). -/
structure ChanCfg where
  role : Role := .off
  owner : Option Duty := .none
  /-- OUT: trip current in mA. -/
  trip : Nat := 5000
  /-- IN: filter time, OUT: read-back time, in ms. -/
  time : Nat := 20
  pull : Pull := .none
  activeLow : Bool := false
  /-- AIN: voltage range when set, resistance range when clear. -/
  volt : Bool := false
  /-- OUT bound to AUX: draw in mA. -/
  draw : Nat := 1000
deriving DecidableEq, Repr

/-- The battery settings of section 1.1. -/
structure BatteryCfg where
  capacityAh : Nat
  shunt : Nat
  eta : Nat
  startSoc : Nat
  restCurrent : Nat
  restMinutes : Nat
  fullVoltage : Nat
  tailCurrent : Nat
  economy : Nat
  reserve : Nat
  cutoffVoltage : Nat
  recoveryMargin : Nat
  aNorm : Nat
  aEcon : Nat
  aRes : Nat
  aHook : Nat
  td1 : Int
  td2 : Int
  temp : Option (Fin 4)
  charge : Option (Fin 16)
  /-- The rest-voltage table: (mV, per mille). -/
  table : List (Nat × Nat)
deriving DecidableEq, Repr

/-- How a tank is measured (section 4.1). -/
inductive TankMethod where
  /-- Probes, bottom first, and the excitation channel. -/
  | ladder (probes : List (Fin 16)) (excitation : Fin 16)
  /-- The sender channel and its calibration table (ohms, per mille). -/
  | sender (channel : Fin 16) (table : List (Nat × Nat))
deriving DecidableEq, Repr

/-- One tank of the TANKS section. -/
structure TankCfg where
  kind : TankKind
  method : TankMethod
  full : Nat
deriving DecidableEq, Repr

/-- The pump settings of section 4.7. -/
structure PumpCfg where
  output : Fin 16
  switch : Fin 16
  draw : Nat
  modeOn : Bool
  maxRun : Nat
deriving DecidableEq, Repr

/-- The frost settings of section 5.1. -/
structure FrostCfg where
  openCoil : Fin 16
  closeCoil : Fin 16
  contact : Fin 16
  temp : Option (Fin 4)
  threshold : Int
  delay : Nat
deriving DecidableEq, Repr

/-- The heater settings of section 6.1. The level settings are listed from level 1 to level 4. -/
structure HeaterCfg where
  glow : Fin 16
  fan : Fin 16
  fuel : Fin 16
  exhaust : Fin 4
  cabin : Option (Fin 4)
  mode : HeaterMode
  setpoint : Int
  start : Nat
  levels : List Nat
  duties : List Nat
  startDuty : Nat
  ventDuty : Nat
  vent : Nat
  cooldown : Nat
  flameLost : Int
deriving DecidableEq, Repr

/-- The settings of one motion unit (section 7.1). -/
structure UnitCfg where
  ext : Fin 16
  ret : Fin 16
  travel : Nat
  jam : Nat
  claim : Nat
deriving DecidableEq, Repr

/-- The settings of the WIND duty (section 7.1). -/
structure WindCfg where
  channel : Fin 16
  factor : Nat
  limit : Nat
deriving DecidableEq, Repr

/-- One light channel's settings (section 8.1). -/
structure LightCfg where
  output : Fin 16
  current : Nat
  /-- Class 1 (main) when set, class 0 (amenity) when clear. -/
  main : Bool
  courtesy : Bool
  fade : Nat
  switch : Option (Fin 16)
  scenes : List Nat
deriving DecidableEq, Repr

/-- The light settings of section 8.1. -/
structure LightsCfg where
  door : Option (Fin 16)
  courtesyLevel : Nat
  cap : Nat
  channels : List LightCfg
deriving DecidableEq, Repr

/-- A valid configuration image as the node applies it (R204, R205). The part of a duty that the image does not
hold is absent. -/
structure Image where
  ident : Nat
  duties : BitVec 11
  orphan : Nat
  map : List Nat
  chans : Vector ChanCfg 16
  temps : Vector TempType 4
  battery : Option BatteryCfg
  tanks : Option (List TankCfg)
  pump : Option PumpCfg
  frost : Option FrostCfg
  heater : Option HeaterCfg
  awning : Option UnitCfg
  step : Option UnitCfg
  wind : Option WindCfg
  lights : Option LightsCfg
  travel : Option (Fin 16)
  aux : Bool
deriving DecidableEq, Repr

/-- FREE VALUE. What an open pin without a pull device reads as (R171 gives the reading of an open switch only
with a pull device); applied to a counter of the state, so that each such reading is free (log entry 5). -/
opaque Config.floatingPin : Nat → Bool

/-- FREE VALUE. The bits of a sent payload byte to which section 12.3 gives no meaning, by the frame kind's code
(log entry 6). -/
opaque Config.spareBits : Nat → Byte

end Sys2Proof
end

