-- ==== Sys2Proof/Syntax.lean ====
section
/-! DEFINITION. The commands of the block: one constructor per row of spec/opcode_table.json.

Every command first says how many milliseconds of the node's time base have passed since the command before it
(`dt`; log entry 1). The other operands are what the node meets from outside in that event: a converter's reading,
a pin's level, the bytes of a frame, how long the line has been idle. A command whose occasion is not there (its
timer is not due, its frame is not at the head of the arrival list, the node is held in reset) changes nothing but
the time (log entry 2). -/

namespace Sys2Proof

/-- What stands at a general pin: driven high, driven low, or nothing connected (R171: an open switch). -/
inductive PinLevel where
  | low | high | floating
deriving DecidableEq, Repr

/-- The two motion units; the awning drives bridge MA and the step bridge MB (section 7.1). -/
inductive MotionUnit where
  | awning | step
deriving DecidableEq, Repr

/-- The commands and events of the node, in the order of the table. -/
inductive Instr where
  /-- R202. -/
  | powerOnReset (dt : Nat)
  /-- R202. -/
  | resetPin (dt : Nat)
  /-- R202; `lowMs`: for how long VSUP has stood below 6.0 V. -/
  | brownOut (dt lowMs : Nat)
  /-- R203; the self-check's result and the strap pins as a binary number (an open strap reads 1). -/
  | start (dt : Nat) (selfCheck : Bool) (straps : BitVec 4)
  /-- R205; the bytes the configuration memory answers before it stops answering, and the pins CH0 to CH15. -/
  | startDecision (dt : Nat) (eeprom : List Byte) (pins : Vector PinLevel 16)
  /-- R2; the shunt converter's and the voltage converter's results. -/
  | measurementEvent (dt : Nat) (shunt : Int) (volt : Nat)
  /-- R14. -/
  | minutesSinceSyncTick (dt : Nat)
  /-- R27. -/
  | allowancePeriod (dt : Nat)
  /-- R30. -/
  | listeningTimerExpiry (dt : Nat)
  /-- R37: the frame at the head of the arrival list is dispatched. -/
  | dispatchPresence (dt : Nat)
  | dispatchDraw (dt : Nat)
  | dispatchAllowance (dt : Nat)
  | dispatchTanks (dt : Nat)
  | dispatchClimate (dt : Nat)
  | dispatchMotion (dt : Nat)
  | dispatchLights (dt : Nat)
  | dispatchReply (dt : Nat)
  | dispatchReport (dt : Nat)
  /-- R38; the station whose entry ages out. -/
  | peerAgeOut (dt station : Nat)
  /-- R42. -/
  | orphanExpiry (dt : Nat)
  /-- R34. -/
  | presencePeriod (dt : Nat)
  /-- R52. -/
  | drawPeriod (dt : Nat)
  /-- R62. -/
  | settleEnd (dt : Nat)
  /-- R63; the slot whose deadline passes. -/
  | waitDeadline (dt : Nat) (slot : Fin 8)
  /-- R76. -/
  | scanStart (dt : Nat)
  /-- R76. -/
  | scanComplete (dt : Nat)
  /-- R85. -/
  | tanksPeriod (dt : Nat)
  /-- R87: a PUMP_MODE COMMAND frame at the head of the arrival list is dispatched; so for every command row. -/
  | pumpMode (dt : Nat)
  | pumpReset (dt : Nat)
  /-- R93. -/
  | pumpRunTimeout (dt : Nat)
  | pumpLowTimeout (dt : Nat)
  /-- R98. -/
  | frostGraceEnd (dt : Nat)
  /-- R101. -/
  | countdownExpiry (dt : Nat)
  /-- R97. -/
  | valveMoveEnd (dt : Nat)
  | frostArm (dt : Nat)
  | frostDisarm (dt : Nat)
  | frostClose (dt : Nat)
  | heaterMode (dt : Nat)
  | heaterReset (dt : Nat)
  /-- R115. -/
  | purgeEnd (dt : Nat)
  | glowEnd (dt : Nat)
  /-- R116. -/
  | ignitionLimit (dt : Nat)
  /-- R117. -/
  | fuelPulseStart (dt : Nat)
  | fuelPulseEnd (dt : Nat)
  /-- R118. -/
  | levelHoldExpiry (dt : Nat)
  /-- R121. -/
  | satisfiedExpiry (dt : Nat)
  /-- R123. -/
  | flameLossExpiry (dt : Nat)
  /-- R126. -/
  | cooldownLimit (dt : Nat)
  /-- R130. -/
  | climatePeriod (dt : Nat)
  | awningExtend (dt : Nat)
  | awningRetract (dt : Nat)
  | awningExtendTo (dt : Nat)
  | awningStop (dt : Nat)
  | stepExtend (dt : Nat)
  | stepRetract (dt : Nat)
  | stepStop (dt : Nat)
  /-- R141. -/
  | dwellEnd (dt : Nat) (unit : MotionUnit)
  /-- R143. -/
  | targetReached (dt : Nat) (unit : MotionUnit)
  /-- R179; the bridge current in mA. -/
  | bridgeCurrentReading (dt : Nat) (unit : MotionUnit) (mA : Nat)
  /-- R144. -/
  | jam (dt : Nat) (unit : MotionUnit)
  | motionTimeout (dt : Nat) (unit : MotionUnit)
  /-- R180; the bridge current in mA. -/
  | bridgeOvercurrent (dt : Nat) (unit : MotionUnit) (mA : Nat)
  /-- R179. -/
  | bridgeDwellComplete (dt : Nat) (unit : MotionUnit)
  /-- R172. -/
  | pulseCountPeriod (dt : Nat) (ch : Fin 16)
  /-- R149. -/
  | windEvaluation (dt : Nat)
  /-- R150. -/
  | windLockoutEnd (dt : Nat)
  /-- R152. -/
  | motionPeriod (dt : Nat)
  | lightLevel (dt : Nat)
  | scene (dt : Nat)
  | lightsAllOff (dt : Nat)
  /-- R159; the light channel number. -/
  | fadeStep (dt : Nat) (light : Fin 8)
  /-- R162. -/
  | longPress (dt : Nat) (light : Fin 8)
  /-- R163. -/
  | courtesyHoldExpiry (dt : Nat)
  /-- R168. -/
  | lightsPeriod (dt : Nat)
  /-- R171; the new level at the pin. -/
  | inputChange (dt : Nat) (ch : Fin 16) (level : PinLevel)
  | inputAccepted (dt : Nat) (ch : Fin 16)
  /-- R172; for how many microseconds the pin was active before the inactive edge. -/
  | pulseCounted (dt : Nat) (ch : Fin 16) (activeUs : Nat)
  /-- R172; the resistance in ohms or the voltage in mV at the pin. -/
  | ainConversion (dt : Nat) (ch : Fin 16) (value : Int)
  /-- R181; the element's resistance, and the temperature the type's characteristic gives it (log entry 7). -/
  | tempReading (dt : Nat) (input : Fin 4) (ohms : Nat) (temp : Int)
  /-- R174. -/
  | outputTrip (dt : Nat) (ch : Fin 16)
  /-- R176. -/
  | readbackTrip (dt : Nat) (ch : Fin 16)
  | backfedMarkSet (dt : Nat) (ch : Fin 16)
  | backfedMarkClear (dt : Nat) (ch : Fin 16)
  /-- R175. -/
  | retry (dt : Nat) (ch : Fin 16)
  | tripCountClear (dt : Nat) (ch : Fin 16)
  | channelReset (dt : Nat)
  | auxOutput (dt : Nat)
  /-- R186; for how many bit times the line was idle before the start bit. -/
  | frameBegin (dt idleBits : Nat)
  /-- R185; the character's place in its frame, and its 11 bits in the order of R183, bit 0 first. -/
  | frameCharacterFault (dt index : Nat) (character : BitVec 11)
  /-- R185; the characters of the whole frame, none of which had an error of its own. -/
  | frameComplete (dt : Nat) (bytes : List Byte)
  /-- R185; for how many microseconds the line has been recessive since the last stop bit. -/
  | frameBroken (dt gapUs : Nat)
  /-- R188; for how many bit times the line has been idle. -/
  | attemptStart (dt idleBits : Nat)
  /-- R189; the place of a bit in the frame being sent, counted from the start bit of SYNC, and what is read back at
  it, 1 (true) being recessive. -/
  | collision (dt bit : Nat) (read : Bool)
  /-- R189; for how many bit times the jam has been driven. -/
  | jamEnd (dt jamBits : Nat)
  /-- R190. -/
  | frameSent (dt : Nat)
  /-- R191; for how many microseconds the driver has been dominant. -/
  | jabberCut (dt dominantUs : Nat)
  /-- R191; for how many milliseconds the line has been idle. -/
  | jabberRecoveryEnd (dt idleMs : Nat)
  | reportSelect (dt : Nat)
  | queryReport (dt : Nat)
  | queryCounters (dt : Nat)
  | queryFlags (dt : Nat)
  | restart (dt : Nat)
  /-- R200. -/
  | restartDeadline (dt : Nat)
  | unknownCommand (dt : Nat)
  /-- R174; the sensed current in mA. -/
  | outputCurrentChange (dt : Nat) (ch : Fin 16) (mA : Nat)
  /-- R176; whether the pin now reads high. -/
  | outputPinReadChange (dt : Nat) (ch : Fin 16) (high : Bool)
deriving DecidableEq, Repr

end Sys2Proof
end

