-- ==== Sys2Proof/Machine/State.lean ====
section
/-! DEFINITION. The state of one node as plain data, and the state right after reset.

Moments are readings of the node's time base in ms, kept as natural numbers counted from the start: intervals are
differences of two readings, on which the wrap of the time base has no effect (00_scope, Time base). A clock that
is not running, a record that is absent and a reading that does not exist are `none`. -/

namespace Sys2Proof.Machine

/-! ## Frames -/

/-- The kinds of frame (section 12.3). -/
inductive Kind where
  | presence | draw | allowance | tanks | climate | motion | lights | command | reply | report
deriving DecidableEq, Repr

/-- One entry of a DRAW frame (R51). -/
structure DrawClaim where
  slot : Nat
  cls : Nat
  asking : Bool
  held : Nat
  asked : Nat
deriving DecidableEq, Repr

/-- The content of an ALLOWANCE frame (R26). -/
structure AllowanceBody where
  allowance : Nat
  shed : Nat
  band : Nat
  unsynced : Bool
  charge : Bool
  overdraw : Bool
  tempInvalid : Bool
  soc : Nat
  voltage : Nat
  current : Int
  temp : Int
  minutes : Nat
deriving DecidableEq, Repr

/-- One tank of a TANKS frame (R84); an unknown level is `none`. -/
structure TankBody where
  kind : Nat
  heldMark : Bool
  probeFault : Bool
  senderFault : Bool
  low : Bool
  empty : Bool
  full : Bool
  level : Option Nat
deriving DecidableEq, Repr

/-- The content of a CLIMATE frame (R129); an invalid temperature is `none`. -/
structure ClimateBody where
  state : Nat
  level : Nat
  mode : Nat
  setpoint : Int
  cabin : Option Int
  exhaust : Option Int
  reason : Nat
  attempts : Nat
deriving DecidableEq, Repr

/-- One unit of a MOTION frame (R151); an unknown position is `none`. -/
structure UnitBody where
  kind : Nat
  state : Nat
  cause : Nat
  pos : Option Nat
  tag : Nat
  outcome : Nat
deriving DecidableEq, Repr

/-- One channel of a LIGHTS frame (R167). -/
structure LightBody where
  level : Nat
  capped : Bool
  shed : Bool
  degraded : Bool
deriving DecidableEq, Repr

/-- The content of a PRESENCE frame (R33). -/
structure PresenceBody where
  node : Nat
  duties : BitVec 11
  cause : Nat
  flagAny : Bool
  orphaned : Bool
  unconfigured : Bool
  conflict : Bool
  travel : Bool
  wind : Bool
  ident : Nat
deriving DecidableEq, Repr

/-- The content of a COMMAND frame (section 11.1). -/
structure CommandBody where
  target : Nat
  tag : Nat
  code : Nat
  args : List Byte
deriving DecidableEq, Repr

/-- The content of a REPLY frame (R195). -/
structure ReplyBody where
  requester : Nat
  tag : Nat
  code : Nat
  result : Nat
  detail : Int
deriving DecidableEq, Repr

/-- The content of a REPORT frame (R197, R198, R199). -/
inductive ReportBody where
  | quantities (start count : Nat) (values : List Int)
  | counters (start count : Nat) (values : List Nat)
  | flags (start count : Nat) (flags : BitVec 16)
deriving DecidableEq, Repr

/-- A frame by its named fields; Machine/Layout.lean gives the bytes. Codes are kept as the numbers the frame
carries, so that a received code without a name stays what it is. -/
inductive Frame where
  | presence (b : PresenceBody)
  | draw (claims : List DrawClaim)
  | allowance (b : AllowanceBody)
  | tanks (tanks : List TankBody) (frost : Option (Nat × Option Int))
  | climate (b : ClimateBody)
  | motion (units : List UnitBody) (wind : Option Nat)
  | lights (channels : List LightBody)
  | command (b : CommandBody)
  | reply (b : ReplyBody)
  | report (b : ReportBody)
deriving DecidableEq, Repr

/-! ## The receiver (chapter 10) -/

/-- A waiting buffer of the receive pool: a good frame with its arrival time stamp (R185, R186). -/
structure RxFrame where
  stamp : Nat
  source : Nat
  frame : Frame
deriving DecidableEq, Repr

/-- What the receiver is doing: nothing, filling a buffer, or following a frame it dropped (R186). -/
inductive RxPhase where
  | idle | filling | dropping
deriving DecidableEq, Repr

/-- The receive pool of eight buffers: the arrival list holds the waiting ones, at most one is filling, and the
others are free (R186). -/
structure Receiver where
  arrival : List RxFrame := []
  phase : RxPhase := .idle
deriving DecidableEq, Repr

/-! ## The transmitter (chapter 10) -/

/-- One entry of the transmit queue (R187). `id` tells entries apart; a frame that replaces another in place
keeps the entry's `id`. The block that queued the frame follows from its kind. -/
structure TxEntry where
  id : Nat
  frame : Frame
  attempts : Nat := 0
deriving DecidableEq, Repr

/-- Whether the head entry is in attempt (R187, R189). -/
inductive Attempt where
  | none | sending | jamming
deriving DecidableEq, Repr

/-- The transmitter and the jabber guard (R187 to R191). -/
structure Transmitter where
  queue : List TxEntry := []
  attempt : Attempt := .none
  /-- The jabber recovery is running: the guard holds the transmitter off. -/
  jabber : Bool := false
  /-- The moment from which the transmitter has been enabled, and so measures idle line (R193); `none` while the
  start has not enabled it. -/
  since : Option Nat := none
  nextId : Nat := 0
deriving DecidableEq, Repr

/-- The moments at which the node most recently queued a frame of each periodic kind (R27, R34, R52, R85, R130,
R152, R168); `none` while the period does not run. -/
structure Published where
  presence : Option Nat := none
  draw : Option Nat := none
  allowance : Option Nat := none
  tanks : Option Nat := none
  climate : Option Nat := none
  motion : Option Nat := none
  lights : Option Nat := none
  /-- The broadcast list of the most recent DRAW queued (R52). -/
  list : List DrawClaim := []
deriving DecidableEq, Repr

/-! ## The battery accountant (chapter 1) -/

/-- The battery's band, in the order of its code (section 12.3). -/
inductive Band where
  | normal | economy | reserve | cutoff
deriving DecidableEq, Repr

/-- The results of the most recent sample (R25, R26). -/
structure Sample where
  current : Int
  voltage : Nat
  soc : Nat
  temp : Option Int
  charge : Bool
  band : Band
  /-- The allowance in mA. -/
  allowance : Nat
  shed : Nat
  unsynced : Bool
  overdraw : Bool
deriving DecidableEq, Repr

/-- The accountant's state (R28). -/
structure Battery where
  q : Nat := 0
  f : Nat := 0
  synced : Bool := false
  /-- The moment of the most recent sync. -/
  syncAt : Option Nat := none
  minutes : Nat := 65535
  restCount : Nat := 0
  restSpent : Bool := false
  fullCount : Nat := 0
  fullSpent : Bool := false
  cutoffRun : Nat := 0
  recoveryRun : Nat := 0
  band : Band := .economy
  riseRun : Nat := 0
  fallRun : Nat := 0
  step : Nat := 0
  last : Option Sample := none
  /-- The moment of the next sample. -/
  due : Option Nat := none
deriving DecidableEq, Repr

/-! ## The station view (chapter 2) -/

/-- The node states (section 2.1). -/
inductive NodeState where
  | halted | listenOnly | listening | active | silent
deriving DecidableEq, Repr

/-- One entry of the peer table (section 2.4). -/
structure Peer where
  station : Nat
  heard : Nat
  duties : Option (BitVec 11) := none
  /-- The node state as its code in PRESENCE. -/
  node : Option Nat := none
  travel : Bool := false
  wind : Bool := false
  claims : Option (List DrawClaim) := none
  battery : Option AllowanceBody := none
  tanks : Option (List TankBody) := none
  frost : Option Nat := none
  climate : Option ClimateBody := none
  motion : Option (List UnitBody) := none
deriving DecidableEq, Repr

/-- The selected allowance source (R39); none selected is `Option.none`. -/
inductive Source where
  | own
  | peer (station : Nat)
deriving DecidableEq, Repr

/-- The station view's own state (R46). -/
structure View where
  peers : List Peer := []
  /-- The moment at which the listening timer expires (R30). -/
  listen : Option Nat := none
  sighting : Option Nat := none
  source : Option Source := none
  allowance : Nat := 0
  sourceShed : Nat := 0
  shed : Nat := 0
  /-- The view band as its code. -/
  band : Option Nat := none
  orphaned : Bool := false
  orphanRef : Option Nat := none
  conflict : Bool := false
  travel : Bool := false
  wind : Bool := false
deriving DecidableEq, Repr

/-! ## The claim table (chapter 3) -/

/-- The claim states (R49). -/
inductive ClaimState where
  | idle | waiting | asking | holding
deriving DecidableEq, Repr

/-- One claim record (section 3.2). A field that is not present stands at 0 or `none`. In ASKING the phase is
SETTLING when `settle` holds the settle end and ANNOUNCING when it does not; `carrier` is the transmit-queue entry
of the carrying frame. -/
structure Claim where
  state : ClaimState := .idle
  cls : Nat := 0
  held : Nat := 0
  wanted : Nat := 0
  asked : Nat := 0
  carrier : Option Nat := none
  settle : Option Nat := none
  deadline : Option Nat := none
  stamp : Nat := 0
  degradable : Bool := false
deriving DecidableEq, Repr

/-! ## Tanks and pump (chapter 4) -/

/-- One tank record's changing part (section 4.1). -/
structure Tank where
  window : List Nat := []
  level : Option Nat := none
  heldMark : Bool := false
  run : Nat := 0
  probeFault : Bool := false
  senderFault : Bool := false
  low : Bool := false
  empty : Bool := false
  full : Bool := false
deriving DecidableEq, Repr

/-- The tank scanner (R86). -/
structure Tanks where
  records : List Tank := []
  /-- The start of the next scan. -/
  due : Option Nat := none
  /-- The completion of the scan under way. -/
  complete : Option Nat := none
deriving DecidableEq, Repr

/-- The pump states (R88). -/
inductive PumpState where
  | idle | waiting | running | inhibited | dryFault
deriving DecidableEq, Repr

/-- The reasons of INHIBITED, in the order in which the first is shown (R88). -/
inductive PumpReason where
  | frost | greyFull | freshEmpty | channel | shed | noEnergy
deriving DecidableEq, Repr

/-- The pump job (R95). -/
structure Pump where
  state : PumpState := .idle
  reason : Option PumpReason := none
  modeOn : Bool := false
  /-- The pump was told SHED, and its class has been forbidden since. -/
  toldShed : Bool := false
  /-- The pump was told NO_ENERGY, and demand has not ended since. -/
  toldNoEnergy : Bool := false
  /-- The start of the run clock. -/
  run : Option Nat := none
  /-- The start of the low clock. -/
  low : Option Nat := none
  dryCount : Nat := 0
deriving DecidableEq, Repr

/-! ## Frost monitor (chapter 5) -/

/-- The frost states, in the order of their codes (R196, selector 14). -/
inductive FrostState where
  | armed | countdown | dumping | drained | closing | valveFault | disarmed
deriving DecidableEq, Repr

/-- The frost monitor (R108). -/
structure Frost where
  state : FrostState := .armed
  countdown : Option Nat := none
  /-- The end of the valve move under way. -/
  moveEnd : Option Nat := none
  /-- The last valid reading of the temperature used. -/
  lastTemp : Option Int := none
  /-- The moment from which the grace runs. -/
  grace : Nat := 0
deriving DecidableEq, Repr

/-! ## Heater (chapter 6) -/

/-- The heater states, in the order of section 6.2. -/
inductive HeaterState where
  | off | standby | purge | glow | ignite | run | cooldown | venting | lockout
deriving DecidableEq, Repr

/-- The last stop reasons, in the order of R129. -/
inductive StopReason where
  | none | satisfied | noEnergy | shed | noFlame | flameLost | overheat | channel | sensor
deriving DecidableEq, Repr

/-- The heater controller (R131). -/
structure Heater where
  state : HeaterState := .off
  mode : HeaterMode := .off
  /-- The stored HEAT setpoint. -/
  setpoint : Int := 0
  level : Nat := 0
  attempts : Nat := 0
  restart : Bool := false
  lockout : Bool := false
  /-- The flame record: the time of the last flame loss. -/
  flame : Option Nat := none
  reason : StopReason := .none
  baseline : Option Int := none
  /-- The end of the purge, the glow, the ignition limit or the cooldown limit of the present state. -/
  phaseEnd : Option Nat := none
  holdEnd : Option Nat := none
  /-- The target level of a pending raise. -/
  raise : Option Nat := none
  satisfied : Option Nat := none
  loss : Option Nat := none
  /-- The pulse rate in tenths of a hertz, the moment it took effect, and the number of its pulses begun. -/
  rate : Nat := 0
  rateStart : Nat := 0
  pulses : Nat := 0
  /-- The end of the pulse under way. -/
  pulseEnd : Option Nat := none
  /-- The first exhaust reading after reset has come. -/
  exhaustSeen : Bool := false
deriving DecidableEq, Repr

/-! ## Motion (chapter 7) -/

/-- A drive direction. -/
inductive Dir where
  | extend | retract
deriving DecidableEq, Repr

/-- The unit states, in the order of section 7.2. -/
inductive UnitState where
  | unknown | retracted | extended | partway | extending | retracting | reversing | fault
deriving DecidableEq, Repr

/-- The fault causes, in the order of section 12.3, MOTION. -/
inductive FaultCause where
  | none | jam | timeout | endStopConflict
deriving DecidableEq, Repr

/-- The outcomes, in the order of section 12.3, MOTION. -/
inductive MoveOutcome where
  | none | done | stopped | replaced | noEnergy | shed | interlock | jam | timeout | conflict | bridgeFault
deriving DecidableEq, Repr

/-- A unit record (section 7.2). The last drive is kept with the unit's bridge. -/
structure MoveUnit where
  state : UnitState := .unknown
  cause : FaultCause := .none
  pos : Option Nat := none
  /-- The drive direction, from the filing at which it is decided (R140) to the end of the move. -/
  dir : Dir := .extend
  segStart : Nat := 0
  segPos : Option Nat := none
  run : Option Nat := none
  jam : Option Nat := none
  dwellEnd : Option Nat := none
  tag : Nat := 0
  outcome : MoveOutcome := .none
deriving DecidableEq, Repr

/-- A request's action (section 7.3). -/
inductive Action where
  | extend
  | retract
  | extendTo (target : Nat)
deriving DecidableEq, Repr

/-- A request's origin (section 7.3). -/
inductive Origin where
  | command (station tag : Nat)
  | travel
  | wind
deriving DecidableEq, Repr

/-- A request's entry state (section 7.3). -/
inductive EntryState where
  | queued | waitingEnergy | active
deriving DecidableEq, Repr

/-- One entry of the request list (section 7.3). The wait deadline of an entry is that of its unit's claim. -/
structure Entry where
  unit : MotionUnit
  action : Action
  origin : Origin
  state : EntryState := .queued
deriving DecidableEq, Repr

/-- The motion controller (R153). -/
structure Motion where
  awning : MoveUnit := {}
  step : MoveUnit := {}
  list : List Entry := []
deriving DecidableEq, Repr

/-- The wind record (R149, R150). -/
structure Wind where
  /-- The last 8 quarter-second counts, oldest first. -/
  counts : List Nat := []
  speed : Nat := 0
  gust : Nat := 0
  lockoutEnd : Option Nat := none
  due : Option Nat := none
deriving DecidableEq, Repr

/-! ## Lights (chapter 8) -/

/-- A press of a wall switch: none, begun at a moment, a long press whose ramp runs, or one whose ramp a command
ended (R161, R162). -/
inductive Press where
  | none
  | down (since : Nat)
  | ramping
  | spent
deriving DecidableEq, Repr

/-- One light channel record (section 8.2). The ramp is under way while `press` is `ramping`; it goes UP when
`rampUp` is set. -/
structure Light where
  target : Nat := 0
  last : Option Nat := none
  level : Nat := 0
  aim : Nat := 0
  limit : Nat := 0
  goal : Nat := 0
  fadeStart : Nat := 0
  /-- The steps of the present fade taken so far. -/
  fadeSteps : Nat := 0
  press : Press := .none
  rampUp : Bool := true
  prePress : Nat := 0
  heldOff : Bool := false
  capped : Bool := false
  shed : Bool := false
  degraded : Bool := false
deriving DecidableEq, Repr

/-- The courtesy states (R163). -/
inductive Courtesy where
  | off
  | on
  | hold (until_ : Nat)
deriving DecidableEq, Repr

/-- The light controller (R169). -/
structure Lights where
  channels : List Light := []
  courtesy : Courtesy := .off
deriving DecidableEq, Repr

/-! ## Channel bank (chapter 9) -/

/-- The protection states of an OUT channel (section 9.3). -/
inductive Protection where
  | normal | tripped | latchedOff
deriving DecidableEq, Repr

/-- One channel record (R182). -/
structure Channel where
  /-- OUT: the commanded level, per cent. -/
  commanded : Nat := 0
  protection : Protection := .normal
  trips : Nat := 0
  retry : Option Nat := none
  tripClock : Option Nat := none
  /-- OUT: the read-back level of the pin. -/
  pinHigh : Bool := false
  /-- OUT: the read-back clock (on but low), the backfeed clock (off but high), the clock of a pin off and low. -/
  lowOn : Option Nat := none
  highOff : Option Nat := none
  lowOff : Option Nat := none
  backfed : Bool := false
  /-- OUT: when the output went on, and for how long it was on before that since its last trip. -/
  onSince : Option Nat := none
  onTotal : Nat := 0
  /-- IN, PULSE: the instant state. -/
  instant : Bool := false
  filter : Option Nat := none
  accepted : Option Bool := none
  /-- PULSE: the pulses counted in the present quarter second. -/
  count : Nat := 0
  /-- AIN: the newest reading. -/
  reading : Option Nat := none
  /-- PULSE, AIN: the end of the present count, the next conversion. -/
  due : Option Nat := none
deriving DecidableEq, Repr

/-- The bridge states (section 9.5). -/
inductive BridgeState where
  | coast | forward | reverse | brake | fault
deriving DecidableEq, Repr

/-- One bridge record (R179, R182). -/
structure Bridge where
  state : BridgeState := .coast
  last : Option Dir := none
  /-- Since when the bridge has stood in COAST (or BRIDGE_FAULT) without a break. -/
  coastSince : Option Nat := some 0
  pending : Option Dir := none
  /-- The moment of the next current reading, while the bridge drives. -/
  due : Option Nat := none
deriving DecidableEq, Repr

/-- One temperature input: the latest reading, `some none` being an invalid one, and the next reading's moment. -/
structure TempInput where
  reading : Option (Option Int) := none
  due : Option Nat := none
deriving DecidableEq, Repr

/-- The states of an AUX output (section 9.4). -/
inductive AuxState where
  | off | pending | on
deriving DecidableEq, Repr

/-- The channel bank (R182). -/
structure Bank where
  chans : Vector Channel 16 := .replicate 16 {}
  bridgeA : Bridge := {}
  bridgeB : Bridge := {}
  temps : Vector TempInput 4 := .replicate 4 {}
  aux : Vector AuxState 16 := .replicate 16 .off
deriving DecidableEq, Repr

/-! ## Command unit (chapter 11) -/

/-- The command unit (R201). -/
structure CommandUnit where
  map : List Nat := [23]
  counters : Vector Nat 12 := .replicate 12 0
  flags : BitVec 16 := 0
  /-- A pending restart: the entry of its REPLY and the latest moment of the reset (R200). -/
  restart : Option (Nat × Nat) := none
  /-- The entries of the REPLYs of the RESTARTs that came while one was pending (R200). -/
  restartAgain : List Nat := []
deriving DecidableEq, Repr

/-- MODEL'S OWN: what the event under way still owes at its end: a pass of the wait service, frames to queue
whatever has changed, a REPLY, a REPORT, a restart. Clear between events (log entry 3). -/
structure Event where
  wait : Bool := false
  presence : Bool := false
  draw : Bool := false
  allowance : Bool := false
  tanks : Bool := false
  climate : Bool := false
  motion : Bool := false
  lights : Bool := false
  reply : Option ReplyBody := none
  report : Option ReportBody := none
  restart : Bool := false
  reset : Bool := false
deriving DecidableEq, Repr

/-! ## The node -/

/-- Everything of the node but its receiver and the queue of commands. -/
structure Node where
  /-- The time base's reading, counted on through its wraps. -/
  now : Nat := 0
  /-- The node is held in reset (R202). -/
  held : Bool := true
  cause : Nat := 1
  /-- The memory self-check of the present start has passed (R203). -/
  checked : Bool := false
  station : Option Nat := none
  /-- The node state; `none` in reset and during the start. -/
  state : Option NodeState := none
  /-- The FAULT pin. -/
  faultPin : Bool := false
  cfg : Option Image := none
  battery : Battery := {}
  view : View := {}
  claims : Vector Claim 8 := .replicate 8 {}
  tanks : Tanks := {}
  pump : Pump := {}
  frost : Frost := {}
  heater : Heater := {}
  motion : Motion := {}
  wind : Wind := {}
  lights : Lights := {}
  bank : Bank := {}
  tx : Transmitter := {}
  cmd : CommandUnit := {}
  pub : Published := {}
  ev : Event := {}
  /-- MODEL'S OWN: how many free values have been read (log entry 5). -/
  free : Nat := 0
deriving DecidableEq, Repr

/-- The state of the block: its receiver, the rest of the node, and the queue of commands that wait. -/
structure State where
  pending : List Instr := []
  rx : Receiver := {}
  node : Node := {}
deriving DecidableEq, Repr

/-- The machine right after power-on reset: held in reset with cause 1, every block at the reset values of its
chapter (R28, R46, R74, R86, R95, R108, R131, R153, R169, R182, R193, R201, R202), no command waiting. -/
def State.reset : State := {}

/-- Why a step stops on a fault. No rule of the manual stops the node: every command has an effect or none, so this
type has no constructor (log entry 2). -/
inductive Fault where
deriving DecidableEq, Repr

/-- Why a step is refused. -/
inductive Refusal where
  /-- Raised by exec's arm of a command that has no meaning yet, and by nothing else; safe. -/
  | notModelled (mnemonic : String)
deriving DecidableEq, Repr

end Sys2Proof.Machine
end

