-- ==== Sys2Proof/Machine/Fixed.lean ====
section
/-! DEFINITION. The values fixed in the part, in ms unless said otherwise, each with the rule that states it. -/

namespace Sys2Proof.Machine

/-- R2. -/
def samplePeriod : Nat := 100
/-- R3: the converter's greatest count. -/
def shuntLimit : Int := 32767
/-- R4. -/
def voltLimit : Nat := 32767
/-- R13: samples that complete the full-sync timer. -/
def fullSamples : Nat := 1200
/-- R17. -/
def cutoffSamples : Nat := 100
/-- R18. -/
def recoverySamples : Nat := 300
/-- R23. -/
def riseSamples : Nat := 20
/-- R23. -/
def fallSamples : Nat := 300
/-- R15: the upward margin, per mille. -/
def bandMargin : Nat := 30
/-- R30. -/
def listeningTime : Nat := 1500
/-- R32. -/
def sightingWindow : Nat := 10000
/-- R35, R38. -/
def peerAge : Nat := 3500
/-- R36. -/
def peerLimit : Nat := 13
/-- R42. -/
def orphanTime : Nat := 2000
/-- R34. -/
def presencePeriodMs : Nat := 1000
/-- R27, R52. -/
def drawPeriodMs : Nat := 500
/-- R27. -/
def allowancePeriodMs : Nat := 500
/-- R85. -/
def tanksPeriodMs : Nat := 2000
/-- R130. -/
def climatePeriodMs : Nat := 1000
/-- R168. -/
def lightsPeriodMs : Nat := 2000
/-- R53. -/
def settleTime : Nat := 80
/-- R63. -/
def motionWait : Nat := 10000
/-- R63. -/
def pumpWait : Nat := 3000
/-- R63. -/
def heaterWait : Nat := 60000
/-- R63. -/
def heaterRaiseWait : Nat := 30000
/-- R63. -/
def auxWait : Nat := 3000
/-- R76. -/
def scanPeriod : Nat := 5000
/-- R76. -/
def scanTime : Nat := 50
/-- R76. -/
def firstScan : Nat := 100
/-- R93. -/
def lowLimit : Nat := 10000
/-- R97. -/
def moveTime : Nat := 8000
/-- R97: 400 mA in 100 mA units. -/
def valveUnits : Nat := 4
/-- R98. -/
def graceTime : Nat := 60000
/-- R103: in 0.1 degrees. -/
def closeMargin : Int := 40
/-- Section 6.1. -/
def purgeTime : Nat := 20000
/-- Section 6.1. -/
def glowTime : Nat := 40000
/-- Section 6.1. -/
def ignitionTime : Nat := 90000
/-- Section 6.1: in 0.1 degrees. -/
def flameRise : Int := 300
/-- R117. -/
def pulseTime : Nat := 50
/-- R118. -/
def holdTime : Nat := 60000
/-- R121. -/
def satisfiedTime : Nat := 300000
/-- R123. -/
def lossTime : Nat := 10000
/-- R123. -/
def lossWindow : Nat := 600000
/-- R124: in 0.1 degrees. -/
def overheatTemp : Int := 3500
/-- R126: in 0.1 degrees. -/
def cooldownEndTemp : Int := 600
/-- R126. -/
def cooldownTime : Nat := 180000
/-- R111: the effective setpoint in FROST, in 0.1 degrees. -/
def frostSetpoint : Int := 50
/-- R144. -/
def jamTime : Nat := 300
/-- R179. -/
def coastDwell : Nat := 500
/-- R179: between two current readings of a bridge that drives. -/
def readingPeriod : Nat := 10
/-- R180: in mA. -/
def bridgeLimit : Nat := 30000
/-- R149, R172. -/
def quarter : Nat := 250
/-- R150: evaluations that make 3 000 ms. -/
def gustRun : Nat := 13
/-- R150. -/
def lockoutTime : Nat := 600000
/-- R161, R162. -/
def pressLimit : Nat := 500
/-- R163. -/
def courtesyHold : Nat := 120000
/-- R174. -/
def tripTime : Nat := 10
/-- R174. -/
def retryTime : Nat := 5000
/-- R174. -/
def latchTrips : Nat := 4
/-- R175. -/
def tripClearTime : Nat := 30000
/-- R172. -/
def ainPeriod : Nat := 100
/-- R181. -/
def tempPeriod : Nat := 500
/-- R186. -/
def bufferCount : Nat := 8
/-- R187. -/
def queueLimit : Nat := 6
/-- R189. -/
def attemptLimit : Nat := 8
/-- R188: bit times of idle line that mark the space between frames. -/
def idleBitsMin : Nat := 16
/-- R183: whole bit times of the line, at 38 400 bit/s, in a number of ms. -/
def bitTimes (ms : Nat) : Nat := ms * 384 / 10
/-- R189: bit times. -/
def jamBitTimes : Nat := 22
/-- R191: in microseconds. -/
def jabberUs : Nat := 20000
/-- R191. -/
def recoveryTime : Nat := 1000
/-- R185: in microseconds. -/
def breakUs : Nat := 900
/-- R200. -/
def restartTime : Nat := 200
/-- R202: in ms. -/
def brownOutTime : Nat := 20
/-- R192, R198: where a counter stops. -/
def counterTop : Nat := 65535

end Sys2Proof.Machine
end

