-- ==== Sys2Proof/Machine/Flags.lean ====
section
/-! DEFINITION. The sixteen latched flags (R199) and the twelve saturating counters (R192, R198). -/

namespace Sys2Proof.Machine

/-- The latched flags, in the order of the table of R199, which is the order of their bits. -/
inductive Flag where
  | jabber | duplicateSeen | orphaned | channelTrip | bridgeFault | probeFault | senderFault | dryFault
  | frostDumped | valveFault | heaterLockout | flameLost | motionJam | motionTimeout | stepNotStowed | sensorFault
deriving DecidableEq, Repr

/-- The bit of a flag in a FLAGS REPORT (section 12.3). -/
def flagBit : Flag → Nat
  | .jabber => 0 | .duplicateSeen => 1 | .orphaned => 2 | .channelTrip => 3 | .bridgeFault => 4 | .probeFault => 5
  | .senderFault => 6 | .dryFault => 7 | .frostDumped => 8 | .valveFault => 9 | .heaterLockout => 10
  | .flameLost => 11 | .motionJam => 12 | .motionTimeout => 13 | .stepNotStowed => 14 | .sensorFault => 15

/-- A word of flags with one bit. -/
def flagMask (f : Flag) : BitVec 16 := 1#16 <<< flagBit f

/-- A flag is set and stays set until it is queried (R199). -/
def setFlag (f : Flag) (n : Node) : Node :=
  { n with cmd := { n.cmd with flags := n.cmd.flags ||| flagMask f } }

/-- Whether a flag is set. -/
def hasFlag (f : Flag) (n : Node) : Bool := n.cmd.flags.getLsbD (flagBit f)

/-- A saturating count goes up by one (00_scope, Saturating counts). -/
def satSucc (k : Nat) : Nat := min (k + 1) counterTop

/-- The counters, in place order (R198). -/
inductive Counter where
  | good | bad | broken | collisions | giveUps | noBuffer | jabber | queueDrops
  | ignitions | jams | trips | overdraw
deriving DecidableEq, Repr

/-- A counter's place (R198). -/
def counterPlace : Counter → Fin 12
  | .good => 0 | .bad => 1 | .broken => 2 | .collisions => 3 | .giveUps => 4 | .noBuffer => 5 | .jabber => 6
  | .queueDrops => 7 | .ignitions => 8 | .jams => 9 | .trips => 10 | .overdraw => 11

/-- A counter's value. -/
def counter (c : Counter) (n : Node) : Nat := n.cmd.counters[counterPlace c]

/-- A counter rises by one and saturates at 65 535 (R192, R198). -/
def bump (c : Counter) (n : Node) : Node :=
  { n with cmd := { n.cmd with counters := n.cmd.counters.set (counterPlace c) (satSucc (counter c n)) } }

end Sys2Proof.Machine
end

