-- ==== Sys2Proof/Machine/Operands.lean ====
section
/-! DEFINITION. What the commands' operands mean: converter results, pin levels, elements and characters. -/

namespace Sys2Proof.Machine

/-- The shunt converter's count, brought to its limits, and whether the sample is current-at-limit (R3). -/
def shuntCount (raw : Int) : Int × Bool :=
  if raw ≥ shuntLimit then (shuntLimit, true)
  else if raw ≤ -shuntLimit then (-shuntLimit, true)
  else (raw, false)

/-- The current of a sample in mA, truncated toward zero (R3). -/
def shuntCurrent (count : Int) (shunt : Nat) : Int := (count * 2500).tdiv shunt

/-- The voltage of a sample in mV (R4). -/
def sampleVoltage (raw : Nat) : Nat := min raw voltLimit

/-- Whether a pin reads high through its pull device; what an open pin without one reads as is free (R171). -/
def pinHigh (pull : Pull) (level : PinLevel) (free : Nat) : Bool :=
  match level, pull with
  | .high, _ => true
  | .low, _ => false
  | .floating, .up => true
  | .floating, .down => false
  | .floating, .none => Config.floatingPin free

/-- The instant state of an IN or PULSE channel: its pin through pull device and polarity (R171). -/
def instantState (c : ChanCfg) (level : PinLevel) (free : Nat) : Bool :=
  xor (pinHigh c.pull level free) c.activeLow

/-- Whether a reading of this pin takes a free value. -/
def readsFree (c : ChanCfg) (level : PinLevel) : Bool := level == .floating && c.pull == .none

/-- An AIN reading: 0 to 1 000 ohms, or 0 to 5 000 mV (R172). -/
def ainReading (volt : Bool) (value : Int) : Nat := min value.toNat (if volt then 5000 else 1000)

/-- A temperature reading: the element lies between its limits and the temperature is brought into the reading
range, or the reading is invalid (R181 and the table of section 9.6). -/
def tempValue (t : TempType) (ohms : Nat) (temp : Int) : Option Int :=
  match t with
  | .unused => none
  | .ntc => if ohms > 1000000 ∨ ohms < 100 then none else some (max (-400) (min 850 temp))
  | .high => if ohms > 5000 ∨ ohms < 500 then none else some (max 0 (min 4500 temp))

/-- The data byte of a received character (R183: the start bit is bit 0, then the data, least significant first). -/
def charByte (c : BitVec 11) : Byte := c.extractLsb' 1 8

/-- The number of 1s among the first `k` bits of a character. -/
def onesBelow (c : BitVec 11) : Nat → Nat
  | 0 => 0
  | k + 1 => onesBelow c k + (c.getLsbD k).toNat

/-- The number of 1s among the eight bits of a byte is odd. -/
def oddOnes (b : Byte) : Bool := (onesBelow (b.setWidth 11) 8) % 2 == 1

/-- The character a byte travels as (R183): a dominant start bit, the data least significant first, a parity bit that
makes the 1s even in number, a recessive stop bit. -/
def sentChar (b : Byte) : BitVec 11 :=
  1#1 ++ BitVec.ofBool (oddOnes b) ++ b ++ 0#1

/-- The bit at a place of a run of characters sent back to back (R183), 1 (true) being recessive; none beyond its
end. -/
def sentBit (bytes : List Byte) (k : Nat) : Option Bool := bytes[k / 11]?.map fun b => (sentChar b).getLsbD (k % 11)

/-- A character's framing error: its stop bit, bit 10, reads dominant (R183). -/
def framingError (c : BitVec 11) : Bool := !c.getLsbD 10

/-- A character's parity error: the 1s among its data and parity bits, bits 1 to 9, are odd in number (R183). -/
def parityError (c : BitVec 11) : Bool := (onesBelow c 10 - onesBelow c 1) % 2 == 1

/-- A fault found at a character: an error of its own, a first character that is not SYNC, a LENGTH above 28
(R185). -/
def characterFault (index : Nat) (c : BitVec 11) : Bool :=
  framingError c || parityError c || (index == 0 && charByte c != 0xC3#8) || (index == 3 && (charByte c).toNat > 28)

/-- An amount in mA rounded up to 100 mA, in 100 mA units (00_scope, Integer arithmetic). -/
def units (mA : Nat) : Nat := (mA + 99) / 100

end Sys2Proof.Machine
end

