-- ==== Sys2Proof/Machine/Ops.lean ====
section
/-! DEFINITION. The named operations over the node's records that every block uses: one update per record, the
duties, sorting, and the claim table's own operations (chapter 3). -/

namespace Sys2Proof.Machine

/-! ## One update per record -/

def Node.setBattery (n : Node) (b : Battery) : Node := { n with battery := b }
def Node.setView (n : Node) (v : View) : Node := { n with view := v }
def Node.setTanks (n : Node) (t : Tanks) : Node := { n with tanks := t }
def Node.setPump (n : Node) (p : Pump) : Node := { n with pump := p }
def Node.setFrost (n : Node) (f : Frost) : Node := { n with frost := f }
def Node.setHeater (n : Node) (h : Heater) : Node := { n with heater := h }
def Node.setMotion (n : Node) (m : Motion) : Node := { n with motion := m }
def Node.setWind (n : Node) (w : Wind) : Node := { n with wind := w }
def Node.setLights (n : Node) (l : Lights) : Node := { n with lights := l }
def Node.setBank (n : Node) (b : Bank) : Node := { n with bank := b }
def Node.setTx (n : Node) (t : Transmitter) : Node := { n with tx := t }
def Node.setCmd (n : Node) (c : CommandUnit) : Node := { n with cmd := c }
def Node.setPub (n : Node) (p : Published) : Node := { n with pub := p }
def Node.setEv (n : Node) (e : Event) : Node := { n with ev := e }
def Node.setClaim (n : Node) (i : Fin 8) (c : Claim) : Node := { n with claims := n.claims.set i c }

/-- A claim slot's record (R48). -/
def Node.claim (n : Node) (i : Fin 8) : Claim := n.claims[i]

/-- A general channel's record. -/
def Node.chan (n : Node) (i : Fin 16) : Channel := n.bank.chans[i]

def Node.setChan (n : Node) (i : Fin 16) (c : Channel) : Node :=
  n.setBank { n.bank with chans := n.bank.chans.set i c }

/-! ## Duties and time -/

/-- A duty's bit in the duty set (section 12.3, PRESENCE). -/
def dutyBit : Duty → Nat
  | .battery => 0 | .tanks => 1 | .pump => 2 | .frost => 3 | .heater => 4 | .awning => 5 | .step => 6
  | .lights => 7 | .travel => 8 | .wind => 9 | .aux => 10

/-- Whether a duty set holds a duty. -/
def holdsDuty (d : Duty) (duties : BitVec 11) : Bool := duties.getLsbD (dutyBit d)

/-- Whether the node's applied image holds a duty; a node without an applied image holds none (R29). -/
def Node.has (n : Node) (d : Duty) : Bool :=
  match n.cfg with
  | some c => holdsDuty d c.duties
  | none => false

/-- Whether a moment has come. -/
def Node.reached (n : Node) (due : Option Nat) : Bool :=
  match due with
  | some t => t ≤ n.now
  | none => false

/-- Whether the node dispatches frames and runs its events: it is out of reset, has decided its state, and is not
HALTED (section 2.1). -/
def Node.up (n : Node) : Bool :=
  match n.state with
  | some .halted => false
  | some _ => true
  | none => false

def Node.isActive (n : Node) : Bool := n.state == some .active

/-- The moment `k` ms from now. -/
def Node.after (n : Node) (k : Nat) : Option Nat := some (n.now + k)

/-! ## Sorting by a strict order -/

/-- Insert before the first element that comes after it. -/
def insertBy {α : Type} (before : α → α → Bool) (x : α) : List α → List α
  | [] => [x]
  | y :: ys => if before x y then x :: y :: ys else y :: insertBy before x ys

/-- Insertion sort. -/
def sortBy {α : Type} (before : α → α → Bool) : List α → List α
  | [] => []
  | x :: xs => insertBy before x (sortBy before xs)

/-! ## The claim table -/

/-- The eight slots in ascending order (R48). -/
def slots : List (Fin 8) := [0, 1, 2, 3, 4, 5, 6, 7]

/-- The slots of R48 by their owners. -/
def slotPump : Fin 8 := 2
def slotHeater : Fin 8 := 3
def slotFrost : Fin 8 := 6
def slotAux : Fin 8 := 7

/-- The slot of a motion unit (R48). -/
def slotUnit : MotionUnit → Fin 8
  | .awning => 4
  | .step => 5

/-- Note that the event under way runs the wait service at its end (R59). -/
def Node.wantWait (n : Node) : Node := n.setEv { n.ev with wait := true }

/-- A filing on an IDLE slot (R58): class 4 holds at once; any other class enters WAITING with the wait deadline of
its owner, if it has one. Slots 0 and 1 carry the degradable mark (section 3.2). -/
def fileClaim (i : Fin 8) (cls wanted : Nat) (wait : Option Nat) (n : Node) : Node :=
  if (n.claim i).state ≠ .idle then n
  else if cls = 4 then
    n.setClaim i { state := .holding, cls := 4, held := wanted, wanted := wanted, stamp := n.now }
  else
    (n.setClaim i {
      state := .waiting, cls := cls, wanted := wanted, stamp := n.now
      deadline := wait.map (n.now + ·), degradable := decide (i.val < 2) }).wantWait

/-- A raise (R64) to a larger wanted amount. -/
def raiseClaim (i : Fin 8) (wanted : Nat) (wait : Option Nat) (n : Node) : Node :=
  let c := n.claim i
  if wanted ≤ c.wanted then n
  else match c.state with
    | .idle => n
    | .holding =>
      if c.cls = 4 then (n.setClaim i { c with held := wanted, wanted := wanted }).wantWait
      else (n.setClaim i { c with
        state := .waiting, wanted := wanted, stamp := n.now, deadline := wait.map (n.now + ·) }).wantWait
    | .waiting | .asking => (n.setClaim i { c with wanted := wanted }).wantWait

/-- A release (R66) of a slot that is not IDLE. -/
def releaseClaim (i : Fin 8) (n : Node) : Node :=
  if (n.claim i).state = .idle then n else (n.setClaim i {}).wantWait

/-- A reduce (R65) to a smaller wanted amount; to 0 it is a release. -/
def reduceClaim (i : Fin 8) (r : Nat) (n : Node) : Node :=
  let c := n.claim i
  if c.state = .idle ∨ c.wanted ≤ r then n
  else if r = 0 then releaseClaim i n
  else if r ≤ c.held then
    (n.setClaim i { c with
      state := .holding, held := r, wanted := r, asked := 0, carrier := none, settle := none
      deadline := none }).wantWait
  else (n.setClaim i { c with wanted := r, asked := min c.asked r }).wantWait

/-- A conversion to class 4 (R67); on an IDLE slot it is a filing of class 4. -/
def convertClaim (i : Fin 8) (k : Nat) (n : Node) : Node :=
  let c := n.claim i
  if c.state = .idle then fileClaim i 4 k none n
  else (n.setClaim i { state := .holding, cls := 4, held := k, wanted := k, stamp := c.stamp }).wantWait

/-! ### Rank and headroom -/

/-- The rank of R55: higher class, then lower station, then lower slot. -/
def outranks (a b : Nat × Nat × Nat) : Bool :=
  b.1 < a.1 || (a.1 == b.1 && (a.2.1 < b.2.1 || (a.2.1 == b.2.1 && a.2.2 < b.2.2)))

/-- The number by which the node ranks itself: its own, or below every peer when it has none (R39). -/
def Node.rankNumber (n : Node) : Nat := n.station.getD 15

/-- The rank of one of the node's own claims. -/
def ownRank (n : Node) (i : Fin 8) : Nat × Nat × Nat := ((n.claim i).cls, n.rankNumber, i.val)

/-- S of R56: the held amounts of every claim in the view, the node's own and every peer's. -/
def heldInView (n : Node) : Nat :=
  (slots.map fun i => (n.claim i).held).sum
    + (n.view.peers.map fun p => ((p.claims.getD []).map (·.held)).sum).sum

/-- What an ask adds to what is held. -/
def askedMore (held asked : Nat) : Int := (asked : Int) - held

/-- R of R56 from the node's own claims; those moved earlier in the same pass count whatever their rank (R60). -/
def ownAsks (moved : List (Fin 8)) (c : Fin 8) (n : Node) : Int :=
  (slots.map fun i =>
    if i ≠ c ∧ (n.claim i).state = .asking ∧ (i ∈ moved ∨ outranks (ownRank n i) (ownRank n c))
    then askedMore (n.claim i).held (n.claim i).asked else 0).sum

/-- R of R56 from the peers' claims. -/
def peerAsks (c : Fin 8) (n : Node) : Int :=
  (n.view.peers.map fun p =>
    ((p.claims.getD []).map fun d =>
      if d.asking ∧ outranks (d.cls, p.station, d.slot) (ownRank n c) then askedMore d.held d.asked else 0).sum).sum

/-- The headroom H = A - S - R of R56 for the node's own claim in slot `c`. -/
def headroom (moved : List (Fin 8)) (c : Fin 8) (n : Node) : Int :=
  (n.view.allowance : Int) - heldInView n - ownAsks moved c n - peerAsks c n

/-- Whether a shed level forbids a class: the classes below it, but never class 4 (R47). -/
def forbids (level cls : Nat) : Bool := cls < level && cls < 4

/-! ### The wait service and the settle end -/

/-- Move a WAITING claim to ASKING, phase ANNOUNCING; its carrying frame is the DRAW queued in this event (R53). -/
def askFor (i : Fin 8) (asked : Nat) (n : Node) : Node :=
  n.setClaim i { n.claim i with state := .asking, asked := asked, carrier := none, settle := none }

/-- Wait order (R60): higher class, older stamp, lower slot. -/
def waitsBefore (n : Node) (i j : Fin 8) : Bool :=
  let a := n.claim i
  let b := n.claim j
  b.cls < a.cls || (a.cls == b.cls && (a.stamp < b.stamp || (a.stamp == b.stamp && i.val < j.val)))

/-- One claim's turn in a pass (R60, R68). -/
def waitTurn (p : Node × List (Fin 8)) (i : Fin 8) : Node × List (Fin 8) :=
  let n := p.1
  let c := n.claim i
  if forbids n.view.shed c.cls then p
  else
    let h := headroom p.2 i n
    if c.degradable then
      if 1 ≤ h then (askFor i (c.held + min (c.wanted - c.held) h.toNat) n, i :: p.2) else p
    else if askedMore c.held c.wanted ≤ h then (askFor i c.wanted n, i :: p.2) else p

/-- A pass of the wait service (R59, R60); it acts in ACTIVE. When it moved a claim, a DRAW is queued. -/
def waitService (n : Node) : Node :=
  if n.isActive then
    let order := sortBy (waitsBefore n) (slots.filter fun i => (n.claim i).state = .waiting)
    let p := order.foldl waitTurn (n, [])
    if p.2.isEmpty then p.1 else p.1.setEv { p.1.ev with draw := true }
  else n

/-- A claim that stops asking and waits again keeps its amounts, stamp and deadline (R54, R62). -/
def backToWaiting (c : Claim) : Claim :=
  { c with state := .waiting, asked := 0, carrier := none, settle := none }

/-- A claim granted up to `held` becomes HOLDING when it holds what it wants, and waits for the rest otherwise
(R62, R69). -/
def grantTo (held : Nat) (c : Claim) : Claim :=
  if held = c.wanted then
    { c with state := .holding, held := held, asked := 0, carrier := none, settle := none, deadline := none }
  else { backToWaiting c with held := held }

/-- One claim's turn at a settle end (R62, R69), with the slots granted so far, the latest first. -/
def settleTurn (p : Node × List (Fin 8)) (i : Fin 8) : Node × List (Fin 8) :=
  let n := p.1
  let c := n.claim i
  let h := headroom [] i n
  if forbids n.view.shed c.cls then (n.setClaim i (backToWaiting c), p.2)
  else if askedMore c.held c.asked ≤ h then (n.setClaim i (grantTo c.asked c), i :: p.2)
  else if c.degradable ∧ 1 ≤ h then (n.setClaim i (grantTo (c.held + h.toNat) c), i :: p.2)
  else (n.setClaim i (backToWaiting c), p.2)

/-- The slots whose settle end has come, in rank order (R62). -/
def settling (n : Node) : List (Fin 8) :=
  sortBy (fun i j => outranks (ownRank n i) (ownRank n j))
    (slots.filter fun i => (n.claim i).state = .asking ∧ n.reached (n.claim i).settle)

/-- The claims decided at a settle end, and the slots granted, in rank order (R62). -/
def settleClaims (n : Node) : Node × List (Fin 8) :=
  let p := (settling n).foldl settleTurn (n, [])
  (p.1.wantWait, p.2.reverse)

/-- A carrying frame is sent: its claims enter SETTLING (R53). -/
def carrierSent (entry : Nat) (n : Node) : Node :=
  slots.foldl (fun n i =>
    let c := n.claim i
    if c.state = .asking ∧ c.settle = none ∧ c.carrier = some entry
    then n.setClaim i { c with settle := n.after settleTime } else n) n

/-- A carrying frame is given up: its claims return to WAITING (R54). -/
def carrierGivenUp (entry : Option Nat) (n : Node) : Node :=
  slots.foldl (fun n i =>
    let c := n.claim i
    if c.state = .asking ∧ c.settle = none ∧ c.carrier = entry
    then n.setClaim i (backToWaiting c) else n) n

/-- The claims of a carrying frame travel in another entry from now on (R53, R187). -/
def carrierMoved (entry new : Nat) (n : Node) : Node :=
  slots.foldl (fun n i =>
    let c := n.claim i
    if c.state = .asking ∧ c.settle = none ∧ c.carrier = some entry
    then n.setClaim i { c with carrier := some new } else n) n

/-- The claims that entered ASKING in this event are carried by the DRAW of this event (R53). -/
def carriedBy (entry : Nat) (n : Node) : Node :=
  slots.foldl (fun n i =>
    let c := n.claim i
    if c.state = .asking ∧ c.settle = none ∧ c.carrier = none
    then n.setClaim i { c with carrier := some entry } else n) n

/-- A claim falls back at its wait deadline (R63): to IDLE, or to HOLDING at its old held amount. -/
def fallBack (i : Fin 8) (n : Node) : Node :=
  let c := n.claim i
  if c.held = 0 then (n.setClaim i {}).wantWait
  else (n.setClaim i { c with
    state := .holding, wanted := c.held, asked := 0, carrier := none, settle := none, deadline := none }).wantWait

/-- Whether a rise of the shed level to `level` ends a claim (R70). -/
def shedEnds (level : Nat) (c : Claim) : Bool :=
  forbids level c.cls && (c.state == .asking || c.state == .holding || (c.state == .waiting && 0 < c.held))

/-- Whether entry to SILENT ends a claim (R31). -/
def silentEnds (c : Claim) : Bool := c.cls < 4 && c.state != .idle

/-- End the claims of some slots (R66). -/
def endClaims (ended : List (Fin 8)) (n : Node) : Node := ended.foldl (fun n i => n.setClaim i {}) n

/-! ### The broadcast list -/

/-- A claim's entry of the broadcast list (R51). -/
def broadcastEntry (i : Fin 8) (c : Claim) : Option DrawClaim :=
  match c.state with
  | .idle => none
  | .waiting => if c.held = 0 then none else some ⟨i.val, c.cls, false, c.held, c.held⟩
  | .asking => some ⟨i.val, c.cls, true, c.held, c.asked⟩
  | .holding => some ⟨i.val, c.cls, false, c.held, c.held⟩

/-- The broadcast list (R51). -/
def broadcastList (n : Node) : List DrawClaim := slots.filterMap fun i => broadcastEntry i (n.claim i)

end Sys2Proof.Machine
end

