-- ==== Sys2Proof/Machine/Bank.lean ====
section
/-! DEFINITION. The channel bank's operations (chapter 9): drive requests, trips and their release, bridges. -/

namespace Sys2Proof.Machine

/-! ## Outputs -/

/-- The driven level: the commanded level while the protection state is NORMAL, 0 otherwise (section 9.3). -/
def drivenLevel (c : Channel) : Nat := if c.protection = .normal then c.commanded else 0

/-- The output is on while its driven level is above 0 (R173). -/
def isOn (c : Channel) : Bool := 0 < drivenLevel c

/-- An output is held off while it is TRIPPED or LATCHED_OFF (R173). -/
def isHeldOff (c : Channel) : Bool := c.protection != .normal

/-- The clocks of an output after a change of its record at a moment: going off stops the trip and read-back clocks
and banks the time on; going on clears the backfed mark (R174, R175, R176). -/
def settleOutput (now : Nat) (old new : Channel) : Channel :=
  match isOn old, isOn new with
  | true, false =>
    { new with
      tripClock := none, lowOn := none
      onTotal := new.onTotal + (now - old.onSince.getD now), onSince := none
      highOff := if new.pinHigh then some now else none
      lowOff := if new.pinHigh then none else some now }
  | false, true =>
    { new with
      highOff := none, lowOff := none, backfed := false, onSince := some now
      lowOn := if new.pinHigh then none else some now }
  | _, _ => new

/-- Change an output's record with the clocks that follow. -/
def Node.putOutput (n : Node) (i : Fin 16) (new : Channel) : Node :=
  n.setChan i (settleOutput n.now (n.chan i) new)

/-- An owner asks for a level (R173): the request is the commanded level at once. -/
def ask (i : Fin 16) (level : Nat) (n : Node) : Node := n.putOutput i { n.chan i with commanded := level }

/-- The bank's notices to an owner (R174, R175). -/
inductive Notice where
  | tripped | latched | retry | reset
deriving DecidableEq, Repr

/-- The trip of an output and the notice its owner gets (R174). -/
def tripOutput (i : Fin 16) (n : Node) : Node × Notice :=
  let c := n.chan i
  let latch := latchTrips ≤ c.trips + 1
  let new := { c with
    protection := if latch then .latchedOff else .tripped
    trips := c.trips + 1
    retry := if latch then none else n.after retryTime }
  let n := n.putOutput i new
  let n := n.setChan i { n.chan i with onTotal := 0 }
  (bump .trips (setFlag .channelTrip n), if latch then .latched else .tripped)

/-- The release of an output to NORMAL (R175). -/
def releaseOutput (i : Fin 16) (n : Node) : Node :=
  n.putOutput i { n.chan i with protection := .normal, retry := none }

/-- The role of a channel; OFF until an image is applied (R170). -/
def Node.role (n : Node) (i : Fin 16) : Role :=
  match n.cfg with
  | some c => c.chans[i].role
  | none => .off

/-- The owner of a channel (R170). -/
def Node.owner (n : Node) (i : Fin 16) : Option Duty :=
  match n.cfg with
  | some c => c.chans[i].owner
  | none => none

/-- A channel's settings. -/
def Node.chanCfg (n : Node) (i : Fin 16) : ChanCfg :=
  match n.cfg with
  | some c => c.chans[i]
  | none => {}

/-- The accepted state of an IN channel is active; before the first accepted state it is not (R5, R171). -/
def Node.inputActive (n : Node) (i : Fin 16) : Bool := (n.chan i).accepted == some true

/-- The type of a temperature input; none is read before an image is applied (R170). -/
def tempTypeOf (i : Fin 4) (n : Node) : TempType :=
  match n.cfg with
  | some c => c.temps[i]
  | none => .unused

/-- The latest reading of a temperature input when it is valid. -/
def Node.validTemp (n : Node) (i : Fin 4) : Option Int := (n.bank.temps[i]).reading.join

/-! ## Bridges -/

/-- The bridge of a motion unit: MA for the awning, MB for the step (section 9.5). -/
def Node.bridge (n : Node) : MotionUnit → Bridge
  | .awning => n.bank.bridgeA
  | .step => n.bank.bridgeB

def Node.setBridge (n : Node) (u : MotionUnit) (b : Bridge) : Node :=
  match u with
  | .awning => n.setBank { n.bank with bridgeA := b }
  | .step => n.setBank { n.bank with bridgeB := b }

/-- The bridge state that drives a direction (section 9.5). -/
def driveState : Dir → BridgeState
  | .extend => .forward
  | .retract => .reverse

/-- The other direction. -/
def otherDir : Dir → Dir
  | .extend => .retract
  | .retract => .extend

/-- The dwell is complete for a drive in a direction (R179). -/
def dwellComplete (now : Nat) (b : Bridge) (d : Dir) : Bool :=
  b.last == none || b.last == some d ||
    (match b.coastSince with
     | some t => decide (t + coastDwell ≤ now)
     | none => false)

/-- A bridge that drives a direction; its current is read every 10 ms from then on, or as before when it drives
already (R179; log entry 41). -/
def driving (now : Nat) (b : Bridge) (d : Dir) : Bridge :=
  { state := driveState d, last := some d, coastSince := none, pending := none
    due := if b.state = driveState d then b.due else some (now + readingPeriod) }

/-- A request for COAST (R179); in BRIDGE_FAULT it changes nothing (R180). -/
def bridgeCoast (u : MotionUnit) (n : Node) : Node :=
  let b := n.bridge u
  match b.state with
  | .fault => n
  | .coast => n.setBridge u { b with pending := none }
  | _ => n.setBridge u { b with state := .coast, coastSince := some n.now, pending := none, due := none }

/-- A request for BRAKE (R179, R180). -/
def bridgeBrake (u : MotionUnit) (n : Node) : Node :=
  let b := n.bridge u
  if b.state = .fault then n else n.setBridge u { b with state := .brake, coastSince := none, pending := none, due := none }

/-- A request to drive (R179): at once when the dwell is complete, pending in COAST otherwise; refused in
BRIDGE_FAULT (R180). -/
def bridgeDrive (u : MotionUnit) (d : Dir) (n : Node) : Node :=
  let b := n.bridge u
  if b.state = .fault then n
  else if dwellComplete n.now b d then n.setBridge u (driving n.now b d)
  else if b.state = .coast then n.setBridge u { b with pending := some d }
  else n.setBridge u { b with state := .coast, coastSince := some n.now, pending := some d, due := none }

/-- A request to clear a bridge fault (R180): back to COAST, counted from the moment of the fault. -/
def bridgeClear (u : MotionUnit) (n : Node) : Node :=
  let b := n.bridge u
  if b.state = .fault then n.setBridge u { b with state := .coast } else n

end Sys2Proof.Machine
end

