-- ==== Sys2Proof/Machine/Codes.lean ====
section
/-! DEFINITION. The codes of named states, as section 12.3 and R196 number them. -/

namespace Sys2Proof.Machine

def bandCode : Band → Nat
  | .normal => 0 | .economy => 1 | .reserve => 2 | .cutoff => 3

/-- LISTEN-ONLY 1, ACTIVE 3 (section 12.3); no other node state is sent. -/
def nodeCode : NodeState → Nat
  | .halted => 0 | .listenOnly => 1 | .listening => 2 | .active => 3 | .silent => 4

def tankKindCode : TankKind → Nat
  | .fresh => 0 | .grey => 1 | .black => 2

def pumpStateCode : PumpState → Nat
  | .idle => 0 | .waiting => 1 | .running => 2 | .inhibited => 3 | .dryFault => 4

def pumpReasonCode : Option PumpReason → Nat
  | none => 0 | some .frost => 1 | some .greyFull => 2 | some .freshEmpty => 3 | some .channel => 4
  | some .shed => 5 | some .noEnergy => 6

def frostCode : FrostState → Nat
  | .armed => 0 | .countdown => 1 | .dumping => 2 | .drained => 3 | .closing => 4 | .valveFault => 5 | .disarmed => 6

def heaterCode : HeaterState → Nat
  | .off => 0 | .standby => 1 | .purge => 2 | .glow => 3 | .ignite => 4 | .run => 5 | .cooldown => 6 | .venting => 7
  | .lockout => 8

def modeCode : HeaterMode → Nat
  | .off => 0 | .heat => 1 | .frost => 2 | .vent => 3

def modeOfCode (k : Nat) : Option HeaterMode :=
  if k = 0 then some .off else if k = 1 then some .heat else if k = 2 then some .frost
  else if k = 3 then some .vent else none

def reasonCode : StopReason → Nat
  | .none => 0 | .satisfied => 1 | .noEnergy => 2 | .shed => 3 | .noFlame => 4 | .flameLost => 5 | .overheat => 6
  | .channel => 7 | .sensor => 8

def unitKindCode : MotionUnit → Nat
  | .awning => 0 | .step => 1

def unitStateCode : UnitState → Nat
  | .unknown => 0 | .retracted => 1 | .extended => 2 | .partway => 3 | .extending => 4 | .retracting => 5
  | .reversing => 6 | .fault => 7

def causeCode : FaultCause → Nat
  | .none => 0 | .jam => 1 | .timeout => 2 | .endStopConflict => 3

def outcomeCode : MoveOutcome → Nat
  | .none => 0 | .done => 1 | .stopped => 2 | .replaced => 3 | .noEnergy => 4 | .shed => 5 | .interlock => 6
  | .jam => 7 | .timeout => 8 | .conflict => 9 | .bridgeFault => 10

/-- The results of commands, in the order of the table of R195. -/
inductive Result where
  | done | doneClamped | accepted | refusedBusy | refusedInterlock | refusedRange | refusedNoDuty | refusedState
  | unknownCommand
deriving DecidableEq, Repr

def resultCode : Result → Nat
  | .done => 0 | .doneClamped => 1 | .accepted => 2 | .refusedBusy => 3 | .refusedInterlock => 4
  | .refusedRange => 5 | .refusedNoDuty => 6 | .refusedState => 7 | .unknownCommand => 8

end Sys2Proof.Machine
end

