-- ==== Sys2Proof/Machine/Pump.lean ====
section
/-! DEFINITION. The tank scanner and the pump (chapter 4). -/

namespace Sys2Proof.Machine

/-! ## Calibration (R11, R79) -/

/-- A reading mapped through a table of points by the rule of R11: floor within a segment, the end levels beyond the
ends. -/
def mapTable (x : Nat) : List (Nat × Nat) → Nat
  | [] => 0
  | [p] => p.2
  | p :: q :: rest =>
    if x < p.1 then p.2
    else if x < q.1 then ((p.2 : Int) + ((x : Int) - p.1) * ((q.2 : Int) - p.2) / ((q.1 : Int) - p.1)).toNat
    else mapTable x (q :: rest)

/-! ## Scan results -/

/-- The wet probes from the bottom up to the first dry one (R77). -/
def wetRun : List Bool → Nat
  | true :: rest => wetRun rest + 1
  | _ => 0

/-- A ladder's result in per mille (R77). -/
def ladderLevel (probes : List Bool) : Nat := wetRun probes * 1000 / probes.length

/-- A ladder scan is inconsistent when a probe above the first dry one is wet (R77). -/
def inconsistent (probes : List Bool) : Bool := (probes.drop (wetRun probes)).contains true

/-- The middle of three levels in order of size; of fewer there is none (R81). -/
def median (w : List Nat) : Option Nat :=
  match sortBy (fun a b => decide (a < b)) w with
  | [_, m, _] => some m
  | _ => none

/-- The alarms of a tank against a new level (R83). -/
def alarms (c : TankCfg) (level : Nat) (t : Tank) : Tank :=
  if c.kind = .fresh then
    { t with
      low := if level ≤ 100 then true else if 150 ≤ level then false else t.low
      empty := if level = 0 then true else if 50 ≤ level then false else t.empty }
  else
    { t with full := if c.full ≤ level then true else if level + 50 ≤ c.full then false else t.full }

/-- A scan result enters the median window (R81, R82, R83). -/
def applyResult (c : TankCfg) (level : Nat) (t : Tank) : Tank :=
  let window := (if 3 ≤ t.window.length then t.window.drop 1 else t.window) ++ [level]
  let t := { t with window := window }
  match median window with
  | none => t
  | some m =>
    let t := { t with heldMark := false }
    if t.level = some m then t else alarms c m { t with level := some m }

/-- What a scan gives of a tank: no result, a faulty sender, or a level, with the consistency of a ladder. -/
inductive ScanResult where
  | none
  | senderFault
  | sender (level : Nat)
  | ladder (level : Nat) (consistent : Bool)
deriving DecidableEq, Repr

/-- A tank's scan result at the completion, before the excitation goes off (R76 to R80). -/
def scanTank (n : Node) (c : TankCfg) : ScanResult :=
  match c.method with
  | .ladder probes exc =>
    if isOn (n.chan exc) then
      let wet := probes.map fun i => (n.chan i).instant
      .ladder (ladderLevel wet) (!inconsistent wet)
    else .none
  | .sender ch table =>
    match (n.chan ch).reading with
    | none => .none
    | some r => if 600 < r ∨ r < 2 then .senderFault else .sender (mapTable (min r 400) table)

/-- A result applied to its tank record (R78, R80, R81). -/
def applyScan (c : TankCfg) (r : ScanResult) (t : Tank) : Tank :=
  match r with
  | .none => t
  | .senderFault => { t with senderFault := true, window := [] }
  | .sender level => applyResult c level { t with senderFault := false }
  | .ladder level consistent =>
    if consistent then applyResult c level { t with run := 0, probeFault := false }
    else
      let run := min 3 (t.run + 1)
      applyResult c level { t with run := run, probeFault := decide (run = 3) }

/-- A scan that sets a latched flag (R78, R80). -/
def scanFlags (r : ScanResult) (after : Tank) (n : Node) : Node :=
  match r with
  | .senderFault => setFlag .senderFault n
  | .ladder _ false => if after.probeFault then setFlag .probeFault n else n
  | _ => n

/-- The settings of the node's tanks. -/
def Node.tankCfgs (n : Node) : List TankCfg :=
  match n.cfg with
  | some c => c.tanks.getD []
  | none => []

/-- Ask for a level on the excitation channel of every LADDER tank (R76). -/
def excite (level : Nat) (n : Node) : Node :=
  n.tankCfgs.foldl (fun n c =>
    match c.method with
    | .ladder _ exc => ask exc level n
    | .sender _ _ => n) n

/-- The results of a completed scan are applied, in tank number order (R76, step 5); with the travel view true they
are not, and every held mark is set (R82). -/
def finishScan (n : Node) : Node :=
  let results := n.tankCfgs.map (scanTank n)
  let n := excite 0 n
  if n.view.travel then
    n.setTanks { n.tanks with records := n.tanks.records.map fun t => { t with heldMark := true } }
  else
    let rows := n.tankCfgs.zip results
    let records := (rows.zip n.tanks.records).map fun x => applyScan x.1.1 x.1.2 x.2
    (results.zip records).foldl (fun n x => scanFlags x.1 x.2 n) (n.setTanks { n.tanks with records := records })

/-- The travel view changed (R82): held marks are set at its start, windows are emptied at its end, the 50 ms of a scan
included (log entry 58). -/
def tanksTravel (travel : Bool) (n : Node) : Node :=
  n.setTanks { n.tanks with
    records := n.tanks.records.map fun t =>
      if travel then { t with heldMark := true } else { t with window := [] } }

/-! ## What the pump sees -/

/-- The element with the lowest number. -/
def lowest {α : Type} : List (Nat × α) → Option α
  | [] => none
  | x :: rest => some (rest.foldl (fun b y => if y.1 < b.1 then y else b) x).2

/-- The node's own tanks with their settings, in number order. -/
def Node.ownTanks (n : Node) : List (TankCfg × Tank) := n.tankCfgs.zip n.tanks.records

/-- The used fresh tank's EMPTY and LOW alarms: the first FRESH tank of the lowest-numbered station that reports
one (R90). A peer's alarms are the flags its frame carried, also beside an unknown level (log entry 44). -/
def usedFresh (n : Node) : Option (Bool × Bool) :=
  let own := ((n.ownTanks.find? fun x => x.1.kind == .fresh).map fun x =>
    (n.rankNumber, x.2.empty, x.2.low)).toList
  let peers := n.view.peers.filterMap fun p =>
    ((p.tanks.getD []).find? fun t => t.kind == 0).map fun t => (p.station, t.empty, t.low)
  lowest (peers ++ own)

/-- Any frost state in the view is DUMPING or DRAINED (R90). -/
def frostInhibit (n : Node) : Bool :=
  (n.has .frost && (n.frost.state == .dumping || n.frost.state == .drained))
    || n.view.peers.any fun p => p.frost == some 2 || p.frost == some 3

/-- Any GREY tank in the view has GREY_FULL set (R90). -/
def greyInhibit (n : Node) : Bool :=
  (n.ownTanks.any fun x => x.1.kind == .grey && x.2.full)
    || n.view.peers.any fun p => (p.tanks.getD []).any fun t => t.kind == 1 && t.full

/-- The first inhibit that holds, in the order of R88. -/
def pumpInhibit (c : PumpCfg) (n : Node) : Option PumpReason :=
  if frostInhibit n then some .frost
  else if greyInhibit n then some .greyFull
  else if (usedFresh n).any (·.1) then some .freshEmpty
  else if isHeldOff (n.chan c.output) then some .channel
  else if n.pump.toldShed && 2 ≤ n.view.shed then some .shed
  else if n.pump.toldNoEnergy then some .noEnergy
  else none

/-- Demand: the accepted state of the pressure switch (R89). -/
def demand (c : PumpCfg) (n : Node) : Bool := n.inputActive c.switch

def Node.pumpCfg (n : Node) : Option PumpCfg := n.cfg.bind (·.pump)

/-! ## The pump's moves -/

/-- Enter a state with the clocks stopped. -/
def pumpTo (s : PumpState) (r : Option PumpReason) (n : Node) : Node :=
  n.setPump { n.pump with state := s, reason := r, run := none, low := none }

/-- Stop or withdraw: the output off when running, the claim released (R89, R90). -/
def pumpStop (c : PumpCfg) (n : Node) : Node :=
  let n := if n.pump.state = .running then ask c.output 0 n else n
  releaseClaim slotPump n

/-- From IDLE: file when the node is ACTIVE, the mode is ON and there is demand (R91). -/
def pumpFile (c : PumpCfg) (n : Node) : Node :=
  if n.isActive && n.pump.modeOn && demand c n && n.pump.state == .idle then
    pumpTo .waiting none (fileClaim slotPump 1 (units c.draw) (some pumpWait) n)
  else n

/-- From IDLE: INHIBITED when an inhibit holds, else file (R87, R89). -/
def pumpBegin (c : PumpCfg) (n : Node) : Node :=
  if n.pump.state = .idle ∧ n.pump.modeOn then
    match pumpInhibit c n with
    | some r => pumpTo .inhibited (some r) n
    | none => pumpFile c n
  else n

/-- The low clock (R93). -/
def pumpLow (n : Node) : Node :=
  if n.pump.state = .running then
    let low := (usedFresh n).any (·.2)
    n.setPump { n.pump with low := if low then some (n.pump.low.getD n.now) else none }
  else n

/-- An evaluation of the inhibits (R90). -/
def pumpEvaluate (c : PumpCfg) (n : Node) : Node :=
  let n := if n.view.shed < 2 then n.setPump { n.pump with toldShed := false } else n
  match n.pump.state, pumpInhibit c n with
  | .running, some r => pumpTo .inhibited (some r) (pumpStop c n)
  | .running, none => pumpLow n
  | .waiting, some r => pumpTo .inhibited (some r) (pumpStop c n)
  | .idle, some r => if n.pump.modeOn then pumpTo .inhibited (some r) n else n
  | .inhibited, some r => pumpTo .inhibited (some r) n
  | .inhibited, none => pumpFile c (pumpTo .idle none n)
  | _, _ => n

/-- A change of demand (R89), then an evaluation (R90). -/
def pumpDemand (c : PumpCfg) (n : Node) : Node :=
  if demand c n then pumpEvaluate c (pumpBegin c n)
  else
    let n := n.setPump { n.pump with toldNoEnergy := false }
    let n := if n.pump.state = .waiting ∨ n.pump.state = .running then pumpTo .idle none (pumpStop c n) else n
    pumpEvaluate c n

/-- GRANTED (R91). -/
def pumpGranted (n : Node) : Node :=
  match n.pumpCfg with
  | none => n
  | some c =>
    if n.pump.state = .waiting ∧ units c.draw ≤ (n.claim slotPump).held then
      let n := ask c.output 100 n
      pumpLow (n.setPump { n.pump with state := .running, reason := none, run := some n.now, low := none })
    else n

/-- NO_ENERGY (R92). -/
def pumpNoEnergy (n : Node) : Node :=
  match n.pumpCfg with
  | none => n
  | some c =>
    if n.pump.state = .waiting then
      let n := n.setPump { n.pump with toldNoEnergy := true }
      pumpTo .inhibited (pumpInhibit c n) n
    else n

/-- SHED (R92). -/
def pumpShed (n : Node) : Node :=
  match n.pumpCfg with
  | none => n
  | some c =>
    if n.pump.state = .running ∨ n.pump.state = .waiting then
      let n := pumpStop c n
      let n := n.setPump { n.pump with toldShed := true }
      pumpTo .inhibited (pumpInhibit c n) n
    else n

/-- DRY_FAULT (R93). -/
def pumpDry (c : PumpCfg) (n : Node) : Node :=
  let n := pumpTo .dryFault none (pumpStop c n)
  setFlag .dryFault (n.setPump { n.pump with dryCount := satSucc n.pump.dryCount })

/-- An evaluation at a node that holds the PUMP duty. -/
def pumpCheck (n : Node) : Node :=
  match n.pumpCfg with
  | none => n
  | some c => pumpEvaluate c n

end Sys2Proof.Machine
end

