-- ==== Sys2Proof/Machine/FrostMonitor.lean ====
section
/-! DEFINITION. The frost monitor (chapter 5). -/

namespace Sys2Proof.Machine

def Node.frostCfg (n : Node) : Option FrostCfg := n.cfg.bind (·.frost)

def Node.heaterCfg (n : Node) : Option HeaterCfg := n.cfg.bind (·.heater)

/-- The cabin reading when it is valid: one input is named and its latest reading is valid (R122). -/
def cabinReading (c : HeaterCfg) (n : Node) : Option Int := c.cabin.bind n.validTemp

/-- The cabin temperature of the lowest-numbered heater station in the view, when valid (R98, step 2). -/
def heaterStationTemp (n : Node) : Option Int :=
  let own := (n.heaterCfg.map fun c => (n.rankNumber, cabinReading c n)).toList
  let peers := n.view.peers.filterMap fun p => p.climate.map fun c => (p.station, c.cabin)
  (lowest (peers ++ own)).join

/-- The temperature that step 1 or step 2 of R98 gives. -/
def sourceTemp (c : FrostCfg) (n : Node) : Option Int :=
  match c.temp.bind n.validTemp with
  | some t => some t
  | none => heaterStationTemp n

/-- The grace of R98 still runs. -/
def inGrace (n : Node) : Bool := n.now < n.frost.grace + graceTime

/-- The temperature used (R98). -/
def tempUsed (c : FrostCfg) (n : Node) : Option Int :=
  match sourceTemp c n with
  | some t => some t
  | none => if inGrace n then n.frost.lastTemp else none

/-- The water is cold (R98). -/
def waterCold (c : FrostCfg) (n : Node) : Bool :=
  match tempUsed c n with
  | some t => t ≤ c.threshold
  | none => !inGrace n

/-- Heat is present (R99); RUN is code 5. -/
def heatPresent (n : Node) : Bool :=
  (n.has .heater && n.heater.state == .run) || n.view.peers.any fun p => p.climate.any fun c => c.state == 5

/-- The battery is in cutoff, as this node's view shows it (R99); CUTOFF is code 3. -/
def viewCutoff (n : Node) : Bool := n.view.band == some 3 || (n.view.orphaned && n.view.sourceShed == 4)

/-- While step 1 or 2 gives a valid reading, that reading is the last one and the grace begins anew (R98). Taken at
the start of every event, for the time up to it. -/
def keepTemp (n : Node) : Node :=
  match n.frostCfg with
  | none => n
  | some c =>
    match sourceTemp c n with
    | some t => n.setFrost { n.frost with lastTemp := some t, grace := n.now }
    | none => n

/-- A valve move begins (R97): the class-4 claim, then the coil. -/
def beginMove (s : FrostState) (coil : Fin 16) (n : Node) : Node :=
  let n := fileClaim slotFrost 4 valveUnits none n
  let n := ask coil 100 n
  n.setFrost { n.frost with state := s, countdown := none, moveEnd := n.after moveTime }

/-- Enter a state in which no countdown and no move runs. -/
def frostTo (s : FrostState) (n : Node) : Node :=
  n.setFrost { n.frost with state := s, countdown := none, moveEnd := none }

/-- The first accepted state of the closed contact has come (R108). -/
def contactKnown (c : FrostCfg) (n : Node) : Bool := (n.chan c.contact).accepted.isSome

/-- An evaluation of the conditions (R100, R101). -/
def frostEvaluate (c : FrostCfg) (n : Node) : Node :=
  if !contactKnown c n then n
  else
    let danger := waterCold c n && !heatPresent n
    match n.frost.state with
    | .armed =>
      if danger then
        if viewCutoff n then beginMove .dumping c.openCoil n
        else n.setFrost { n.frost with state := .countdown, countdown := n.after c.delay }
      else n
    | .countdown =>
      if !danger then frostTo .armed n
      else if viewCutoff n then beginMove .dumping c.openCoil n
      else n
    | _ => n

/-- An evaluation at a node that holds the FROST duty. -/
def frostCheck (n : Node) : Node :=
  match n.frostCfg with
  | none => n
  | some c => frostEvaluate c n

/-- ARMED or DRAINED by the closed contact (R105). -/
def stateFromContact (c : FrostCfg) (n : Node) : Node :=
  if n.inputActive c.contact then frostEvaluate c (frostTo .armed n) else frostTo .drained n

/-- An accepted change of the closed contact (R104, R108). `first`: it is the first accepted state. -/
def contactChange (c : FrostCfg) (first : Bool) (n : Node) : Node :=
  if first then (if n.inputActive c.contact then n else frostTo .drained n)
  else match n.frost.state with
    | .armed | .countdown | .disarmed => if n.inputActive c.contact then n else frostTo .drained n
    | _ => n

/-- The end of a valve move (R97, R102, R103). -/
def endMove (c : FrostCfg) (n : Node) : Node :=
  let opening := n.frost.state == .dumping
  let n := ask (if opening then c.openCoil else c.closeCoil) 0 n
  let n := releaseClaim slotFrost n
  let closed := n.inputActive c.contact
  if opening then
    if closed then setFlag .valveFault (frostTo .valveFault n) else setFlag .frostDumped (frostTo .drained n)
  else if closed then frostEvaluate c (frostTo .armed n)
  else setFlag .valveFault (frostTo .valveFault n)

end Sys2Proof.Machine
end

