-- ==== Sys2Proof/Machine/HeaterCtl.lean ====
section
/-! DEFINITION. The heater controller (chapter 6). -/

namespace Sys2Proof.Machine

/-! ## Settings by level -/

/-- The claim amount of a level 1 to 4 in 100 mA units (section 6.1). -/
def levelUnits (c : HeaterCfg) (level : Nat) : Nat := units (c.levels.getD (level - 1) 0)

def levelDuty (c : HeaterCfg) (level : Nat) : Nat := c.duties.getD (level - 1) 0

/-- The fuel rate of a level in tenths of a hertz (section 6.1). -/
def levelRate (level : Nat) : Nat := [10, 16, 24, 32].getD (level - 1) 0

/-- The effective setpoint (R111): the stored HEAT setpoint, or 5.0 degrees in FROST. -/
def effectiveSetpoint (h : Heater) : Int := if h.mode = .frost then frostSetpoint else h.setpoint

/-- The mode is HEAT or FROST. -/
def heatMode (h : Heater) : Bool := h.mode == .heat || h.mode == .frost

/-- A setpoint brought into range and to a whole step of 0.5 degrees, rounded down (R111). -/
def clampSetpoint (s : Int) : Int := if s < 50 then 50 else if 300 < s then 300 else s - s % 5

/-! ## Clocks and outputs -/

/-- The k-th pulse of a rate begins this long after the rate took effect (R117). -/
def pulseOffset (rate k : Nat) : Nat := k * 10000 / rate

/-- A fuel rate takes effect now (R117). -/
def setRate (rate : Nat) (h : Heater) (now : Nat) : Heater :=
  { h with rate := rate, rateStart := now, pulses := 0 }

/-- The fuel output off, a pulse under way cut (R117). -/
def fuelOff (c : HeaterCfg) (n : Node) : Node :=
  let n := ask c.fuel 0 n
  n.setHeater { n.heater with rate := 0, pulses := 0, pulseEnd := none }

/-- All three outputs off. -/
def heaterDark (c : HeaterCfg) (n : Node) : Node := ask c.fan 0 (ask c.glow 0 (fuelOff c n))

/-- The record with the clocks of RUN and a pending raise gone. -/
def clocksOff (h : Heater) : Heater :=
  { h with holdEnd := none, raise := none, satisfied := none, loss := none, phaseEnd := none }

/-- Enter a state in which nothing runs and the level is 0. -/
def heaterTo (s : HeaterState) (n : Node) : Node :=
  n.setHeater { clocksOff n.heater with state := s, level := 0 }

def setReason (r : StopReason) (n : Node) : Node := n.setHeater { n.heater with reason := r }

/-- The latest exhaust reading is there and valid. -/
def exhaustValid (c : HeaterCfg) (n : Node) : Bool := (n.validTemp c.exhaust).isSome

/-- One of the heater's outputs is held off (R113). -/
def outputHeldOff (c : HeaterCfg) (n : Node) : Bool :=
  isHeldOff (n.chan c.glow) || isHeldOff (n.chan c.fan) || isHeldOff (n.chan c.fuel)

/-! ## Starts and vents -/

/-- Demand in STANDBY (R113): a cold cabin, an invalid cabin reading, or the restart mark. -/
def heatDemand (c : HeaterCfg) (n : Node) : Bool :=
  n.heater.restart ||
    (match cabinReading c n with
     | some t => t ≤ effectiveSetpoint n.heater - 10
     | none => true)

/-- An evaluation of R113 in STANDBY with the mode HEAT or FROST. Of several conditions that are missing the reason
shown is SHED, then SENSOR, then CHANNEL (log entry 45). While a start claim is pending the reason stays (log entry
59). -/
def startCheck (c : HeaterCfg) (n : Node) : Node :=
  if !heatDemand c n || (n.claim slotHeater).state != .idle || !n.isActive then n
  else if 4 ≤ n.view.shed then setReason .shed n
  else if !exhaustValid c n then
    if n.heater.exhaustSeen then setReason .sensor n else n
  else if outputHeldOff c n then setReason .channel n
  else fileClaim slotHeater 3 (units c.start) (some heaterWait) n

/-- An evaluation of R128 in STANDBY with the mode VENT. -/
def ventCheck (c : HeaterCfg) (n : Node) : Node :=
  if n.isActive && n.view.shed < 4 && !isHeldOff (n.chan c.fan) && (n.claim slotHeater).state == .idle then
    fileClaim slotHeater 3 (units c.vent) (some heaterWait) n
  else n

/-- The evaluation of STANDBY by mode (R113, R128); no effect in other states. -/
def standbyCheck (c : HeaterCfg) (n : Node) : Node :=
  if n.heater.state = .standby then
    match n.heater.mode with
    | .heat | .frost => startCheck c n
    | .vent => ventCheck c n
    | .off => n
  else n

/-! ## Cooldown and lockout (R126) -/

/-- Entry to COOLDOWN. -/
def enterCooldown (c : HeaterCfg) (n : Node) : Node :=
  let n := ask c.fan 100 (ask c.glow 0 (fuelOff c n))
  let n := convertClaim slotHeater (units c.cooldown) n
  n.setHeater { clocksOff n.heater with state := .cooldown, level := 0, phaseEnd := n.after cooldownTime }

/-- Entry to LOCKOUT. -/
def enterLockout (n : Node) : Node :=
  let n := heaterTo .lockout n
  setFlag .heaterLockout (n.setHeater { n.heater with lockout := false, restart := false })

/-- The end of the cooldown, with its tests in order. -/
def endCooldown (c : HeaterCfg) (n : Node) : Node :=
  let n := releaseClaim slotHeater (ask c.fan 0 n)
  if n.heater.lockout then enterLockout n
  else match n.heater.mode with
    | .off =>
      let n := heaterTo .off n
      n.setHeater { n.heater with restart := false }
    | .vent =>
      let n := heaterTo .standby n
      standbyCheck c (n.setHeater { n.heater with restart := false })
    | .heat | .frost => standbyCheck c (heaterTo .standby n)

/-- A failed start attempt (R116). -/
def failAttempt (c : HeaterCfg) (r : StopReason) (n : Node) : Node :=
  let k := n.heater.attempts + 1
  let n := n.setHeater { n.heater with attempts := k, reason := r }
  let n := bump .ignitions n
  let n := if k < 2 then n.setHeater { n.heater with restart := true }
           else n.setHeater { n.heater with lockout := true }
  enterCooldown c n

/-- A stop that sets the lockout mark and a reason, and enters COOLDOWN (R124, R125). -/
def lockoutStop (c : HeaterCfg) (r : StopReason) (n : Node) : Node :=
  enterCooldown c (n.setHeater { n.heater with lockout := true, reason := r })

/-! ## The start sequence (R114, R115) -/

def enterPurge (c : HeaterCfg) (n : Node) : Node :=
  let n := ask c.fan c.startDuty n
  n.setHeater { n.heater with state := .purge, restart := false, phaseEnd := n.after purgeTime }

/-- Entry to GLOW; a glow output held latched off fails the attempt (R116). -/
def enterGlow (c : HeaterCfg) (n : Node) : Node :=
  let n := ask c.glow 100 n
  let n := n.setHeater { n.heater with state := .glow, phaseEnd := n.after glowTime }
  if (n.chan c.glow).protection = .latchedOff then failAttempt c .channel n else n

def enterIgnite (c : HeaterCfg) (n : Node) : Node :=
  n.setHeater { setRate (levelRate 2) n.heater n.now with
    state := .ignite, baseline := n.validTemp c.exhaust, phaseEnd := n.after ignitionTime }

/-- The level, its rate and fan duty take effect, and the level hold starts (R117, R118). -/
def takeLevel (c : HeaterCfg) (level : Nat) (n : Node) : Node :=
  let n := ask c.fan (levelDuty c level) n
  n.setHeater { setRate (levelRate level) n.heater n.now with level := level, holdEnd := n.after holdTime }

/-- Entry to RUN at level 1 (R115). A claim whose start amount lies below the amount of level 1 stays as it is, and the
burner then draws more than it holds (R50, log entry 46). -/
def enterRun (c : HeaterCfg) (n : Node) : Node :=
  let n := ask c.glow 0 n
  let n := n.setHeater { clocksOff n.heater with state := .run, attempts := 0 }
  reduceClaim slotHeater (levelUnits c 1) (takeLevel c 1 n)

/-! ## Running (R118 to R123) -/

/-- The level the error calls for (R118). -/
def errorLevel (e : Int) : Nat := if 30 ≤ e then 4 else if 20 ≤ e then 3 else if 10 ≤ e then 2 else 1

/-- The wanted level: by the error, or 2 while the cabin reading is invalid (R118, R122). -/
def wantedLevel (c : HeaterCfg) (n : Node) : Nat :=
  match cabinReading c n with
  | some t => errorLevel (effectiveSetpoint n.heater - t)
  | none => 2

/-- The level hold is running (R118). -/
def holdRunning (n : Node) : Bool :=
  match n.heater.holdEnd with
  | some t => n.now < t
  | none => false

/-- A step down (R119). -/
def stepDown (c : HeaterCfg) (level : Nat) (n : Node) : Node :=
  reduceClaim slotHeater (levelUnits c level) (takeLevel c level n)

/-- A step up (R120): a raise to the target's amount. When the claim already holds that amount, the level changes at
once (log entry 14). -/
def stepUp (c : HeaterCfg) (level : Nat) (n : Node) : Node :=
  if levelUnits c level ≤ (n.claim slotHeater).held then takeLevel c level n
  else
    let n := raiseClaim slotHeater (levelUnits c level) (some heaterRaiseWait) n
    n.setHeater { n.heater with raise := some level, holdEnd := n.after holdTime }

/-- An evaluation of the thermostat in RUN (R118, R120). -/
def thermostat (c : HeaterCfg) (n : Node) : Node :=
  let want := wantedLevel c n
  let level := n.heater.level
  match n.heater.raise with
  | some _ =>
    if level < want then n
    else
      let n := reduceClaim slotHeater (levelUnits c level) n
      let n := n.setHeater { n.heater with raise := none }
      if want < level ∧ !holdRunning n then stepDown c want n else n
  | none =>
    if want = level ∨ holdRunning n then n
    else if want < level then stepDown c want n
    else stepUp c want n

/-- The satisfied clock at a cabin reading (R121). -/
def satisfiedClock (c : HeaterCfg) (n : Node) : Node :=
  match cabinReading c n with
  | some t =>
    if effectiveSetpoint n.heater + 10 ≤ t then
      n.setHeater { n.heater with satisfied := some (n.heater.satisfied.getD n.now) }
    else n.setHeater { n.heater with satisfied := none }
  | none => n.setHeater { n.heater with satisfied := none }

/-- The satisfied clock at a change of the effective setpoint: it can stop, not start (R121). -/
def satisfiedSetpoint (c : HeaterCfg) (n : Node) : Node :=
  if n.heater.satisfied.isSome then satisfiedClock c n else n

/-- The flame-loss clock at an exhaust reading in RUN (R123). -/
def lossClock (c : HeaterCfg) (n : Node) : Node :=
  let lost := match n.validTemp c.exhaust with
    | some t => decide (t < c.flameLost)
    | none => true
  n.setHeater { n.heater with loss := if lost then some (n.heater.loss.getD n.now) else none }

/-- The flame is lost (R123). -/
def flameLost (c : HeaterCfg) (n : Node) : Node :=
  let again := match n.heater.flame with
    | some t => decide (n.now ≤ t + lossWindow)
    | none => false
  let n := if again then setFlag .flameLost n else n
  let n := n.setHeater { n.heater with
    lockout := n.heater.lockout || again, restart := n.heater.restart || !again
    reason := .flameLost, flame := some n.now }
  enterCooldown c n

/-- The flame test of IGNITE (R115). -/
def flameSeen (c : HeaterCfg) (n : Node) : Bool :=
  match n.heater.baseline, n.validTemp c.exhaust with
  | some b, some t => b + flameRise ≤ t
  | _, _ => false

/-! ## Readings -/

/-- The event of an overheat reading (R124). -/
def overheat (c : HeaterCfg) (n : Node) : Node :=
  if n.heater.state = .cooldown then n.setHeater { n.heater with lockout := true, reason := .overheat }
  else lockoutStop c .overheat n

/-- What an exhaust reading means in the heater's state (R113, R115, R123, R126). The reading that enters RUN does not
start the flame-loss clock (log entry 47). -/
def exhaustByState (c : HeaterCfg) (n : Node) : Node :=
  match n.heater.state with
  | .standby => standbyCheck c n
  | .ignite => if flameSeen c n then enterRun c n else n
  | .run => lossClock c n
  | .cooldown =>
    if (n.validTemp c.exhaust).any (· < cooldownEndTemp) then endCooldown c n else n
  | _ => n

/-- An exhaust reading is delivered (R124, R131). -/
def exhaustReading (c : HeaterCfg) (n : Node) : Node :=
  let first := !n.heater.exhaustSeen
  let n := n.setHeater { n.heater with exhaustSeen := true }
  let t := n.validTemp c.exhaust
  if t.any (overheatTemp ≤ ·) then overheat c n
  else if first && t.any (cooldownEndTemp ≤ ·) then enterCooldown c n
  else exhaustByState c n

/-- A cabin reading is delivered (R113, R118, R121). -/
def cabinDelivered (c : HeaterCfg) (n : Node) : Node :=
  match n.heater.state with
  | .standby => standbyCheck c n
  | .run => thermostat c (satisfiedClock c n)
  | _ => n

/-! ## The claim table's messages -/

/-- GRANTED (R114, R120, R128). -/
def heaterGranted (n : Node) : Node :=
  match n.heaterCfg with
  | none => n
  | some c =>
    match n.heater.state with
    | .standby =>
      if n.heater.mode = .vent then
        (ask c.fan c.ventDuty n).setHeater { n.heater with state := .venting }
      else enterPurge c n
    | .run =>
      match n.heater.raise with
      | some level =>
        let n := takeLevel c level n
        n.setHeater { n.heater with raise := none }
      | none => n
    | _ => n

/-- NO_ENERGY (R114, R120, R128). -/
def heaterNoEnergy (n : Node) : Node :=
  match n.heaterCfg with
  | none => n
  | some c =>
    match n.heater.state with
    | .standby => standbyCheck c (setReason .noEnergy n)
    | .run => n.setHeater { n.heater with raise := none }
    | _ => n

/-- SHED (R127). -/
def heaterShed (n : Node) : Node :=
  match n.heaterCfg with
  | none => n
  | some c =>
    match n.heater.state with
    | .standby => setReason .shed n
    | .purge | .glow | .venting => setReason .shed (heaterTo .standby (heaterDark c n))
    | .ignite | .run => enterCooldown c (setReason .shed n)
    | _ => n

/-! ## Notices of the channel bank (R116, R125) -/

/-- A trip or latch of one of the heater's outputs. -/
def heaterTrip (c : HeaterCfg) (ch : Fin 16) (n : Node) : Node :=
  match n.heater.state with
  | .purge => if ch = c.glow then n else
      setReason .channel (releaseClaim slotHeater (heaterTo .standby (heaterDark c n)))
  | .glow => if ch = c.glow then failAttempt c .channel n else
      setReason .channel (releaseClaim slotHeater (heaterTo .standby (heaterDark c n)))
  | .ignite => if ch = c.glow then failAttempt c .channel n else lockoutStop c .channel n
  | .run => if ch = c.glow then n else lockoutStop c .channel n
  | .venting => if ch = c.fan then
      setReason .channel (releaseClaim slotHeater (heaterTo .standby (heaterDark c n))) else n
  | _ => n

/-- A notice of the channel bank about one of the heater's outputs, then the evaluation of STANDBY. -/
def heaterNotice (ch : Fin 16) (k : Notice) (n : Node) : Node :=
  match n.heaterCfg with
  | none => n
  | some c =>
    if ch = c.glow ∨ ch = c.fan ∨ ch = c.fuel then
      standbyCheck c (if k = .tripped ∨ k = .latched then heaterTrip c ch n else n)
    else n

/-! ## HEATER_MODE (R112) -/

/-- A stop without a cooldown: outputs off, claim released. -/
def stopCold (c : HeaterCfg) (s : HeaterState) (n : Node) : Node :=
  releaseClaim slotHeater (heaterTo s (heaterDark c n))

/-- The effect of a new mode on the heater state; the mode and setpoint are already stored, `old` is the record
before. In RUN the thermostat evaluates when the effective setpoint changed (R111, R118). -/
def modeChange (c : HeaterCfg) (old : Heater) (n : Node) : Node :=
  let mode := n.heater.mode
  match n.heater.state with
  | .off => if mode = .off then n else standbyCheck c (heaterTo .standby n)
  | .standby =>
    if mode = .off then heaterTo .off (releaseClaim slotHeater n)
    else
      let changes := (mode == .vent) != (old.mode == .vent)
      standbyCheck c (if changes then releaseClaim slotHeater n else n)
  | .purge | .glow =>
    if mode = .off then stopCold c .off n
    else if mode = .vent then standbyCheck c (stopCold c .standby n)
    else n
  | .ignite => if mode = .off ∨ mode = .vent then enterCooldown c n else n
  | .run =>
    if mode = .off ∨ mode = .vent then enterCooldown c n
    else if effectiveSetpoint n.heater = effectiveSetpoint old then n
    else thermostat c (satisfiedSetpoint c n)
  | .venting =>
    if mode = .off then stopCold c .off n
    else if mode = .vent then n
    else standbyCheck c (stopCold c .standby n)
  | .cooldown | .lockout => n

/-- HEATER_MODE taken outside LOCKOUT (R111, R112). -/
def takeMode (c : HeaterCfg) (mode : HeaterMode) (setpoint : Int) (n : Node) : Node :=
  let old := n.heater
  let h := { n.heater with
    mode := mode
    setpoint := if mode = .heat then clampSetpoint setpoint else n.heater.setpoint
    attempts := if mode = .off then 0 else n.heater.attempts }
  modeChange c old (n.setHeater h)

/-- The HEATER_RESET that takes effect (R126). -/
def resetHeater (n : Node) : Node :=
  let h := { n.heater with mode := .off, attempts := 0, flame := none, lockout := false }
  if n.heater.state = .lockout then n.setHeater { h with state := .off } else n.setHeater h

/-- An evaluation at a node that holds the HEATER duty (R113). -/
def heaterCheck (n : Node) : Node :=
  match n.heaterCfg with
  | none => n
  | some c => standbyCheck c n

end Sys2Proof.Machine
end

