-- ==== Sys2Proof/Machine/MotionCtl.lean ====
section
/-! DEFINITION. The motion controller and the wind record (chapter 7). -/

namespace Sys2Proof.Machine

/-! ## Units -/

def Node.unitCfg (n : Node) (u : MotionUnit) : Option UnitCfg :=
  match u with
  | .awning => n.cfg.bind (·.awning)
  | .step => n.cfg.bind (·.step)

def Node.unit (n : Node) : MotionUnit → MoveUnit
  | .awning => n.motion.awning
  | .step => n.motion.step

def Node.setUnit (n : Node) (u : MotionUnit) (m : MoveUnit) : Node :=
  match u with
  | .awning => n.setMotion { n.motion with awning := m }
  | .step => n.setMotion { n.motion with step := m }

def Node.setList (n : Node) (l : List Entry) : Node := n.setMotion { n.motion with list := l }

/-- The unit is driven (section 7.2). -/
def isDriving (m : MoveUnit) : Bool := m.state == .extending || m.state == .retracting

/-- The unit is in a move: driven, or waiting for the coast dwell. -/
def isMoving (m : MoveUnit) : Bool := isDriving m || m.state == .reversing

/-- The timeout of a unit: travel time × 3 ÷ 2 (section 7.1). -/
def unitTimeout (c : UnitCfg) : Nat := c.travel * 3 / 2

/-- The claim amount of a unit in 100 mA units. -/
def unitUnits (c : UnitCfg) : Nat := units c.claim

/-- The accepted state of the extended stop is active. -/
def extStop (c : UnitCfg) (n : Node) : Bool := n.inputActive c.ext
def retStop (c : UnitCfg) (n : Node) : Bool := n.inputActive c.ret

/-- The accepted states of both end stops have been delivered (R133). -/
def stopsKnown (c : UnitCfg) (n : Node) : Bool := (n.chan c.ext).accepted.isSome && (n.chan c.ret).accepted.isSome

/-- The position estimate at a moment (R134). -/
def estimate (c : UnitCfg) (m : MoveUnit) (now : Nat) : Option Nat :=
  if isDriving m then
    m.segPos.map fun p =>
      let d := (now - m.segStart) * 1000 / c.travel
      if m.dir = .extend then min 1000 (p + d) else p - d
  else m.pos

/-- The position brought up to date (R134). -/
def upToDate (c : UnitCfg) (u : MotionUnit) (n : Node) : Node :=
  n.setUnit u { n.unit u with pos := estimate c (n.unit u) n.now }

/-- A unit's record at rest in a state, with its clocks stopped. -/
def atRest (s : UnitState) (cause : FaultCause) (pos : Option Nat) (m : MoveUnit) : MoveUnit :=
  { m with state := s, cause := cause, pos := pos, run := none, jam := none, dwellEnd := none }

/-- A unit at rest takes its state from its end stops (R133). With neither active, a unit from RETRACTED or EXTENDED
is PARTIAL with its position unknown, and one from UNKNOWN or PARTIAL stays as it is. -/
def restFromStops (c : UnitCfg) (n : Node) (m : MoveUnit) : MoveUnit :=
  match extStop c n, retStop c n with
  | true, true => atRest .fault .endStopConflict m.pos m
  | false, true => atRest .retracted .none (some 0) m
  | true, false => atRest .extended .none (some 1000) m
  | false, false =>
    if m.state = .retracted ∨ m.state = .extended then atRest .partway .none none m else m

/-- A unit that comes to rest by a STOP or at a target (R142, R143): at the stop of an end when one is active, else
PARTIAL at its position, or UNKNOWN. -/
def restByStop (c : UnitCfg) (n : Node) (m : MoveUnit) : MoveUnit :=
  match extStop c n, retStop c n with
  | true, true => atRest .fault .endStopConflict m.pos m
  | false, true => atRest .retracted .none (some 0) m
  | true, false => atRest .extended .none (some 1000) m
  | false, false => if m.pos.isSome then atRest .partway .none m.pos m else atRest .unknown .none none m

/-- A unit that comes to rest by a shed (R145): PARTIAL at its position, or at unknown. -/
def restByShed (c : UnitCfg) (n : Node) (m : MoveUnit) : MoveUnit :=
  if extStop c n ∧ retStop c n then atRest .fault .endStopConflict m.pos m else atRest .partway .none m.pos m

/-! ## The request list -/

def isCommand (e : Entry) : Bool :=
  match e.origin with
  | .command _ _ => true
  | _ => false

def isExtend (a : Action) : Bool :=
  match a with
  | .retract => false
  | _ => true

/-- The first entry of a unit in an entry state, of command or safety origin. -/
def findEntry (u : MotionUnit) (s : EntryState) (command : Bool) (n : Node) : Option Entry :=
  n.motion.list.find? fun e => e.unit == u && e.state == s && isCommand e == command

/-- The unit has an entry that is not QUEUED. -/
def isBusy (u : MotionUnit) (n : Node) : Bool := n.motion.list.any fun e => e.unit == u && e.state != .queued

/-- Remove the first entry equal to one. -/
def removeEntry (e : Entry) : List Entry → List Entry
  | [] => []
  | x :: rest => if x = e then rest else x :: removeEntry e rest

/-- Replace the first entry equal to one, in place. -/
def replaceEntry (e new : Entry) : List Entry → List Entry
  | [] => []
  | x :: rest => if x = e then new :: rest else x :: replaceEntry e new rest

/-- A new safety entry stands after the last safety entry, ahead of every command entry (R135); so does one that takes
over a command entry, of which R139 says that it stands at the front of the list (log entry 52). -/
def insertSafety (e : Entry) : List Entry → List Entry
  | [] => [e]
  | x :: rest => if isCommand x then e :: x :: rest else x :: insertSafety e rest

/-- The ending of an entry is reported: a command entry leaves its tag and outcome with its unit (R146). -/
def report (e : Entry) (o : MoveOutcome) (n : Node) : Node :=
  match e.origin with
  | .command _ tag => n.setUnit e.unit { n.unit e.unit with tag := tag, outcome := o }
  | _ => n

/-- An entry ends with an outcome and leaves the list (R146). -/
def endEntry (e : Entry) (o : MoveOutcome) (n : Node) : Node :=
  report e o (n.setList (removeEntry e n.motion.list))

/-- Every entry of a unit ends with an outcome, those that are not ACTIVE first (R144). -/
def endAll (u : MotionUnit) (o : MoveOutcome) (n : Node) : Node :=
  let mine := n.motion.list.filter fun e => e.unit == u
  let order := (mine.filter fun e => e.state != .active) ++ (mine.filter fun e => e.state == .active)
  order.foldl (fun n e => endEntry e o n) n

/-- The drive direction an action decides from a position (R140, R142); an unknown position extends (log entry
15). -/
def actionDir (a : Action) (pos : Option Nat) : Dir :=
  match a with
  | .extend => .extend
  | .retract => .retract
  | .extendTo t => if t < pos.getD 0 then .retract else .extend

/-- The action's end is where the unit stands already (R140). -/
def standsThere (c : UnitCfg) (a : Action) (u : MotionUnit) (n : Node) : Bool :=
  match a with
  | .extend => extStop c n
  | .retract => retStop c n
  | .extendTo t => (n.unit u).pos == some t

/-! ## Moves -/

/-- The bridge drives: the segment and the run clock start (R141). -/
def beginDrive (u : MotionUnit) (d : Dir) (n : Node) : Node :=
  let n := bridgeDrive u d n
  let m := n.unit u
  n.setUnit u { m with
    state := if d = .extend then .extending else .retracting
    cause := .none, dir := d, segStart := n.now, segPos := m.pos, run := some n.now, jam := none, dwellEnd := none }

/-- The unit waits for the coast dwell before it drives (R141, R142). -/
def beginDwell (u : MotionUnit) (d : Dir) (n : Node) : Node :=
  let n := bridgeCoast u n
  let since := (n.bridge u).coastSince.getD n.now
  n.setUnit u { n.unit u with
    state := .reversing, cause := .none, dir := d, run := none, jam := none, dwellEnd := some (since + coastDwell) }

/-- A unit begins to move (R141). -/
def startMove (u : MotionUnit) (d : Dir) (n : Node) : Node :=
  let n := bridgeClear u n
  let b := n.bridge u
  if dwellComplete n.now b d then beginDrive u d n else beginDwell u d n

/-- A unit's QUEUED head entry ends at once, or has its drive direction decided and files its claim, when its unit is
idle (R140); a safety entry's class-4 claim is granted at once, and it moves. A command entry files in ACTIVE alone
(R29). -/
def fileHead (c : UnitCfg) (u : MotionUnit) (n : Node) : Node :=
  match n.motion.list.find? fun e => e.unit == u with
  | none => n
  | some e =>
    if e.state ≠ .queued ∨ isBusy u n ∨ (n.unit u).state = .fault ∨ (isCommand e ∧ !n.isActive) then n
    else if standsThere c e.action u n then endEntry e .done n
    else if isCommand e then
      let d := actionDir e.action (n.unit u).pos
      let n := (fileClaim (slotUnit u) 2 (unitUnits c) (some motionWait) n).setList
        (replaceEntry e { e with state := .waitingEnergy } n.motion.list)
      n.setUnit u { n.unit u with dir := d }
    else
      let n := fileClaim (slotUnit u) 4 (unitUnits c) none n
      let n := n.setList (replaceEntry e { e with state := .active } n.motion.list)
      startMove u (actionDir e.action (n.unit u).pos) n

/-- The entries of a unit file in turn as those before them end; at most four stand in the list. -/
def fileNext (c : UnitCfg) (u : MotionUnit) (n : Node) : Node :=
  fileHead c u (fileHead c u (fileHead c u (fileHead c u n)))

/-- A unit whose fault ends everything of it: the flags by cause and outcome, the claim released (R144). -/
def faultUnit (c : UnitCfg) (u : MotionUnit) (cause : FaultCause) (o : MoveOutcome) (n : Node) : Node :=
  let safety := (findEntry u .active false n).isSome
  let n := upToDate c u (bridgeCoast u n)
  let n := n.setUnit u (atRest .fault cause (n.unit u).pos (n.unit u))
  let n := releaseClaim (slotUnit u) n
  let n := endAll u o n
  let n := if cause = .jam then bump .jams (setFlag .motionJam n) else n
  let n := if cause = .timeout then setFlag .motionTimeout n else n
  if safety ∧ u = .step then setFlag .stepNotStowed n else n

/-- The end of a move at an end stop or target (R143): the unit rests, the claim is released, the entry ends DONE, and
the next entry files. -/
def finishMove (c : UnitCfg) (u : MotionUnit) (rest : MoveUnit → MoveUnit) (n : Node) : Node :=
  let n := n.setUnit u (rest (n.unit u))
  let n := releaseClaim (slotUnit u) n
  let n := match n.motion.list.find? fun e => e.unit == u && e.state == .active with
    | some e => endEntry e .done n
    | none => n
  fileNext c u n

/-- A takeover of an ACTIVE entry's drive (R142), the list already holding the new entry. -/
def redirect (c : UnitCfg) (u : MotionUnit) (a : Action) (n : Node) : Node :=
  let n := upToDate c u n
  let m := n.unit u
  let still := match a with
    | .extendTo t => m.pos == some t
    | _ => false
  if still then finishMove c u (restByStop c n) (bridgeBrake u n)
  else
    let d := actionDir a m.pos
    if d = m.dir then n
    else if isDriving m then beginDwell u d n
    else if (n.bridge u).last = some d then beginDrive u d n
    else n.setUnit u { m with dir := d }

/-- A request's place in the list and what follows at once (R137). -/
def placeRequest (c : UnitCfg) (u : MotionUnit) (a : Action) (o : Origin) (n : Node) : Node :=
  let new : Entry := ⟨u, a, o, .queued⟩
  match findEntry u .waitingEnergy true n with
  | some e =>
    let n := report e .replaced n
    let n := releaseClaim (slotUnit u) n
    fileNext c u (n.setList (replaceEntry e new n.motion.list))
  | none =>
    match findEntry u .queued true n with
    | some e => fileNext c u ((report e .replaced n).setList (replaceEntry e new n.motion.list))
    | none =>
      match findEntry u .active true n with
      | some e =>
        redirect c u a ((report e .replaced n).setList (replaceEntry e { new with state := .active } n.motion.list))
      | none => fileNext c u (n.setList (n.motion.list ++ [new]))

/-- A safety request (R139). -/
def safetyRequest (u : MotionUnit) (o : Origin) (n : Node) : Node :=
  match n.unitCfg u with
  | none => n
  | some c =>
    let new : Entry := ⟨u, .retract, o, .active⟩
    if (n.unit u).state = .fault then (if u = .step then setFlag .stepNotStowed n else n)
    else if (n.motion.list.any fun e => e.unit == u && !isCommand e) then n
    else
      match findEntry u .active true n with
      | some e =>
        let n := report e .replaced n
        let n := n.setList (insertSafety new (removeEntry e n.motion.list))
        redirect c u .retract (convertClaim (slotUnit u) (unitUnits c) n)
      | none =>
        match findEntry u .waitingEnergy true n with
        | some e =>
          let n := report e .replaced n
          let n := n.setList (insertSafety new (removeEntry e n.motion.list))
          startMove u .retract (convertClaim (slotUnit u) (unitUnits c) n)
        | none => fileNext c u (n.setList (insertSafety { new with state := .queued } n.motion.list))

/-- Away from RETRACTED a unit gets a safety RETRACT while the travel view is true, and an awning also while the
wind-lockout view is true (R133, R138, R153). While both are true the awning's entry carries TRAVEL (log entry 60). -/
def safetyCheck (u : MotionUnit) (n : Node) : Node :=
  if (n.unit u).state = .retracted then n
  else if n.view.travel then safetyRequest u .travel n
  else if u = .awning ∧ n.view.wind then safetyRequest u .wind n
  else n

/-- STOP on a unit (R138): whether it is refused, and what it does. -/
def stopUnit (c : UnitCfg) (u : MotionUnit) (n : Node) : Option Node :=
  match findEntry u .active true n with
  | some e =>
    let n := upToDate c u (bridgeBrake u n)
    let n := n.setUnit u (restByStop c n (n.unit u))
    let mine := n.motion.list.filter fun x => x.unit == u && x.state != .active
    let n := mine.foldl (fun n x => endEntry x .stopped n) n
    some (releaseClaim (slotUnit u) (endEntry e .stopped n))
  | none =>
    match findEntry u .waitingEnergy true n with
    | some e => some (fileNext c u (releaseClaim (slotUnit u) (endEntry e .stopped n)))
    | none =>
      if (findEntry u .active false n).isSome then none
      else if (n.unit u).state = .fault then
        let n := n.setUnit u (restByStop c n (n.unit u))
        some (if (n.unit u).state = .fault then n else safetyCheck u n)
      else some n

/-! ## The claim table's messages -/

/-- GRANTED (R141): the unit begins to move in the direction decided at the filing. -/
def unitGranted (u : MotionUnit) (n : Node) : Node :=
  match n.unitCfg u, findEntry u .waitingEnergy true n with
  | some c, some e =>
    if unitUnits c ≤ (n.claim (slotUnit u)).held then
      let n := n.setList (replaceEntry e { e with state := .active } n.motion.list)
      startMove u (n.unit u).dir n
    else n
  | _, _ => n

/-- NO_ENERGY (R140). -/
def unitNoEnergy (u : MotionUnit) (n : Node) : Node :=
  match n.unitCfg u, findEntry u .waitingEnergy true n with
  | some c, some e => fileNext c u (endEntry e .noEnergy n)
  | _, _ => n

/-- SHED (R140, R145). -/
def unitShed (u : MotionUnit) (n : Node) : Node :=
  match n.unitCfg u with
  | none => n
  | some c =>
    match findEntry u .active true n with
    | some e =>
      let n := upToDate c u (bridgeCoast u n)
      let n := n.setUnit u (restByShed c n (n.unit u))
      fileNext c u (endEntry e .shed n)
    | none =>
      match findEntry u .waitingEnergy true n with
      | some e => fileNext c u (endEntry e .shed n)
      | none => n

/-! ## End stops -/

/-- A change of an end stop outside a move (R133). A unit that faults has its bridge left as it stands, a BRAKE held
as R143 gives (log entry 23). -/
def stopAtRest (c : UnitCfg) (u : MotionUnit) (n : Node) : Node :=
  if (n.unit u).state = .fault ∨ !stopsKnown c n then n
  else
    let was := (n.unit u).state
    let n := n.setUnit u (restFromStops c n (n.unit u))
    let n := if (n.unit u).state = .fault then endAll u .conflict (releaseClaim (slotUnit u) n) else n
    if was = .retracted then safetyCheck u n else n

/-- A change of an end stop during a move (R143, R144). -/
def stopInMove (c : UnitCfg) (u : MotionUnit) (n : Node) : Node :=
  let m := n.unit u
  let ext := extStop c n
  let ret := retStop c n
  if ext ∧ ret then faultUnit c u .endStopConflict .conflict n
  else if (m.dir = .extend ∧ ext) then
    finishMove c u (atRest .extended .none (some 1000)) (bridgeCoast u n)
  else if (m.dir = .retract ∧ ret) then
    finishMove c u (atRest .retracted .none (some 0)) (bridgeCoast u n)
  else if m.state = .reversing then
    if ext then n.setUnit u { m with pos := some 1000 }
    else if ret then n.setUnit u { m with pos := some 0 }
    else n
  else n

/-- An accepted state of an end stop of a unit; `first`: the first one of that stop. When both stops are thereby
delivered for the first time, a unit that they do not give as RETRACTED may get a safety RETRACT (R153); a unit in a move
counts by its own state, whatever its stops show (log entry 53). -/
def endStopChange (u : MotionUnit) (first : Bool) (n : Node) : Node :=
  match n.unitCfg u with
  | none => n
  | some c =>
    let n := if isMoving (n.unit u) then stopInMove c u n else stopAtRest c u n
    if first ∧ stopsKnown c n then safetyCheck u n else n

/-! ## Interlocks (R147, R148) -/

/-- A QUEUED or WAITING_ENERGY extend of a unit ends INTERLOCK, its claim released. -/
def interlockEntries (c : UnitCfg) (u : MotionUnit) (n : Node) : Node :=
  let mine := n.motion.list.filter fun e => e.unit == u && e.state != .active && isCommand e && isExtend e.action
  let n := mine.foldl (fun n e =>
    let n := if e.state = .waitingEnergy then releaseClaim (slotUnit u) n else n
    endEntry e .interlock n) n
  fileNext c u n

/-- A view turned true for a unit: its waiting extends end, and away from RETRACTED it retracts. -/
def interlockUnit (o : Origin) (u : MotionUnit) (n : Node) : Node :=
  match n.unitCfg u with
  | none => n
  | some c =>
    let n := interlockEntries c u n
    if (n.unit u).state = .retracted ∨ !stopsKnown c n then n else safetyRequest u o n

/-- The travel view has turned true: for each unit (R147), the awning first (log entry 42). -/
def motionTravel (n : Node) : Node := interlockUnit .travel .step (interlockUnit .travel .awning n)
/-- The wind-lockout view has turned true (R148). -/
def motionWind (n : Node) : Node := interlockUnit .wind .awning n

/-! ## Wind (R149, R150) -/

def Node.windCfg (n : Node) : Option WindCfg := n.cfg.bind (·.wind)

/-- The wind speed in 0.1 m/s from the counts kept (R149). -/
def windSpeed (factor : Nat) (counts : List Nat) : Nat := min (counts.sum * factor / 20) counterTop

/-- A quarter-second count enters the record, which keeps the last 8 (R149). -/
def keepCount (k : Nat) (counts : List Nat) : List Nat :=
  (if 8 ≤ counts.length then counts.drop 1 else counts) ++ [k]

/-- The node's own wind-lockout flag (R33). -/
def Node.ownWind (n : Node) : Bool := n.has .wind && n.wind.lockoutEnd.isSome

/-- The node's own travel flag (R33). -/
def Node.ownTravel (n : Node) : Bool :=
  n.has .travel &&
    (match n.cfg.bind (·.travel) with
     | some ch => n.inputActive ch
     | none => false)

end Sys2Proof.Machine
end

