-- ==== Sys2Proof/Machine/LightCtl.lean ====
section
/-! DEFINITION. The light controller (chapter 8). -/

namespace Sys2Proof.Machine

def Node.lightsCfg (n : Node) : Option LightsCfg := n.cfg.bind (·.lights)

def Node.setLamps (n : Node) (l : List Light) : Node := n.setLights { n.lights with channels := l }

/-- The light channels with their settings, in light channel number order. -/
def Node.lamps (n : Node) : List (LightCfg × Light) :=
  match n.lightsCfg with
  | some c => c.channels.zip n.lights.channels
  | none => []

/-- The class of a channel, 0 (amenity) or 1 (main). -/
def lightClass (c : LightCfg) : Nat := if c.main then 1 else 0

/-- Slot 0 carries the amenity channels, slot 1 the main channels (R154). -/
def lightSlot (main : Bool) : Fin 8 := if main then 1 else 0

/-- The class of a channel is shed (R165). -/
def lightShed (c : LightCfg) (n : Node) : Bool := forbids n.view.shed (lightClass c)

/-- Courtesy is active (R163). -/
def courtesyActive (l : Lights) : Bool := l.courtesy != .off

/-- The level aimed at after courtesy (R155, steps 1 and 2). -/
def courtesyLevelOf (set : LightsCfg) (n : Node) (c : LightCfg) (l : Light) : Nat :=
  if c.courtesy && courtesyActive n.lights then max l.target set.courtesyLevel else l.target

/-- The aim and the flags CAPPED and SHED (R155); a shed channel's level is 0 at once (R165). -/
def takeAim (set : LightsCfg) (n : Node) (c : LightCfg) (l : Light) : Light :=
  let v := courtesyLevelOf set n c l
  let capped := c.main && n.view.band == some 1 && decide (set.cap < v)
  let shed := lightShed c n
  { l with
    aim := if shed || l.heldOff then 0 else if capped then set.cap else v
    capped := capped
    shed := shed
    level := if shed then 0 else l.level }

/-- The draw of a class at the larger of level and aim, in 100 mA units (R156). -/
def lightWant (main : Bool) (rows : List (LightCfg × Light)) : Nat :=
  ((rows.map fun x => if x.1.main = main then max x.2.level x.2.aim * x.1.current else 0).sum + 9999) / 10000

/-- The claim of a class is brought to its wanted amount (R156). -/
def lightClaim (main : Bool) (w : Nat) (n : Node) : Node :=
  let i := lightSlot main
  let cls := if main then 1 else 0
  if (n.claim i).state = .idle then (if 0 < w ∧ n.isActive then fileClaim i cls w none n else n)
  else if w = 0 then releaseClaim i n
  else if (n.claim i).wanted < w then raiseClaim i w none n
  else reduceClaim i w n

/-- The charge of the steady and falling channels of a class (R157, step 1). -/
def lightCharge (main : Bool) (rows : List (LightCfg × Light)) : Nat :=
  (rows.map fun x => if x.1.main = main ∧ x.2.aim ≤ x.2.level then x.2.level * x.1.current else 0).sum

/-- The present draw of the rising channels of a class. -/
def risingCharge (main : Bool) (rows : List (LightCfg × Light)) : Nat :=
  (rows.map fun x => if x.1.main = main ∧ x.2.level < x.2.aim then x.2.level * x.1.current else 0).sum

/-- A new goal, with the fade it begins (R159). -/
def takeGoal (now limit goal : Nat) (l : Light) : Light :=
  let l := { l with limit := limit, degraded := decide (goal < l.aim) || l.heldOff }
  if goal = l.goal then l
  else if goal = l.level then { l with goal := goal }
  else { l with goal := goal, fadeStart := now, fadeSteps := 0 }

/-- The limits and goals of a class, with the charge so far (R157). What the later rising channels already draw is
kept for them, so that the class stays within its held amount (R50, log entry 57). -/
def shareOut (main : Bool) (now budget : Nat) : Nat → List (LightCfg × Light) → List Light
  | _, [] => []
  | charge, (c, l) :: rest =>
    if c.main ≠ main then l :: shareOut main now budget charge rest
    else if l.aim ≤ l.level then takeGoal now l.level l.aim l :: shareOut main now budget charge rest
    else
      let limit := max l.level (min l.aim ((budget - charge - risingCharge main rest) / c.current))
      takeGoal now limit limit l :: shareOut main now budget (charge + limit * c.current) rest

/-- The share of a class's held amount (R157). -/
def lightShare (main : Bool) (n : Node) : Node :=
  n.setLamps (shareOut main n.now ((n.claim (lightSlot main)).held * 10000) (lightCharge main n.lamps) n.lamps)

/-- Switch off every output whose channel was at a level that a shed took (R165). -/
def darken (rows : List (LightCfg × Light)) (n : Node) : Node :=
  rows.foldl (fun n x => if lightShed x.1 n ∧ 0 < x.2.level then ask x.1.output 0 n else n) n

/-- The aims, the claims and the shares derived afresh (R155 to R157). -/
def lightsUpdate (n : Node) : Node :=
  match n.lightsCfg with
  | none => n
  | some set =>
    let n := darken n.lamps n
    let n := n.setLamps (n.lamps.map fun x => takeAim set n x.1 x.2)
    let n := lightClaim true (lightWant true n.lamps) n
    let n := lightClaim false (lightWant false n.lamps) n
    lightShare false (lightShare true n)

/-! ## Targets -/

/-- A target set by a command, a press or the end of a ramp; above 0 it is the last non-zero level (R160, R161,
R162). -/
def setTarget (t : Nat) (l : Light) : Light := { l with target := t, last := if 0 < t then some t else l.last }

/-- A command ends a ramp under way (R160, R162). -/
def commandTarget (t : Nat) (l : Light) : Light :=
  let l := setTarget t l
  if l.press = .ramping then { l with press := .spent, rampUp := !l.rampUp } else l

/-- A long press begins its ramp (R162). -/
def beginRamp (l : Light) : Light :=
  { l with press := .ramping, prePress := l.target, target := if l.rampUp then 100 else 0 }

/-- The end of a ramp (R162). `shed`: the channel's class is shed. -/
def endRamp (shed : Bool) (l : Light) : Light :=
  let l := setTarget (if shed then l.prePress else l.level) l
  { l with press := .none, rampUp := !l.rampUp }

/-- The end of a short press (R161). -/
def toggle (l : Light) : Light :=
  let l := if 0 < l.target then setTarget 0 l else setTarget (l.last.getD 100) l
  { l with press := .none }

/-- The end of a press (R161, R162). -/
def endPress (now : Nat) (shed : Bool) (l : Light) : Light :=
  match l.press with
  | .none => l
  | .down since => if now - since < pressLimit then toggle l else endRamp shed (beginRamp l)
  | .ramping => endRamp shed l
  | .spent => { l with press := .none }

/-- Change the channels by their settings and number. -/
def Node.mapLamps (n : Node) (f : Nat → LightCfg → Light → Light) : Node :=
  n.setLamps (n.lamps.zipIdx.map fun x => f x.2 x.1.1 x.1.2)

/-- An accepted state of a channel's wall switch (R161, R162); a first accepted state that is active begins a press
(log entry 48). -/
def switchChange (ch : Fin 16) (n : Node) : Node :=
  let active := n.inputActive ch
  n.mapLamps fun _ c l =>
    if c.switch = some ch then
      (if active then { l with press := .down n.now } else endPress n.now (lightShed c n) l)
    else l

/-! ## Courtesy (R163) -/

/-- A step unit in the view is EXTENDING or EXTENDED: kind 1, state 4 or 2. -/
def stepOut (n : Node) : Bool :=
  (n.has .step && (n.motion.step.state == .extending || n.motion.step.state == .extended))
    || n.view.peers.any fun p => (p.motion.getD []).any fun u => u.kind == 1 && (u.state == 4 || u.state == 2)

/-- The courtesy trigger. -/
def courtesyTrigger (set : LightsCfg) (n : Node) : Bool :=
  stepOut n ||
    (match set.door with
     | some ch => n.inputActive ch
     | none => false)

/-- An evaluation of the courtesy trigger. -/
def courtesyCheck (n : Node) : Node :=
  match n.lightsCfg with
  | none => n
  | some set =>
    match n.lights.courtesy, courtesyTrigger set n with
    | .off, true | .hold _, true => n.setLights { n.lights with courtesy := .on }
    | .on, false => n.setLights { n.lights with courtesy := .hold (n.now + courtesyHold) }
    | _, _ => n

/-! ## Channel trips (R166) -/

/-- A notice of the channel bank about a light output. -/
def lightNotice (ch : Fin 16) (k : Notice) (n : Node) : Node :=
  let off := k == .tripped || k == .latched
  let mine := n.lamps.any fun x => x.1.output == ch
  let n := if mine && off then ask ch 0 n else n
  n.mapLamps fun _ c l =>
    if c.output = ch then (if off then { l with level := 0, heldOff := true } else { l with heldOff := false })
    else l

/-! ## Fades (R159) -/

/-- The moment of the next step of a fade under way. -/
def nextStep (c : LightCfg) (l : Light) : Option Nat :=
  if l.level = l.goal then none else some (l.fadeStart + (l.fadeSteps + 1) * 1000 / c.fade)

/-- One step of a fade. -/
def fadeOne (l : Light) : Light :=
  { l with level := if l.level < l.goal then l.level + 1 else l.level - 1, fadeSteps := l.fadeSteps + 1 }

/-- What a LIGHTS frame shows besides the levels, and the targets: a change of these queues a frame (R168). -/
def lightMarks (n : Node) : List (Nat × Bool × Bool × Bool) :=
  n.lights.channels.map fun l => (l.target, l.capped, l.shed, l.degraded)

end Sys2Proof.Machine
end

