-- ==== Sys2Proof/Machine/AuxCtl.lean ====
section
/-! DEFINITION. The AUX outputs (section 9.4). -/

namespace Sys2Proof.Machine

/-- The sixteen general channels in order. -/
def channels : List (Fin 16) := List.finRange 16

def Node.auxState (n : Node) (i : Fin 16) : AuxState := n.bank.aux[i]

def Node.setAux (n : Node) (i : Fin 16) (a : AuxState) : Node := n.setBank { n.bank with aux := n.bank.aux.set i a }

/-- The channel is an OUT channel bound to AUX. -/
def isAuxOut (n : Node) (i : Fin 16) : Bool := n.has .aux && n.role i == .out && n.owner i == some .aux

/-- The draws in mA of the AUX outputs in certain states (R177). -/
def auxDraw (counts : AuxState → Bool) (n : Node) : Nat :=
  (channels.map fun i => if isAuxOut n i && counts (n.auxState i) then (n.chanCfg i).draw else 0).sum

/-- The wanted amount of slot 7 (R177). -/
def auxWant (n : Node) : Nat := units (auxDraw (· != .off) n)

/-- The claim of slot 7 is brought to the wanted amount (R177). -/
def auxClaim (n : Node) : Node :=
  let w := auxWant n
  if (n.claim slotAux).state = .idle then (if 0 < w then fileClaim slotAux 1 w (some auxWait) n else n)
  else if w = 0 then releaseClaim slotAux n
  else if (n.claim slotAux).wanted < w then raiseClaim slotAux w (some auxWait) n
  else reduceClaim slotAux w n

/-- An AUX output becomes off, switched off before the claim is lowered (R177). -/
def auxOff (i : Fin 16) (n : Node) : Node :=
  auxClaim ((if n.auxState i = .on then ask i 0 n else n).setAux i .off)

/-- An AUX output becomes pending (R178). -/
def auxOn (i : Fin 16) (n : Node) : Node := auxClaim (n.setAux i .pending)

/-- A pending output is switched on when it fits what is held (R177). -/
def auxFit (n : Node) (i : Fin 16) : Node :=
  if n.auxState i = .pending ∧ auxDraw (· == .on) n + (n.chanCfg i).draw ≤ (n.claim slotAux).held * 100 then
    (ask i 100 n).setAux i .on
  else n

/-- GRANTED (R177). -/
def auxGranted (n : Node) : Node := channels.foldl auxFit n

/-- NO_ENERGY (R177). -/
def auxNoEnergy (n : Node) : Node :=
  auxClaim (channels.foldl (fun n i => if n.auxState i = .pending then n.setAux i .off else n) n)

/-- SHED, and entry to SILENT (R177). -/
def auxShed (n : Node) : Node :=
  channels.foldl (fun n i => (if n.auxState i = .on then ask i 0 n else n).setAux i .off) n

/-- A notice of the channel bank about an AUX output (R177). -/
def auxNotice (i : Fin 16) (k : Notice) (n : Node) : Node :=
  if (k = .tripped ∨ k = .latched) ∧ n.auxState i ≠ .off then auxOff i n else n

end Sys2Proof.Machine
end

