-- ==== Sys2Proof/Machine/View.lean ====
section
/-! DEFINITION. The station view (chapter 2): sheds, acceptance, the peer table, the derived views, and the steps
of a dispatch. -/

namespace Sys2Proof.Machine

/-! ## Messages of the claim table to the jobs -/

/-- A slot's job is told SHED. The light controller learns it from its slots and the shed level (R165). -/
def tellShed (i : Fin 8) (n : Node) : Node :=
  if i = slotPump then pumpShed n
  else if i = slotHeater then heaterShed n
  else if i = slotUnit .awning then unitShed .awning n
  else if i = slotUnit .step then unitShed .step n
  else if i = slotAux then auxShed n
  else n

/-- A slot's job is told GRANTED. The light controller shares the held amount at the end of the event (R158). -/
def tellGranted (i : Fin 8) (n : Node) : Node :=
  if i = slotPump then pumpGranted n
  else if i = slotHeater then heaterGranted n
  else if i = slotUnit .awning then unitGranted .awning n
  else if i = slotUnit .step then unitGranted .step n
  else if i = slotAux then auxGranted n
  else n

/-- A slot's job is told NO_ENERGY; a light claim never is (R156). -/
def tellNoEnergy (i : Fin 8) (n : Node) : Node :=
  if i = slotPump then pumpNoEnergy n
  else if i = slotHeater then heaterNoEnergy n
  else if i = slotUnit .awning then unitNoEnergy .awning n
  else if i = slotUnit .step then unitNoEnergy .step n
  else if i = slotAux then auxNoEnergy n
  else n

/-- Claims are ended and their jobs told SHED, in slot order (R31, R70). -/
def shedClaims (ended : List (Fin 8)) (n : Node) : Node :=
  ended.foldl (fun n i => tellShed i n) (endClaims ended n)

/-! ## The effective shed level (R43) -/

/-- The effective shed level. -/
def effectiveShed (n : Node) : Nat :=
  if n.state = some .silent ∨ n.state = some .listenOnly then 4
  else if n.view.orphaned then max n.view.sourceShed 2
  else n.view.sourceShed

/-- The effective shed level derived afresh; a rise ends the claims it forbids (R70), any change runs the wait
service (R59). -/
def refreshShed (n : Node) : Node :=
  let level := effectiveShed n
  let old := n.view.shed
  if level = old then n
  else
    let n := (n.setView { n.view with shed := level }).wantWait
    if old < level then shedClaims (slots.filter fun i => shedEnds level (n.claim i)) n else n

/-- Entry to SILENT (R31). -/
def enterSilent (n : Node) : Node :=
  let n : Node := { n with state := some .silent, pub := {} }
  let n := n.setView { n.view with shed := 4, listen := none }
  let n := n.setTx { n.tx with queue := if n.tx.attempt = .none then [] else n.tx.queue.take 1 }
  shedClaims (slots.filter fun i => silentEnds (n.claim i)) n

/-! ## The allowance source -/

/-- A peer that is a battery station: it has a battery record, or holds BATTERY while ACTIVE, code 3 (R39). -/
def isBatteryStation (p : Peer) : Bool :=
  p.battery.isSome || (p.node == some 3 && p.duties.any (holdsDuty .battery))

/-- The lowest-numbered battery station (R39). -/
def chooseSource (n : Node) : Option Source :=
  let own := if n.has .battery then [(n.rankNumber, Source.own)] else []
  lowest ((n.view.peers.filter isBatteryStation).map (fun p => (p.station, Source.peer p.station)) ++ own)

/-- The battery-conflict flag (R41). -/
def inConflict (n : Node) : Bool :=
  n.has .battery && n.view.peers.any fun p => isBatteryStation p && decide (p.station < n.rankNumber)

/-- The source and the conflict flag follow the peer table (R39, R41). -/
def refreshSource (n : Node) : Node :=
  n.setView { n.view with source := chooseSource n, conflict := inConflict n }

/-- An acceptance (R40). `ref`: the arrival time stamp, or the moment of the hand-over. -/
def accept (allowance shed band ref : Nat) (n : Node) : Node :=
  refreshShed (n.setView { n.view with
    allowance := allowance, sourceShed := shed, band := some band, orphanRef := some ref, orphaned := false }).wantWait

/-- Entry to the orphan state (R42). -/
def enterOrphan (n : Node) : Node :=
  let own := match n.cfg with
    | some c => c.orphan / 100
    | none => 0
  refreshShed (setFlag .orphaned
    (n.setView { n.view with allowance := own, band := none, orphaned := true })).wantWait

/-- The orphan expiry falls due: 2 000 ms since the orphan reference time, at a node that is not its own source
(R42). -/
def orphanDue (n : Node) : Bool :=
  !n.view.orphaned && n.view.source != some .own && n.reached (n.view.orphanRef.map (· + orphanTime))

/-! ## The travel and wind-lockout views (R44, R45) -/

/-- The travel view derived afresh; a change tells the tank scanner and the motion controller. -/
def refreshTravel (n : Node) : Node :=
  let t := n.ownTravel || n.view.peers.any (·.travel)
  if t = n.view.travel then n
  else
    let n := tanksTravel t (n.setView { n.view with travel := t })
    if t then motionTravel n else n

/-- The wind-lockout view derived afresh; a change tells the motion controller. -/
def refreshWind (n : Node) : Node :=
  let w := n.ownWind || n.view.peers.any (·.wind)
  if w = n.view.wind then n
  else
    let n := n.setView { n.view with wind := w }
    if w then motionWind n else n

/-! ## The peer table (R36 to R38) -/

/-- The parts that a frame's kind carries (R37). -/
def fillPart (f : Frame) (p : Peer) : Peer :=
  match f with
  | .presence b => { p with duties := some b.duties, node := some b.node, travel := b.travel, wind := b.wind }
  | .draw claims => { p with claims := some claims }
  | .allowance b => { p with battery := some b }
  | .tanks tanks frost => { p with tanks := some tanks, frost := frost.map (·.1) }
  | .climate b => { p with climate := some b }
  | .motion units _ => { p with motion := some units }
  | .lights _ | .command _ | .reply _ | .report _ => p

/-- The table after a frame: its entry refreshed or created, or `none` when the table is full (R36). -/
def upsertPeer (x : RxFrame) (peers : List Peer) : Option (List Peer) :=
  if peers.any (·.station == x.source) then
    some (peers.map fun p => if p.station = x.source then fillPart x.frame { p with heard := x.stamp } else p)
  else if peers.length < peerLimit then some (peers ++ [fillPart x.frame { station := x.source, heard := x.stamp }])
  else none

/-- An entry is removed (R38): the view is derived afresh, and the jobs that read it evaluate. -/
def removePeer (station : Nat) (n : Node) : Node :=
  let n := n.setView { n.view with peers := n.view.peers.filter fun p => p.station != station }
  let n := refreshWind (refreshTravel (refreshSource n.wantWait))
  courtesyCheck (frostCheck (pumpCheck n))

/-- An entry has aged out (R38). -/
def agedOut (station : Nat) (n : Node) : Bool :=
  n.view.peers.any fun p => p.station == station && decide (p.heard + peerAge ≤ n.now)

/-! ## Dispatch (R35) -/

/-- A sighting (R32). -/
def sighting (stamp : Nat) (n : Node) : Node :=
  if n.state = some .listenOnly ∨ n.state = some .listening ∨ n.state = some .active then
    let n := setFlag .duplicateSeen n
    match n.view.sighting with
    | some t =>
      if stamp ≤ t + sightingWindow then enterSilent n else n.setView { n.view with sighting := some stamp }
    | none => n.setView { n.view with sighting := some stamp }
  else n

/-- Step 5 of R35 for an ALLOWANCE: accepted from the selected source alone (R40). -/
def acceptFrame (x : RxFrame) (n : Node) : Node :=
  match x.frame with
  | .allowance b =>
    if n.view.source = some (.peer x.source) then accept b.allowance b.shed b.band x.stamp n else n
  | _ => n

/-- Step 5 of R35. A DRAW tells the claim table that the view has changed (R37); a PRESENCE derives the travel and
wind-lockout views (R44, R45). -/
def derive (x : RxFrame) (n : Node) : Node :=
  let n := acceptFrame x (refreshSource n)
  match x.frame with
  | .draw _ => n.wantWait
  | .presence _ => refreshWind (refreshTravel n)
  | _ => n

/-- Steps 1 to 5 of R35, and whether the frame passes to the jobs. -/
def takeFrame (x : RxFrame) (n : Node) : Node × Bool :=
  if x.source < 1 ∨ 14 < x.source then (n, false)
  else if n.station = some x.source then (sighting x.stamp n, false)
  else if x.stamp + peerAge < n.now then (n, false)
  else match upsertPeer x n.view.peers with
    | none => (n, false)
    | some peers => (derive x (n.setView { n.view with peers := peers }), true)

/-- A dispatch: steps 1 to 5, then the job that consumes the kind (R35). -/
def dispatch (job : Node → Node) (x : RxFrame) (n : Node) : Node :=
  let r := takeFrame x n
  if r.2 then job r.1 else r.1

end Sys2Proof.Machine
end

