-- ==== Sys2Proof/Machine/Accountant.lean ====
section
/-! DEFINITION. The battery accountant's sample (chapter 1), stage by stage (R2). -/

namespace Sys2Proof.Machine

def Node.batteryCfg (n : Node) : Option BatteryCfg := n.cfg.bind (·.battery)

/-- C_mAs (section 1.1). -/
def capacity (c : BatteryCfg) : Nat := c.capacityAh * 3600000

/-! ## Stage 2: the charge counter -/

/-- The charge step in thousandths of a mA·s (R6). -/
def chargeStep (current : Int) (eta : Nat) : Int := if current < 0 then current * 100 else current * eta

/-- The charge update with its clamps (R6, R7). -/
def applyCharge (cap : Nat) (dq : Int) (q f : Nat) : Nat × Nat :=
  let f' : Int := f + dq
  let q' : Int := q + f' / 1000
  if q' < 0 then (0, 0)
  else if (cap : Int) ≤ q' then (cap, 0)
  else (q'.toNat, (f' % 1000).toNat)

/-- The state of charge in per mille (R8). -/
def socOf (cap q : Nat) : Nat := q * 1000 / cap

/-! ## Stage 3: the syncs -/

/-- A sync at a moment: the counter is replaced, the count of minutes restarts (R12, R13, R14). -/
def syncTo (q now : Nat) (b : Battery) : Battery :=
  { b with q := q, f := 0, synced := true, syncAt := some now, minutes := 0 }

/-- The rest condition (R10). -/
def atRestNow (c : BatteryCfg) (current : Int) (limit : Bool) : Bool := !limit && current.natAbs ≤ c.restCurrent

/-- The rest timer, and a rest sync when it completes (R10 to R12). -/
def restStage (c : BatteryCfg) (current : Int) (limit : Bool) (volt now : Nat) (b : Battery) : Battery :=
  if !atRestNow c current limit then { b with restCount := 0, restSpent := false }
  else if b.restSpent then { b with restCount := 0 }
  else if b.restCount + 1 < c.restMinutes * 600 then { b with restCount := b.restCount + 1 }
  else
    let b := syncTo (mapTable volt c.table * capacity c / 1000) now b
    { b with restCount := 0, restSpent := true }

/-- The full condition (R13). -/
def fullNow (c : BatteryCfg) (current : Int) (limit charge : Bool) (volt : Nat) : Bool :=
  charge && !limit && c.fullVoltage ≤ volt && 0 < current && current ≤ (c.tailCurrent : Int)

/-- The full-sync timer, and a full sync when it completes (R13). -/
def fullStage (c : BatteryCfg) (current : Int) (limit charge : Bool) (volt now : Nat) (b : Battery) : Battery :=
  if !fullNow c current limit charge volt then { b with fullCount := 0, fullSpent := false }
  else if b.fullSpent then { b with fullCount := 0 }
  else if b.fullCount + 1 < fullSamples then { b with fullCount := b.fullCount + 1 }
  else
    let b := syncTo (capacity c) now b
    { b with fullCount := 0, fullSpent := true }

/-! ## Stage 5: the band -/

/-- The downward moves of R15. -/
def bandDown (c : BatteryCfg) (soc : Nat) (b : Band) : Band :=
  if soc < c.reserve then .reserve
  else if soc < c.economy ∧ b = .normal then .economy
  else b

/-- The upward exits of R15. -/
def bandUp (c : BatteryCfg) (soc : Nat) (b : Band) : Band :=
  let b := if b = .reserve ∧ c.reserve + bandMargin ≤ soc then .economy else b
  if b = .economy ∧ c.economy + bandMargin ≤ soc then .normal else b

/-- The UNSYNCED cap of R16. -/
def unsyncedCap (synced : Bool) (b : Band) : Band := if !synced && b == .normal then .economy else b

/-- SoC 0 with the charge source inactive (R17, R18). -/
def isEmpty (soc : Nat) (charge : Bool) : Bool := soc == 0 && !charge

/-- The band of a sample (R15 to R18). -/
def bandStage (c : BatteryCfg) (volt soc : Nat) (charge : Bool) (b : Battery) : Battery :=
  if b.band = .cutoff then
    let run := if c.cutoffVoltage + c.recoveryMargin ≤ volt then b.recoveryRun + 1 else 0
    if recoverySamples ≤ run ∧ !isEmpty soc charge then
      { b with
        recoveryRun := run, cutoffRun := 0
        band := if charge then .normal else unsyncedCap b.synced (bandUp c soc .reserve) }
    else { b with recoveryRun := run }
  else
    let run := if volt < c.cutoffVoltage then b.cutoffRun + 1 else 0
    if cutoffSamples ≤ run ∨ isEmpty soc charge then { b with band := .cutoff, cutoffRun := 0, recoveryRun := 0 }
    else
      { b with
        cutoffRun := run
        band := if charge then .normal else unsyncedCap b.synced (bandUp c soc (bandDown c soc b.band)) }

/-! ## Stage 6: the allowance -/

/-- The base limit (R19). -/
def baseLimit (c : BatteryCfg) (band : Band) (charge : Bool) : Nat :=
  match band with
  | .normal => if charge then c.aHook else c.aNorm
  | .economy => c.aEcon
  | .reserve => c.aRes
  | .cutoff => 0

/-- The derate factor (R20). -/
def derate (c : BatteryCfg) (temp : Option Int) : Nat :=
  match temp with
  | none => 75
  | some t =>
    if c.td1 ≤ t then 100
    else if t ≤ c.td2 then 50
    else 50 + (50 * (t - c.td2) / (c.td1 - c.td2)).toNat

/-- The allowance in mA (R21). -/
def allowanceOf (c : BatteryCfg) (band : Band) (charge : Bool) (temp : Option Int) : Nat :=
  baseLimit c band charge * derate c temp / 100

/-! ## Stages 7 and 8: the overdraw step and the shed level -/

/-- The discharge of a sample (R22). -/
def dischargeOf (current : Int) : Nat := (-current).toNat

/-- The overdraw margin (R22). -/
def overdrawMargin (a : Nat) : Nat := a / 10 + 1000

/-- The rise run and its step (R22, R23). -/
def riseStage (a d : Nat) (b : Battery) : Battery :=
  if d ≤ a + overdrawMargin a then { b with riseRun := 0 }
  else if b.riseRun + 1 < riseSamples then { b with riseRun := b.riseRun + 1 }
  else { b with riseRun := 0, step := min 4 (b.step + 1) }

/-- The fall run and its step (R22, R23). -/
def fallStage (a d : Nat) (b : Battery) : Battery :=
  if a * 9 / 10 < d then { b with fallRun := 0 }
  else if b.fallRun + 1 < fallSamples then { b with fallRun := b.fallRun + 1 }
  else { b with fallRun := 0, step := b.step - 1 }

/-- The band floor (R24); the floors of the bands in order are 0, 1, 3 and 4. -/
def bandFloor : Band → Nat
  | .normal => 0 | .economy => 1 | .reserve => 3 | .cutoff => 4

/-- The shed level (R24). -/
def shedLevel (b : Battery) : Nat := max (bandFloor b.band) b.step

/-! ## The sample -/

/-- Stages 2 to 8 on the accountant's record, with what the stages read. -/
def sampleBattery (c : BatteryCfg) (raw : Int) (volt now : Nat) (temp : Option Int) (charge : Bool) (b : Battery) :
    Battery :=
  let limit := (shuntCount raw).2
  let current := shuntCurrent (shuntCount raw).1 c.shunt
  let v := sampleVoltage volt
  let qf := applyCharge (capacity c) (chargeStep current c.eta) b.q b.f
  let b := fullStage c current limit charge v now
    (restStage c current limit v now { b with q := qf.1, f := qf.2 })
  let soc := socOf (capacity c) b.q
  let b := bandStage c v soc charge b
  let a := allowanceOf c b.band charge temp
  let d := dischargeOf current
  let b := fallStage a d (riseStage a d b)
  { b with last := some {
      current := current, voltage := v, soc := soc, temp := temp, charge := charge, band := b.band
      allowance := a, shed := shedLevel b, unsynced := !b.synced, overdraw := decide (0 < b.step) } }

/-- Whether a sample's band or shed level differs from the previous sample's (R27). -/
def sampleChanged (old new : Battery) : Bool :=
  match old.last, new.last with
  | some a, some b => a.band != b.band || a.shed != b.shed
  | _, _ => false

/-- The hand-over to the node's own view (R25, R40). -/
def handOver (n : Node) : Node :=
  match n.battery.last with
  | some s =>
    if n.view.source = some .own then accept (s.allowance / 100) s.shed (bandCode s.band) n.now n else n
  | none => n

/-- The measurement event (R2). -/
def measure (c : BatteryCfg) (raw : Int) (volt : Nat) (n : Node) : Node :=
  let temp := c.temp.bind n.validTemp
  let charge := c.charge.any n.inputActive
  let old := n.battery
  let b := sampleBattery c raw volt n.now temp charge old
  let n := n.setBattery { b with due := old.due.map (· + samplePeriod) }
  let n := if old.step = 0 ∧ b.step = 1 then bump .overdraw n else n
  let n := if sampleChanged old b then n.setEv { n.ev with allowance := true } else n
  handOver n

end Sys2Proof.Machine
end

