-- ==== Sys2Proof/Machine/Layout.lean ====
section
/-! DEFINITION. The bytes of frames (R184 and section 12.3), both ways, and the test of a complete frame (R185). -/

namespace Sys2Proof.Machine

/-! ## Fields of bytes (section 12.2: least significant byte first, signed fields in two's complement) -/

/-- The byte at a place, as a number; 0 beyond the end. -/
def byteAt (p : List Byte) (i : Nat) : Nat := (p.getD i 0).toNat

/-- Whether bit `k` of the byte at place `i` is set. -/
def bitAt (p : List Byte) (i k : Nat) : Bool := (p.getD i 0).getLsbD k

def wordAt (p : List Byte) (i : Nat) : Nat := byteAt p i + 256 * byteAt p (i + 1)

def longAt (p : List Byte) (i : Nat) : Nat := wordAt p i + 65536 * wordAt p (i + 2)

/-- A number of `k` bits read as two's complement. -/
def signed (k v : Nat) : Int := if v < 2 ^ (k - 1) then (v : Int) else (v : Int) - 2 ^ k

def signedAt (p : List Byte) (i : Nat) : Int := signed 16 (wordAt p i)

/-- A level or position: 0xFFFF is unknown. -/
def levelAt (p : List Byte) (i : Nat) : Option Nat := if wordAt p i = 0xFFFF then none else some (wordAt p i)

/-- A temperature: −32 768 marks an invalid reading. -/
def tempAt (p : List Byte) (i : Nat) : Option Int := if signedAt p i = -32768 then none else some (signedAt p i)

def byte (v : Nat) : Byte := BitVec.ofNat 8 v
def word (v : Nat) : List Byte := [byte v, byte (v / 256)]
def long (v : Nat) : List Byte := word v ++ word (v / 65536)
def signedWord (v : Int) : List Byte := word (v % 65536).toNat
def signedLong (v : Int) : List Byte := long (v % 4294967296).toNat
def levelWord (v : Option Nat) : List Byte := word (v.getD 0xFFFF)
def tempWord (v : Option Int) : List Byte := signedWord (v.getD (-32768))

/-- A set bit's weight. -/
def bit (k : Nat) (b : Bool) : Nat := if b then 2 ^ k else 0

/-! ## Kinds (section 12.3) -/

def kindOf : Frame → Kind
  | .presence _ => .presence | .draw _ => .draw | .allowance _ => .allowance | .tanks _ _ => .tanks
  | .climate _ => .climate | .motion _ _ => .motion | .lights _ => .lights | .command _ => .command
  | .reply _ => .reply | .report _ => .report

def kindCode : Kind → Nat
  | .presence => 0x11 | .draw => 0x12 | .allowance => 0x13 | .tanks => 0x14 | .climate => 0x15
  | .motion => 0x16 | .lights => 0x17 | .command => 0x21 | .reply => 0x22 | .report => 0x23

/-- A byte whose bits under `mask` have no meaning: those bits are free (log entry 6). -/
def withSpare (kind : Kind) (mask v : Nat) : Byte :=
  byte v ||| (Config.spareBits (kindCode kind) &&& byte mask)

/-! ## Sending -/

def presenceBytes (b : PresenceBody) : List Byte :=
  [byte b.node, byte b.duties.toNat, withSpare .presence 0xF8 (b.duties.toNat / 256), byte b.cause,
   withSpare .presence 0xF0 (bit 0 b.flagAny + bit 1 b.orphaned + bit 2 b.unconfigured + bit 3 b.conflict),
   withSpare .presence 0xFC (bit 0 b.travel + bit 1 b.wind)] ++ word b.ident

def drawClaimBytes (d : DrawClaim) : List Byte :=
  [withSpare .draw 0x40 (d.slot % 8 + 8 * (d.cls % 8) + bit 7 d.asking), byte d.held, byte d.asked]

def allowanceBytes (b : AllowanceBody) : List Byte :=
  word b.allowance ++ [byte b.shed, byte b.band,
    withSpare .allowance 0xF0 (bit 0 b.unsynced + bit 1 b.charge + bit 2 b.overdraw + bit 3 b.tempInvalid)]
  ++ word b.soc ++ word b.voltage ++ signedWord b.current ++ signedWord b.temp ++ word b.minutes

def tankBytes (t : TankBody) : List Byte :=
  byte (t.kind % 4 + bit 2 t.heldMark + bit 3 t.probeFault + bit 4 t.senderFault + bit 5 t.low + bit 6 t.empty
    + bit 7 t.full) :: levelWord t.level

def climateBytes (b : ClimateBody) : List Byte :=
  [byte b.state, byte b.level, byte b.mode] ++ signedWord b.setpoint ++ tempWord b.cabin ++ tempWord b.exhaust
    ++ [byte b.reason, byte b.attempts]

def unitBytes (u : UnitBody) : List Byte :=
  [byte u.kind, withSpare .motion 0xC0 (u.state % 16 + 16 * (u.cause % 4))] ++ levelWord u.pos
    ++ [byte u.tag, byte u.outcome]

def lightBytes (l : LightBody) : List Byte :=
  [byte l.level, withSpare .lights 0xF8 (bit 0 l.capped + bit 1 l.shed + bit 2 l.degraded)]

def reportBytes : ReportBody → List Byte
  | .quantities start count values => [byte 0, byte start, byte count] ++ values.flatMap signedLong
  | .counters start count values => [byte 1, byte start, byte count] ++ values.flatMap word
  | .flags start count flags => [byte 2, byte start, byte count] ++ word flags.toNat

/-- The payload of a frame (section 12.3). -/
def payload : Frame → List Byte
  | .presence b => presenceBytes b
  | .draw claims => byte claims.length :: claims.flatMap drawClaimBytes
  | .allowance b => allowanceBytes b
  | .tanks tanks frost =>
    withSpare .tanks 0x7C (tanks.length + bit 7 frost.isSome) :: tanks.flatMap tankBytes ++
      (match frost with
       | some (state, temp) => byte state :: tempWord temp
       | none => [])
  | .climate b => climateBytes b
  | .motion units wind =>
    withSpare .motion 0x7C (units.length + bit 7 wind.isSome) :: units.flatMap unitBytes ++
      (match wind with
       | some speed => word speed
       | none => [])
  | .lights channels => byte channels.length :: channels.flatMap lightBytes
  | .command b => [byte b.target, byte b.tag, byte b.code] ++ b.args
  | .reply b => [byte b.requester, byte b.tag, byte b.code, byte b.result] ++ signedWord b.detail
  | .report b => reportBytes b

/-- The sum of bytes as numbers. -/
def byteSum (p : List Byte) : Nat := (p.map BitVec.toNat).sum

/-- CHECK: 0x5C minus the sum modulo 256 of SOURCE, KIND, LENGTH and the payload, modulo 256 (R184). -/
def checkByte (body : List Byte) : Byte := byte (0x5C + 256 - byteSum body % 256)

/-- SOURCE, KIND, LENGTH and payload. -/
def frameBody (source : Nat) (f : Frame) : List Byte :=
  [byte source, byte (kindCode (kindOf f)), byte (payload f).length] ++ payload f

/-- The characters of a frame on the line (R184). -/
def frameBytes (source : Nat) (f : Frame) : List Byte :=
  0xC3#8 :: frameBody source f ++ [checkByte (frameBody source f)]

/-! ## Receiving -/

def readDuties (p : List Byte) (i : Nat) : BitVec 11 := BitVec.ofNat 11 (wordAt p i)

def readPresence (p : List Byte) : Option Frame :=
  if p.length = 8 then
    some (.presence ⟨byteAt p 0, readDuties p 1, byteAt p 3, bitAt p 4 0, bitAt p 4 1, bitAt p 4 2, bitAt p 4 3,
      bitAt p 5 0, bitAt p 5 1, wordAt p 6⟩)
  else none

def readClaim (p : List Byte) (k : Nat) : DrawClaim :=
  ⟨byteAt p (1 + 3 * k) % 8, byteAt p (1 + 3 * k) / 8 % 8, bitAt p (1 + 3 * k) 7, byteAt p (2 + 3 * k),
    byteAt p (3 + 3 * k)⟩

def readDraw (p : List Byte) : Option Frame :=
  let n := byteAt p 0
  if n ≤ 8 ∧ p.length = 1 + 3 * n then some (.draw ((List.range n).map (readClaim p))) else none

def readAllowance (p : List Byte) : Option Frame :=
  if p.length = 15 then
    some (.allowance ⟨wordAt p 0, byteAt p 2, byteAt p 3, bitAt p 4 0, bitAt p 4 1, bitAt p 4 2, bitAt p 4 3,
      wordAt p 5, wordAt p 7, signedAt p 9, signedAt p 11, wordAt p 13⟩)
  else none

def readTank (p : List Byte) (k : Nat) : TankBody :=
  let i := 1 + 3 * k
  ⟨byteAt p i % 4, bitAt p i 2, bitAt p i 3, bitAt p i 4, bitAt p i 5, bitAt p i 6, bitAt p i 7, levelAt p (i + 1)⟩

def readTanks (p : List Byte) : Option Frame :=
  let t := byteAt p 0 % 4
  let tanks := (List.range t).map (readTank p)
  if bitAt p 0 7 then
    if p.length = 1 + 3 * t + 3 then some (.tanks tanks (some (byteAt p (1 + 3 * t), tempAt p (2 + 3 * t)))) else none
  else if 0 < p.length ∧ p.length = 1 + 3 * t then some (.tanks tanks none) else none

def readClimate (p : List Byte) : Option Frame :=
  if p.length = 11 then
    some (.climate ⟨byteAt p 0, byteAt p 1, byteAt p 2, signedAt p 3, tempAt p 5, tempAt p 7, byteAt p 9, byteAt p 10⟩)
  else none

def readUnit (p : List Byte) (k : Nat) : UnitBody :=
  let i := 1 + 6 * k
  ⟨byteAt p i, byteAt p (i + 1) % 16, byteAt p (i + 1) / 16 % 4, levelAt p (i + 2), byteAt p (i + 4), byteAt p (i + 5)⟩

def readMotion (p : List Byte) : Option Frame :=
  let u := byteAt p 0 % 4
  let units := (List.range u).map (readUnit p)
  if u > 2 then none
  else if bitAt p 0 7 then
    if p.length = 1 + 6 * u + 2 then some (.motion units (some (wordAt p (1 + 6 * u)))) else none
  else if 0 < p.length ∧ p.length = 1 + 6 * u then some (.motion units none) else none

def readLight (p : List Byte) (k : Nat) : LightBody :=
  ⟨byteAt p (1 + 2 * k), bitAt p (2 + 2 * k) 0, bitAt p (2 + 2 * k) 1, bitAt p (2 + 2 * k) 2⟩

def readLights (p : List Byte) : Option Frame :=
  let c := byteAt p 0
  if c ≤ 8 ∧ p.length = 1 + 2 * c then some (.lights ((List.range c).map (readLight p))) else none

def readCommand (p : List Byte) : Option Frame :=
  if 3 ≤ p.length ∧ p.length ≤ 11 then some (.command ⟨byteAt p 0, byteAt p 1, byteAt p 2, p.drop 3⟩) else none

def readReply (p : List Byte) : Option Frame :=
  if p.length = 6 then some (.reply ⟨byteAt p 0, byteAt p 1, byteAt p 2, byteAt p 3, signedAt p 4⟩) else none

/-- The report kind and the count agree with LENGTH: a QUANTITIES report has 3 + 4 × count bytes, a COUNTERS report
twelve counters, a FLAGS report sixteen flags (section 12.3). -/
def readReport (p : List Byte) : Option Frame :=
  let count := byteAt p 2
  if p.length < 3 then none
  else if byteAt p 0 = 0 then
    if p.length = 3 + 4 * count then
      some (.report (.quantities (byteAt p 1) count ((List.range count).map fun k => signed 32 (longAt p (3 + 4 * k)))))
    else none
  else if byteAt p 0 = 1 then
    if p.length = 27 ∧ count = 12 then
      some (.report (.counters (byteAt p 1) count ((List.range 12).map fun k => wordAt p (3 + 2 * k))))
    else none
  else if byteAt p 0 = 2 then
    if p.length = 5 ∧ count = 16 then
      some (.report (.flags (byteAt p 1) count (BitVec.ofNat 16 (wordAt p 3))))
    else none
  else none

/-- A payload read by its kind code; `none` when the kind is unknown or the length or counts do not fit it. -/
def readPayload (kind : Nat) (p : List Byte) : Option Frame :=
  if kind = 0x11 then readPresence p
  else if kind = 0x12 then readDraw p
  else if kind = 0x13 then readAllowance p
  else if kind = 0x14 then readTanks p
  else if kind = 0x15 then readClimate p
  else if kind = 0x16 then readMotion p
  else if kind = 0x17 then readLights p
  else if kind = 0x21 then readCommand p
  else if kind = 0x22 then readReply p
  else if kind = 0x23 then readReport p
  else none

/-- The test of a complete frame without character errors (R185): its SOURCE and its content when it is good. -/
def readFrame (bytes : List Byte) : Option (Nat × Frame) :=
  let p := (bytes.drop 4).take (byteAt bytes 3)
  if byteAt bytes 0 = 0xC3 ∧ byteAt bytes 3 ≤ 28 ∧ bytes.length = byteAt bytes 3 + 5 ∧
      byteSum (bytes.drop 1) % 256 = 0x5C then
    (readPayload (byteAt bytes 2) p).map fun f => (byteAt bytes 1, f)
  else none

end Sys2Proof.Machine
end

