-- ==== Sys2Proof/Machine/Publish.lean ====
section
/-! DEFINITION. What a node sends: the contents of its frames, the transmit queue, and the frames an event queues at
its end (R33, R51, R84, R129, R151, R167, R187). -/

namespace Sys2Proof.Machine

/-! ## Contents -/

/-- R33. -/
def presenceBody (n : Node) : PresenceBody where
  node := (n.state.map nodeCode).getD 0
  duties := match n.cfg with
    | some c => c.duties
    | none => 0
  cause := n.cause
  flagAny := n.cmd.flags != 0
  orphaned := n.view.orphaned
  unconfigured := n.cfg.isNone
  conflict := n.view.conflict
  travel := n.ownTravel
  wind := n.ownWind
  ident := match n.cfg with
    | some c => c.ident
    | none => 0

/-- A current in 10 mA units, truncated and clamped (R26). -/
def tenMilliamps (current : Int) : Int := max (-32767) (min 32767 (current.tdiv 10))

/-- R26; none before the first sample. Between two samples the minutes count is the one that stands when the frame is
queued (R14, log entry 56). -/
def allowanceBody (n : Node) : Option AllowanceBody :=
  n.battery.last.map fun s => {
    allowance := s.allowance / 100, shed := s.shed, band := bandCode s.band, unsynced := s.unsynced
    charge := s.charge, overdraw := s.overdraw, tempInvalid := s.temp.isNone, soc := s.soc, voltage := s.voltage
    current := tenMilliamps s.current, temp := s.temp.getD 0, minutes := n.battery.minutes }

/-- One tank of R84. -/
def tankBody (x : TankCfg × Tank) : TankBody where
  kind := tankKindCode x.1.kind
  heldMark := x.2.heldMark
  probeFault := x.2.probeFault
  senderFault := x.2.senderFault
  low := x.2.low
  empty := x.2.empty
  full := x.2.full
  level := x.2.level

/-- The frost part: the frost state and the temperature used (R84, R107). -/
def frostPart (n : Node) : Option (Nat × Option Int) :=
  n.frostCfg.map fun c => (frostCode n.frost.state, tempUsed c n)

/-- R129. -/
def climateBody (c : HeaterCfg) (n : Node) : ClimateBody where
  state := heaterCode n.heater.state
  level := n.heater.level
  mode := modeCode n.heater.mode
  setpoint := effectiveSetpoint n.heater
  cabin := cabinReading c n
  exhaust := n.validTemp c.exhaust
  reason := reasonCode n.heater.reason
  attempts := n.heater.attempts

/-- One unit of R151, when the node holds its duty. -/
def unitBody (u : MotionUnit) (n : Node) : Option UnitBody :=
  (n.unitCfg u).map fun c =>
    let m := n.unit u
    { kind := unitKindCode u, state := unitStateCode m.state, cause := causeCode m.cause, pos := estimate c m n.now
      tag := m.tag, outcome := outcomeCode m.outcome }

/-- R151. -/
def motionFrame (n : Node) : Frame :=
  .motion ([MotionUnit.awning, .step].filterMap fun u => unitBody u n) (n.windCfg.map fun _ => n.wind.speed)

/-- One channel of R167. -/
def lightBody (l : Light) : LightBody where
  level := l.level
  capped := l.capped
  shed := l.shed
  degraded := l.degraded

/-! ## The transmit queue (R187) -/

/-- The entry at the head while it is in attempt. -/
def lockedPart (t : Transmitter) : List TxEntry := if t.attempt = .none then [] else t.queue.take 1

/-- The entries that are queued and not in attempt. -/
def queuedPart (t : Transmitter) : List TxEntry := if t.attempt = .none then t.queue else t.queue.drop 1

def isAnswer (e : TxEntry) : Bool := kindOf e.frame == .reply || kindOf e.frame == .report

/-- The list without its last REPLY or REPORT, when it has one. -/
def dropYoungest : List TxEntry → Option (List TxEntry)
  | [] => none
  | e :: rest =>
    match dropYoungest rest with
    | some rest' => some (e :: rest')
    | none => if isAnswer e then some rest else none

/-- The queued entry of a kind, the last one where there are several; a periodic kind never has two (R187): a failed
attempt merges them (log entry 40). -/
def lastOfKind (k : Kind) (q : List TxEntry) : Option TxEntry := q.reverse.find? fun e => kindOf e.frame == k

/-- Append a frame at the end of a queue. -/
def appendFrame (q : List TxEntry) (f : Frame) (n : Node) : Node × Option Nat :=
  (n.setTx { n.tx with queue := q ++ [{ id := n.tx.nextId, frame := f }], nextId := n.tx.nextId + 1 },
    some n.tx.nextId)

/-- A new frame takes the place of an entry's frame; the entry keeps its position and its attempt count. -/
def replaceFrame (entry : Nat) (f : Frame) (q : List TxEntry) : List TxEntry :=
  q.map fun x => if x.id = entry then { x with frame := f } else x

/-- Place a frame of a periodic kind; the entry's id, or none when the frame is dropped. -/
def placePeriodic (f : Frame) (n : Node) : Node × Option Nat :=
  match lastOfKind (kindOf f) (queuedPart n.tx) with
  | some e =>
    (n.setTx { n.tx with queue := replaceFrame e.id f n.tx.queue }, some e.id)
  | none =>
    if n.tx.queue.length < queueLimit then appendFrame n.tx.queue f n
    else match dropYoungest (queuedPart n.tx) with
      | some rest => appendFrame (lockedPart n.tx ++ rest) f (bump .queueDrops n)
      | none => (bump .queueDrops n, none)

/-- Place a REPLY or REPORT. -/
def placeAnswer (f : Frame) (n : Node) : Node × Option Nat :=
  if n.tx.queue.length < queueLimit then appendFrame n.tx.queue f n else (bump .queueDrops n, none)

/-! ## Which frames an event queues -/

/-- The node queues PRESENCE in its present state (R34). -/
def sendsPresence (n : Node) : Bool :=
  n.isActive || (n.state == some .listenOnly && n.station.isSome && n.cfg.isNone)

/-- The node queues DRAW in its present state (R52). -/
def sendsDraw (n : Node) : Bool := n.isActive || n.state == some .listening

/-- The event entered ACTIVE. -/
def entered (n0 n : Node) : Bool := n.isActive && !n0.isActive

def queuePresence (n0 n : Node) : Node :=
  if sendsPresence n && (n.ev.presence || entered n0 n || n.ownTravel != n0.ownTravel || n.ownWind != n0.ownWind) then
    let n := (placePeriodic (.presence (presenceBody n)) n).1
    n.setPub { n.pub with presence := some n.now }
  else n

/-- A DRAW becomes the carrying frame of the claims that entered ASKING in this event; one that is dropped is given
up (R53, R54, R187). The DRAW that then follows, since the broadcast list has changed, is queued at the end of the next
event (log entry 19). -/
def queueDraw (n0 n : Node) : Node :=
  let list := broadcastList n
  if sendsDraw n && (n.ev.draw || entered n0 n || list != n.pub.list) then
    let r := placePeriodic (.draw list) n
    let n := r.1.setPub { r.1.pub with draw := some r.1.now, list := list }
    match r.2 with
    | some entry => carriedBy entry n
    | none => carrierGivenUp none n
  else n

def queueAllowance (n0 n : Node) : Node :=
  if n.isActive && n.has .battery && (n.ev.allowance || entered n0 n) then
    let n := match allowanceBody n with
      | some b => (placePeriodic (.allowance b) n).1
      | none => n
    n.setPub { n.pub with allowance := some n.now }
  else n

/-- What of a tank record a TANKS frame shows (R85). -/
def tankMarks (n : Node) : List TankBody := n.ownTanks.map tankBody

def queueTanks (n0 n : Node) : Node :=
  if n.isActive && (n.has .tanks || n.has .frost) &&
      (n.ev.tanks || entered n0 n || tankMarks n != tankMarks n0 || n.frost.state != n0.frost.state) then
    let n := (placePeriodic (.tanks (tankMarks n) (frostPart n)) n).1
    n.setPub { n.pub with tanks := some n.now }
  else n

/-- What queues a CLIMATE at its change (R130). -/
def climateMarks (n : Node) : HeaterState × Nat × HeaterMode × Int × StopReason × Nat :=
  let h := n.heater
  (h.state, h.level, h.mode, effectiveSetpoint h, h.reason, h.attempts)

def queueClimate (n0 n : Node) : Node :=
  match n.heaterCfg with
  | none => n
  | some c =>
    if n.isActive && (n.ev.climate || entered n0 n || climateMarks n != climateMarks n0) then
      let n := (placePeriodic (.climate (climateBody c n)) n).1
      n.setPub { n.pub with climate := some n.now }
    else n

/-- What queues a MOTION at its change (R152). -/
def unitMarks (m : MoveUnit) : UnitState × FaultCause × Nat × MoveOutcome := (m.state, m.cause, m.tag, m.outcome)

def motionMarks (n : Node) : List (UnitState × FaultCause × Nat × MoveOutcome) :=
  [unitMarks n.motion.awning, unitMarks n.motion.step]

/-- The node publishes MOTION frames (R152). -/
def hasMotion (n : Node) : Bool := n.has .awning || n.has .step || n.has .wind

def queueMotion (n0 n : Node) : Node :=
  if n.isActive && hasMotion n && (n.ev.motion || entered n0 n || motionMarks n != motionMarks n0) then
    let n := (placePeriodic (motionFrame n) n).1
    n.setPub { n.pub with motion := some n.now }
  else n

/-- A LIGHTS at the changes that R168 lists; a trip of a channel that is DEGRADED already is none of them (log entry
49). -/
def queueLights (n0 n : Node) : Node :=
  if n.isActive && n.has .lights && (n.ev.lights || entered n0 n || lightMarks n != lightMarks n0) then
    let n := (placePeriodic (.lights (n.lights.channels.map lightBody)) n).1
    n.setPub { n.pub with lights := some n.now }
  else n

/-- A restart is pending on its REPLY's entry; a further one is tracked beside the first, whose latest moment is the
earlier one and stays (R200). -/
def trackRestart (entry latest : Nat) (c : CommandUnit) : CommandUnit :=
  match c.restart with
  | none => { c with restart := some (entry, latest) }
  | some _ => { c with restartAgain := c.restartAgain ++ [entry] }

/-- The REPLY of a command, in ACTIVE; a restart follows it (R195, R200). -/
def queueReply (n : Node) : Node :=
  match n.ev.reply, n.isActive with
  | some b, true =>
    let r := placeAnswer (.reply b) n
    if r.1.ev.restart then
      match r.2 with
      | some entry =>
        r.1.setCmd (trackRestart entry (r.1.now + restartTime) r.1.cmd)
      | none => r.1.setEv { r.1.ev with reset := true }
    else r.1
  | _, _ => if n.ev.restart then n.setEv { n.ev with reset := true } else n

def queueReport (n : Node) : Node :=
  match n.ev.report, n.isActive with
  | some b, true => (placeAnswer (.report b) n).1
  | _, _ => n

/-- The frames of an event, in the order of kind of R187. -/
def queueFrames (n0 n : Node) : Node :=
  queueReport (queueReply (queueLights n0 (queueMotion n0 (queueClimate n0 (queueTanks n0 (queueAllowance n0
    (queueDraw n0 (queuePresence n0 n))))))))

/-- A pending restart takes place when its REPLY, or that of a further RESTART, has left the queue (R200). -/
def restartCheck (n : Node) : Node :=
  match n.cmd.restart with
  | some (entry, _) =>
    if (entry :: n.cmd.restartAgain).all fun k => n.tx.queue.any (·.id == k) then n
    else n.setEv { n.ev with reset := true }
  | none => n

end Sys2Proof.Machine
end

