-- ==== Sys2Proof/Machine/Event.lean ====
section
/-! DEFINITION. The frame of every event: the time passes, the event's own effect, what the blocks tell one another,
the wait service, the frames queued, and a restart. -/

namespace Sys2Proof.Machine

/-- `dt` ms of the time base pass; in a hold it stands (R202). -/
def advance (dt : Nat) (n : Node) : Node := if n.held then n else { n with now := n.now + dt }

/-- What the blocks tell one another when their states have changed: a changed shed level makes the heater and the
pump evaluate (R113, R90), a changed heater, cabin reading, band or orphan state the frost monitor (R100), a changed
frost state or tank the pump (R90), a changed own step the courtesy trigger (R163). The lights follow last. -/
def propagate (n0 n : Node) : Node :=
  let shed := n.view.shed != n0.view.shed
  let n := if shed then heaterCheck n else n
  let n := if n.heater.state != n0.heater.state || n.heaterCfg.bind (cabinReading · n) != n0.heaterCfg.bind (cabinReading · n0)
      || n.view.band != n0.view.band || n.view.orphaned != n0.view.orphaned then frostCheck n else n
  let n := if shed || n.frost.state != n0.frost.state || n.tanks.records != n0.tanks.records then pumpCheck n else n
  let n := if n.motion.step.state != n0.motion.step.state then courtesyCheck n else n
  lightsUpdate n

/-- The wait service runs once at the end of an event that calls for it (R59). -/
def serveWaits (n : Node) : Node := if n.ev.wait then waitService n else n

/-- What follows the own effect of an event. -/
def finish (n0 n : Node) : Node := restartCheck (queueFrames n0 (serveWaits (propagate n0 n)))

/-- The node right after a reset of a cause (R202): every block at its reset values. -/
def resetNode (cause : Nat) : Node := { cause := cause }

/-- The state after an event: the marks of the event are cleared, or the commanded RESTART resets the node and ends
its hold at once, so that its start begins (R200, R202). -/
def commit (s : State) (rx : Receiver) (n : Node) : State :=
  if n.ev.reset then { pending := s.pending, rx := {}, node := { resetNode 4 with held := false } }
  else { pending := s.pending, rx := rx, node := n.setEv {} }

/-- A command of the node: `dt` passes; when the node is up and the command's occasion is there, its body acts and
the event is finished (log entry 2). -/
def event (dt : Nat) (occasion : Receiver → Node → Bool) (body : Receiver → Node → Receiver × Node) (s : State) :
    Host.Outcome State Fault Refusal :=
  let n := advance dt s.node
  if n.up && occasion s.rx n then
    let n0 := keepTemp n
    let r := body s.rx n0
    .next (commit s r.1 (finish n0 r.2))
  else .next { s with node := n }

/-- A command that does not concern the receiver. -/
def nodeEvent (dt : Nat) (occasion : Node → Bool) (body : Node → Node) (s : State) :
    Host.Outcome State Fault Refusal :=
  event dt (fun _ n => occasion n) (fun rx n => (rx, body n)) s

/-- The frame at the head of the arrival list meets a test. -/
def headIs (p : Frame → Bool) (rx : Receiver) : Bool :=
  match rx.arrival with
  | x :: _ => p x.frame
  | [] => false

/-- A dispatch of the head of the arrival list: its buffer returns to the free list (R35, R186). -/
def dispatchEvent (dt : Nat) (p : Frame → Bool) (job : RxFrame → Node → Node) (s : State) :
    Host.Outcome State Fault Refusal :=
  event dt (fun rx _ => headIs p rx)
    (fun rx n =>
      match rx.arrival with
      | x :: rest => ({ rx with arrival := rest }, dispatch (job x) x n)
      | [] => (rx, n)) s

end Sys2Proof.Machine
end

