-- ==== Sys2Proof/Machine/Commands.lean ====
section
/-! DEFINITION. How a COMMAND is addressed, checked and answered (R194, R195), and what the queries report (R196,
R199). -/

namespace Sys2Proof.Machine

/-- What the execution of a command gives: its result, the detail of its REPLY, and the node. -/
structure Outcome where
  result : Result
  detail : Int := 0
  node : Node

/-- A result without a detail; a refusal gives the node unchanged. -/
def give (r : Result) (n : Node) : Outcome := { result := r, node := n }

/-- The REPLY to an addressed command; it is queued at the end of the event, in ACTIVE (R195). -/
def answer (source : Nat) (b : CommandBody) (o : Outcome) : Node :=
  o.node.setEv { o.node.ev with reply := some ⟨source, b.tag, b.code, resultCode o.result, o.detail⟩ }

/-- Whether the node holds the duty a command needs. -/
def holds (duty : Option Duty) (n : Node) : Bool :=
  match duty with
  | some d => n.has d
  | none => true

/-- A COMMAND executed and answered by its target (R194, R195): addressed, it is checked and answered; broadcast, it
is executed without an answer, or ignored where an addressed one would be refused; any other target ignores it. -/
def runCommand (duty : Option Duty) (lengthOk : List Byte → Bool) (act : Nat → CommandBody → Node → Outcome)
    (source : Nat) (b : CommandBody) (n : Node) : Node :=
  if n.station = some b.target then
    answer source b (
      if !lengthOk b.args then give .refusedRange n
      else if !holds duty n then give .refusedNoDuty n
      else act source b n)
  else if b.target = 0 ∧ lengthOk b.args ∧ holds duty n then (act source b n).node
  else n

/-- A COMMAND that is ignored when broadcast (R194). -/
def runAddressed (lengthOk : List Byte → Bool) (act : CommandBody → Node → Outcome)
    (source : Nat) (b : CommandBody) (n : Node) : Node :=
  if n.station = some b.target then
    answer source b (if !lengthOk b.args then give .refusedRange n else act b n)
  else n

/-- A query: in ACTIVE alone, with room for two frames (R194, R195). -/
def runQuery (lengthOk : List Byte → Bool) (act : CommandBody → Node → Outcome)
    (source : Nat) (b : CommandBody) (n : Node) : Node :=
  if n.isActive then
    runAddressed lengthOk
      (fun b n => if queueLimit < n.tx.queue.length + 2 then give .refusedBusy n else act b n) source b n
  else n

/-- The head of the arrival list is a COMMAND of a code whose arguments meet a test. -/
def isCommandOf (code : Nat) (args : List Byte → Bool) (f : Frame) : Bool :=
  match f with
  | .command b => b.code == code && args b.args
  | _ => false

/-- The content of a COMMAND frame passed to the command unit. -/
def onCommand (run : Nat → CommandBody → Node → Node) (x : RxFrame) (n : Node) : Node :=
  match x.frame with
  | .command b => run x.source b n
  | _ => n

/-- A command row: the COMMAND at the head of the arrival list is dispatched and executed. -/
def commandEvent (dt code : Nat) (args : List Byte → Bool) (run : Nat → CommandBody → Node → Node) (s : State) :
    Host.Outcome State Fault Refusal :=
  dispatchEvent dt (isCommandOf code args) (onCommand run) s

/-- An argument byte as a number. -/
def argOf (b : CommandBody) (i : Nat) : Nat := byteAt b.args i

/-- An argument list of one length. -/
def hasLength (k : Nat) (args : List Byte) : Bool := args.length == k

/-- The codes of section 12.3. -/
def commandCodes : List Nat :=
  [0x01, 0x02, 0x03, 0x10, 0x11, 0x18, 0x19, 0x20, 0x21, 0x22, 0x28, 0x29, 0x30, 0x31, 0x38, 0x39, 0x3A, 0x3B, 0x3F]

/-! ## The report map (R196) -/

/-- The not-available value. -/
def notAvailable : Int := -2147483648

/-- A mask with one bit per channel number that meets a test. -/
def channelMask (p : Fin 16 → Bool) : Nat := (channels.map fun i => if p i then 2 ^ i.val else 0).sum

/-- A quantity of a duty; not available without the duty. -/
def ofDuty (d : Duty) (n : Node) (v : Int) : Int := if n.has d then v else notAvailable

/-- A number that may be absent. -/
def natOr (v : Option Nat) : Int :=
  match v with
  | some k => k
  | none => notAvailable

def intOr (v : Option Int) : Int := v.getD notAvailable

/-- The reading of the AIN channel bound to AUX with the lowest channel number (selector 21); with no such channel it is
not available (log entry 50). -/
def auxReading (n : Node) : Option Nat :=
  (channels.find? fun i => n.role i == .ain && n.owner i == some .aux).bind fun i => (n.chan i).reading

/-- The own state of charge (selector 4, R8). -/
def ownSoc (n : Node) : Option Nat := n.batteryCfg.map fun c => socOf (capacity c) n.battery.q

/-- A quantity by its selector; before the first sample selectors 5 and 6 are not available (log entry 50). -/
def quantity (sel : Nat) (n : Node) : Int :=
  match sel with
  | 0 => n.view.allowance
  | 1 => n.view.shed
  | 2 => heldInView n
  | 3 => n.view.peers.length
  | 4 => natOr (ownSoc n)
  | 5 => intOr (n.battery.last.map (·.current))
  | 6 => natOr (n.battery.last.map (·.voltage))
  | 7 => ofDuty .battery n (n.battery.q / 1000 : Nat)
  | 8 => ofDuty .battery n n.battery.step
  | 9 => natOr (n.tanks.records[0]?.bind (·.level))
  | 10 => natOr (n.tanks.records[1]?.bind (·.level))
  | 11 => natOr (n.tanks.records[2]?.bind (·.level))
  | 12 => ofDuty .pump n (pumpStateCode n.pump.state * 16 + pumpReasonCode n.pump.reason : Nat)
  | 13 => ofDuty .pump n n.pump.dryCount
  | 14 => ofDuty .frost n (frostCode n.frost.state)
  | 15 => intOr (n.frostCfg.bind (tempUsed · n))
  | 16 => ofDuty .heater n n.heater.level
  | 17 => intOr (n.heaterCfg.bind (cabinReading · n))
  | 18 => intOr (n.heaterCfg.bind fun c => n.validTemp c.exhaust)
  | 19 => ofDuty .wind n n.wind.speed
  | 20 => ofDuty .aux n (channelMask fun i => n.auxState i == .on)
  | 21 => intOr ((auxReading n).map fun v => (v : Int))
  | 22 => channelMask fun i => (n.chan i).backfed
  | 23 => (n.now % 4294967296 / 1000 : Nat)
  | _ => notAvailable

/-- The twelve places of a REPORT_SELECT: 5 bits each, place 0 lowest (section 12.3). -/
def selectPlaces (args : List Byte) : List Nat :=
  let v := longAt args 0 + 4294967296 * longAt args 4
  (List.range 12).map fun k => v / 32 ^ k % 32

/-- The places up to the first NONE, which is 31 (R196). -/
def newMap (places : List Nat) : List Nat := places.takeWhile (· != 31)

/-! ## Standing conditions (R199) -/

/-- A unit is in FAULT with a cause. -/
def faultedBy (c : FaultCause) (m : MoveUnit) : Bool := m.state == .fault && m.cause == c

/-- Whether a flag's standing condition holds; a node without the STEP duty has no step to stow (log entry 55). -/
def standing (f : Flag) (n : Node) : Bool :=
  match f with
  | .jabber => n.tx.jabber
  | .orphaned => n.view.orphaned
  | .channelTrip => channels.any fun i => n.role i == .out && isHeldOff (n.chan i)
  | .bridgeFault => n.bank.bridgeA.state == .fault || n.bank.bridgeB.state == .fault
  | .probeFault => n.tanks.records.any (·.probeFault)
  | .senderFault => n.tanks.records.any (·.senderFault)
  | .dryFault => n.pump.state == .dryFault
  | .valveFault => n.frost.state == .valveFault
  | .heaterLockout => n.heater.state == .lockout
  | .motionJam => faultedBy .jam n.motion.awning || faultedBy .jam n.motion.step
  | .motionTimeout => faultedBy .timeout n.motion.awning || faultedBy .timeout n.motion.step
  | .stepNotStowed => n.has .step && n.view.travel && n.motion.step.state != .retracted
  | .sensorFault => (List.finRange 4).any fun i => tempTypeOf i n != .unused && n.bank.temps[i].reading == some none
  | .duplicateSeen | .frostDumped | .flameLost => false

/-- All flags, in the order of R199. -/
def allFlags : List Flag :=
  [.jabber, .duplicateSeen, .orphaned, .channelTrip, .bridgeFault, .probeFault, .senderFault, .dryFault,
   .frostDumped, .valveFault, .heaterLockout, .flameLost, .motionJam, .motionTimeout, .stepNotStowed, .sensorFault]

/-- The flags whose standing conditions hold. -/
def standingFlags (n : Node) : BitVec 16 :=
  allFlags.foldl (fun w f => if standing f n then w ||| flagMask f else w) 0

/-! ## The bank's notices to owners (R174, R175) -/

/-- The owner of an output is told of a trip, latch, retry or reset. The tank scanner and the frost monitor take no
action on it (R76, R97). -/
def tellOwner (i : Fin 16) (k : Notice) (n : Node) : Node :=
  match n.owner i with
  | some .pump => pumpCheck n
  | some .heater => heaterNotice i k n
  | some .lights => lightNotice i k n
  | some .aux => auxNotice i k n
  | _ => n

/-- An output trips and its owner is told (R174). -/
def tripAndTell (i : Fin 16) (n : Node) : Node :=
  let r := tripOutput i n
  tellOwner i r.2 r.1

/-- CHANNEL_RESET on one OUT channel (R175). -/
def resetOutput (i : Fin 16) (n : Node) : Node :=
  let heldOff := isHeldOff (n.chan i)
  let n := n.setChan i { n.chan i with trips := 0 }
  if heldOff then tellOwner i .reset (releaseOutput i n) else n

end Sys2Proof.Machine
end

