-- ==== Sys2Proof/Machine/BatteryRows.lean ====
section
/-! DEFINITION. The rows of the battery accountant (chapter 1). -/

namespace Sys2Proof.Machine

/-- A time after a moment, if there is one. -/
def later (t : Option Nat) (k : Nat) : Option Nat := t.map (· + k)

/-- The sample is due (R2). -/
def sampleDue (n : Node) : Bool := n.batteryCfg.isSome && n.reached n.battery.due

/-- MEASUREMENT_EVENT (R2). -/
def execMeasurementEvent (dt : Nat) (shunt : Int) (volt : Nat) (s : State) : Host.Outcome State Fault Refusal :=
  nodeEvent dt sampleDue
    (fun n =>
      match n.batteryCfg with
      | some c => measure c shunt volt n
      | none => n) s

/-- A whole minute has passed since the sync (R14). -/
def minuteDue (n : Node) : Bool :=
  decide (n.battery.minutes < counterTop) && n.reached (later n.battery.syncAt (60000 * (n.battery.minutes + 1)))

/-- MINUTES_SINCE_SYNC_TICK (R14). -/
def execMinutesSinceSyncTick (dt : Nat) (s : State) : Host.Outcome State Fault Refusal :=
  nodeEvent dt minuteDue (fun n => n.setBattery { n.battery with minutes := satSucc n.battery.minutes }) s

/-- ALLOWANCE_PERIOD (R27). -/
def execAllowancePeriod (dt : Nat) (s : State) : Host.Outcome State Fault Refusal :=
  nodeEvent dt (fun n => n.isActive && n.has .battery && n.reached (later n.pub.allowance allowancePeriodMs))
    (fun n => n.setEv { n.ev with allowance := true }) s

end Sys2Proof.Machine
end

