-- ==== Sys2Proof/Machine/ViewRows.lean ====
section
/-! DEFINITION. The rows of the station view (chapter 2). -/

namespace Sys2Proof.Machine

/-- Entry to ACTIVE (R30): the jobs that deferred a claim file it, and the wait service runs. -/
def enterActive (n : Node) : Node :=
  let n : Node := { n with state := some .active }
  let n := (n.setView { n.view with listen := none }).wantWait
  let n := match n.pumpCfg with
    | some c => pumpBegin c n
    | none => n
  heaterCheck n

/-- LISTENING_TIMER_EXPIRY (R30). -/
def execListeningTimerExpiry (dt : Nat) (s : State) : Host.Outcome State Fault Refusal :=
  nodeEvent dt (fun n => n.state == some .listening && n.reached n.view.listen) enterActive s

/-- DISPATCH_PRESENCE (R37). -/
def execDispatchPresence (dt : Nat) (s : State) : Host.Outcome State Fault Refusal :=
  dispatchEvent dt (fun f => kindOf f == .presence) (fun _ n => n) s

/-- DISPATCH_DRAW (R37). -/
def execDispatchDraw (dt : Nat) (s : State) : Host.Outcome State Fault Refusal :=
  dispatchEvent dt (fun f => kindOf f == .draw) (fun _ n => n) s

/-- DISPATCH_ALLOWANCE (R40). -/
def execDispatchAllowance (dt : Nat) (s : State) : Host.Outcome State Fault Refusal :=
  dispatchEvent dt (fun f => kindOf f == .allowance) (fun _ n => n) s

/-- DISPATCH_TANKS (R37): the pump evaluates its inhibits (R90). -/
def execDispatchTanks (dt : Nat) (s : State) : Host.Outcome State Fault Refusal :=
  dispatchEvent dt (fun f => kindOf f == .tanks) (fun _ n => pumpCheck n) s

/-- DISPATCH_CLIMATE (R37): the frost monitor evaluates its conditions (R100). -/
def execDispatchClimate (dt : Nat) (s : State) : Host.Outcome State Fault Refusal :=
  dispatchEvent dt (fun f => kindOf f == .climate) (fun _ n => frostCheck n) s

/-- DISPATCH_MOTION (R37): the light controller evaluates the courtesy trigger (R163). -/
def execDispatchMotion (dt : Nat) (s : State) : Host.Outcome State Fault Refusal :=
  dispatchEvent dt (fun f => kindOf f == .motion) (fun _ n => courtesyCheck n) s

/-- DISPATCH_LIGHTS (R37). -/
def execDispatchLights (dt : Nat) (s : State) : Host.Outcome State Fault Refusal :=
  dispatchEvent dt (fun f => kindOf f == .lights) (fun _ n => n) s

/-- DISPATCH_REPLY (R37). -/
def execDispatchReply (dt : Nat) (s : State) : Host.Outcome State Fault Refusal :=
  dispatchEvent dt (fun f => kindOf f == .reply) (fun _ n => n) s

/-- DISPATCH_REPORT (R37). -/
def execDispatchReport (dt : Nat) (s : State) : Host.Outcome State Fault Refusal :=
  dispatchEvent dt (fun f => kindOf f == .report) (fun _ n => n) s

/-- PEER_AGE_OUT (R38). -/
def execPeerAgeOut (dt station : Nat) (s : State) : Host.Outcome State Fault Refusal :=
  nodeEvent dt (agedOut station) (removePeer station) s

/-- ORPHAN_EXPIRY (R42). -/
def execOrphanExpiry (dt : Nat) (s : State) : Host.Outcome State Fault Refusal := nodeEvent dt orphanDue enterOrphan s

/-- PRESENCE_PERIOD (R34). -/
def execPresencePeriod (dt : Nat) (s : State) : Host.Outcome State Fault Refusal :=
  nodeEvent dt (fun n => sendsPresence n && n.reached (later n.pub.presence presencePeriodMs))
    (fun n => n.setEv { n.ev with presence := true }) s

/-! ## The claim table's own rows (chapter 3) -/

/-- DRAW_PERIOD (R52): in LISTENING while the broadcast list is not empty. -/
def execDrawPeriod (dt : Nat) (s : State) : Host.Outcome State Fault Refusal :=
  nodeEvent dt
    (fun n => sendsDraw n && (n.isActive || broadcastList n != []) && n.reached (later n.pub.draw drawPeriodMs))
    (fun n => n.setEv { n.ev with draw := true }) s

/-- The claims of a settle end are decided, and the jobs of those granted are told, in rank order (R62). -/
def settleEnd (n : Node) : Node :=
  let r := settleClaims n
  r.2.foldl (fun n i => tellGranted i n) r.1

/-- SETTLE_END (R62). -/
def execSettleEnd (dt : Nat) (s : State) : Host.Outcome State Fault Refusal :=
  nodeEvent dt (fun n => settling n != []) settleEnd s

/-- The wait deadline of a slot passes while its claim is WAITING or ASKING (R63). -/
def deadlinePasses (i : Fin 8) (n : Node) : Bool :=
  ((n.claim i).state == .waiting || (n.claim i).state == .asking) && n.reached (n.claim i).deadline

/-- WAIT_DEADLINE (R63). -/
def execWaitDeadline (dt : Nat) (slot : Fin 8) (s : State) : Host.Outcome State Fault Refusal :=
  nodeEvent dt (deadlinePasses slot) (fun n => tellNoEnergy slot (fallBack slot n)) s

end Sys2Proof.Machine
end

