-- ==== Sys2Proof/Machine/TankRows.lean ====
section
/-! DEFINITION. The rows of the tank scanner and the pump (chapter 4). -/

namespace Sys2Proof.Machine

/-- The start of a scan (R76). -/
def scanBegin (n : Node) : Node :=
  let n := excite 100 n
  n.setTanks { n.tanks with due := n.after scanPeriod, complete := n.after scanTime }

/-- SCAN_START (R76). -/
def execScanStart (dt : Nat) (s : State) : Host.Outcome State Fault Refusal :=
  nodeEvent dt (fun n => n.reached n.tanks.due) scanBegin s

/-- The completion of a scan (R76). -/
def scanEnd (n : Node) : Node :=
  let n := finishScan n
  n.setTanks { n.tanks with complete := none }

/-- SCAN_COMPLETE (R76). -/
def execScanComplete (dt : Nat) (s : State) : Host.Outcome State Fault Refusal :=
  nodeEvent dt (fun n => n.reached n.tanks.complete) scanEnd s

/-- TANKS_PERIOD (R85). -/
def execTanksPeriod (dt : Nat) (s : State) : Host.Outcome State Fault Refusal :=
  nodeEvent dt
    (fun n => n.isActive && (n.has .tanks || n.has .frost) && n.reached (later n.pub.tanks tanksPeriodMs))
    (fun n => n.setEv { n.ev with tanks := true }) s

/-- A valid PUMP_MODE (R87). -/
def pumpSwitch (c : PumpCfg) (on : Bool) (n : Node) : Node :=
  let n := n.setPump { n.pump with modeOn := on }
  if on then pumpBegin c n
  else if n.pump.state = .waiting ∨ n.pump.state = .running ∨ n.pump.state = .inhibited then
    pumpTo .idle none (pumpStop c n)
  else n

/-- PUMP_MODE executed (R87). -/
def pumpModeAct (_ : Nat) (b : CommandBody) (n : Node) : Outcome :=
  match n.pumpCfg with
  | none => give .refusedNoDuty n
  | some c =>
    if argOf b 0 = 0 then give .done (pumpSwitch c false n)
    else if argOf b 0 = 1 then give .done (pumpSwitch c true n)
    else give .refusedRange n

/-- PUMP_MODE (R87). -/
def execPumpMode (dt : Nat) (s : State) : Host.Outcome State Fault Refusal :=
  commandEvent dt 0x18 (fun _ => true) (runCommand (some .pump) (hasLength 1) pumpModeAct) s

/-- PUMP_RESET executed (R94). -/
def pumpResetAct (_ : Nat) (_ : CommandBody) (n : Node) : Outcome :=
  match n.pumpCfg with
  | none => give .refusedNoDuty n
  | some c =>
    if n.pump.state = .dryFault then
      give .done (
        match pumpInhibit c n with
        | some r => pumpTo .inhibited (some r) n
        | none => pumpFile c (pumpTo .idle none n))
    else give .refusedState n

/-- PUMP_RESET (R94). -/
def execPumpReset (dt : Nat) (s : State) : Host.Outcome State Fault Refusal :=
  commandEvent dt 0x19 (fun _ => true) (runCommand (some .pump) (hasLength 0) pumpResetAct) s

/-- The pump is RUNNING and one of its clocks has reached its limit. -/
def pumpClock (clock : Pump → Option Nat) (limit : PumpCfg → Nat) (n : Node) : Bool :=
  match n.pumpCfg with
  | some c => n.pump.state == .running && n.reached (later (clock n.pump) (limit c))
  | none => false

/-- A pump clock has run out (R93). -/
def pumpDryOut (n : Node) : Node :=
  match n.pumpCfg with
  | some c => pumpDry c n
  | none => n

/-- PUMP_RUN_TIMEOUT (R93). -/
def execPumpRunTimeout (dt : Nat) (s : State) : Host.Outcome State Fault Refusal :=
  nodeEvent dt (pumpClock (·.run) (·.maxRun)) pumpDryOut s

/-- PUMP_LOW_TIMEOUT (R93). -/
def execPumpLowTimeout (dt : Nat) (s : State) : Host.Outcome State Fault Refusal :=
  nodeEvent dt (pumpClock (·.low) fun _ => lowLimit) pumpDryOut s

end Sys2Proof.Machine
end

