-- ==== Sys2Proof/Machine/FrostRows.lean ====
section
/-! DEFINITION. The rows of the frost monitor (chapter 5). -/

namespace Sys2Proof.Machine

/-- The grace ends: no source gives a valid reading, and 60 000 ms have passed (R98). -/
def graceEnds (n : Node) : Bool :=
  match n.frostCfg with
  | some c => sourceTemp c n == none && !inGrace n
  | none => false

/-- FROST_GRACE_END (R98, R100). -/
def execFrostGraceEnd (dt : Nat) (s : State) : Host.Outcome State Fault Refusal := nodeEvent dt graceEnds frostCheck s

/-- The countdown expires (R101). -/
def countdownEnds (n : Node) : Bool := n.frost.state == .countdown && n.reached n.frost.countdown

/-- The countdown's expiry: the OPEN move begins while the water is cold without heat; else the monitor is ARMED
(R101). -/
def countdownEnd (n : Node) : Node :=
  match n.frostCfg with
  | some c => if waterCold c n && !heatPresent n then beginMove .dumping c.openCoil n else frostTo .armed n
  | none => n

/-- COUNTDOWN_EXPIRY (R101). -/
def execCountdownExpiry (dt : Nat) (s : State) : Host.Outcome State Fault Refusal :=
  nodeEvent dt countdownEnds countdownEnd s

/-- VALVE_MOVE_END (R97). -/
def execValveMoveEnd (dt : Nat) (s : State) : Host.Outcome State Fault Refusal :=
  nodeEvent dt (fun n => n.reached n.frost.moveEnd)
    (fun n =>
      match n.frostCfg with
      | some c => endMove c n
      | none => n) s

/-- A frost command executed; before the first accepted state of the contact each is refused (R108). -/
def frostAct (act : FrostCfg → Node → Outcome) (_ : Nat) (_ : CommandBody) (n : Node) : Outcome :=
  match n.frostCfg with
  | none => give .refusedNoDuty n
  | some c => if contactKnown c n then act c n else give .refusedState n

/-- FROST_ARM by the state (R105). -/
def armAct (c : FrostCfg) (n : Node) : Outcome :=
  match n.frost.state with
  | .armed | .countdown => give .done n
  | .valveFault | .disarmed => give .done (stateFromContact c n)
  | .dumping | .drained | .closing => give .refusedState n

/-- FROST_DISARM by the state (R105). -/
def disarmAct (_ : FrostCfg) (n : Node) : Outcome :=
  match n.frost.state with
  | .armed | .countdown => give .done (frostTo .disarmed n)
  | .disarmed => give .done n
  | .dumping | .drained | .closing | .valveFault => give .refusedState n

/-- FROST_CLOSE by the state (R103, R105). -/
def closeAct (c : FrostCfg) (n : Node) : Outcome :=
  if n.frost.state = .drained then
    match tempUsed c n with
    | some t =>
      if c.threshold + closeMargin ≤ t then give .accepted (beginMove .closing c.closeCoil n)
      else give .refusedInterlock n
    | none => give .refusedInterlock n
  else give .refusedState n

/-- FROST_ARM (R105). -/
def execFrostArm (dt : Nat) (s : State) : Host.Outcome State Fault Refusal :=
  commandEvent dt 0x20 (fun _ => true) (runCommand (some .frost) (hasLength 0) (frostAct armAct)) s

/-- FROST_DISARM (R105). -/
def execFrostDisarm (dt : Nat) (s : State) : Host.Outcome State Fault Refusal :=
  commandEvent dt 0x21 (fun _ => true) (runCommand (some .frost) (hasLength 0) (frostAct disarmAct)) s

/-- FROST_CLOSE (R103). -/
def execFrostClose (dt : Nat) (s : State) : Host.Outcome State Fault Refusal :=
  commandEvent dt 0x22 (fun _ => true) (runCommand (some .frost) (hasLength 0) (frostAct closeAct)) s

end Sys2Proof.Machine
end

