-- ==== Sys2Proof/Machine/HeaterRows.lean ====
section
/-! DEFINITION. The rows of the heater controller (chapter 6). -/

namespace Sys2Proof.Machine

/-- An operation of the heater at a node that holds the duty. -/
def onHeater (f : HeaterCfg → Node → Node) (n : Node) : Node :=
  match n.heaterCfg with
  | some c => f c n
  | none => n

/-- A phase of the heater has reached its end. -/
def phaseEnds (s : HeaterState) (n : Node) : Bool := n.heater.state == s && n.reached n.heater.phaseEnd

/-- HEATER_MODE's result: a clamped HEAT setpoint is the detail (R111). -/
def modeResult (before : HeaterState) (mode : HeaterMode) (asked : Int) (n : Node) : Outcome :=
  if before = .cooldown then give .accepted n
  else if mode = .heat ∧ n.heater.setpoint ≠ asked then
    { result := .doneClamped, detail := n.heater.setpoint, node := n }
  else give .done n

/-- HEATER_MODE executed (R111, R112). -/
def heaterModeAct (_ : Nat) (b : CommandBody) (n : Node) : Outcome :=
  match n.heaterCfg, modeOfCode (argOf b 0) with
  | none, _ => give .refusedNoDuty n
  | some _, none => give .refusedRange n
  | some c, some mode =>
    if n.heater.state = .lockout then give .refusedState n
    else modeResult n.heater.state mode (signedAt b.args 1) (takeMode c mode (signedAt b.args 1) n)

/-- HEATER_MODE (R111, R112). -/
def execHeaterMode (dt : Nat) (s : State) : Host.Outcome State Fault Refusal :=
  commandEvent dt 0x10 (fun _ => true) (runCommand (some .heater) (hasLength 3) heaterModeAct) s

/-- HEATER_RESET executed (R126). -/
def heaterResetAct (_ : Nat) (_ : CommandBody) (n : Node) : Outcome :=
  match n.heater.state, n.heater.lockout with
  | .lockout, _ => give .done (resetHeater n)
  | .cooldown, true => give .accepted (resetHeater n)
  | _, _ => give .refusedState n

/-- HEATER_RESET (R126). -/
def execHeaterReset (dt : Nat) (s : State) : Host.Outcome State Fault Refusal :=
  commandEvent dt 0x11 (fun _ => true) (runCommand (some .heater) (hasLength 0) heaterResetAct) s

/-- PURGE_END (R115). -/
def execPurgeEnd (dt : Nat) (s : State) : Host.Outcome State Fault Refusal :=
  nodeEvent dt (phaseEnds .purge) (onHeater enterGlow) s

/-- GLOW_END (R115). -/
def execGlowEnd (dt : Nat) (s : State) : Host.Outcome State Fault Refusal :=
  nodeEvent dt (phaseEnds .glow) (onHeater enterIgnite) s

/-- IGNITION_LIMIT (R116). -/
def execIgnitionLimit (dt : Nat) (s : State) : Host.Outcome State Fault Refusal :=
  nodeEvent dt (phaseEnds .ignite) (onHeater fun c n => failAttempt c .noFlame n) s

/-- The next pulse of the present rate falls due in IGNITE or RUN (R117). -/
def pulseDue (n : Node) : Bool :=
  let h := n.heater
  (h.state == .ignite || h.state == .run) && decide (h.rate ≠ 0)
    && decide (h.rateStart + pulseOffset h.rate h.pulses ≤ n.now)

/-- A fuel pulse begins (R117). -/
def pulseBegin (c : HeaterCfg) (n : Node) : Node :=
  let n := ask c.fuel 100 n
  n.setHeater { n.heater with pulses := n.heater.pulses + 1, pulseEnd := n.after pulseTime }

/-- A fuel pulse ends (R117). -/
def pulseStop (c : HeaterCfg) (n : Node) : Node :=
  let n := ask c.fuel 0 n
  n.setHeater { n.heater with pulseEnd := none }

/-- FUEL_PULSE_START (R117). -/
def execFuelPulseStart (dt : Nat) (s : State) : Host.Outcome State Fault Refusal :=
  nodeEvent dt pulseDue (onHeater pulseBegin) s

/-- FUEL_PULSE_END (R117). -/
def execFuelPulseEnd (dt : Nat) (s : State) : Host.Outcome State Fault Refusal :=
  nodeEvent dt (fun n => n.reached n.heater.pulseEnd) (onHeater pulseStop) s

/-- The level hold expires, and the thermostat evaluates (R118). -/
def holdOver (c : HeaterCfg) (n : Node) : Node := thermostat c (n.setHeater { n.heater with holdEnd := none })

/-- LEVEL_HOLD_EXPIRY (R118). -/
def execLevelHoldExpiry (dt : Nat) (s : State) : Host.Outcome State Fault Refusal :=
  nodeEvent dt (fun n => n.heater.state == .run && n.reached n.heater.holdEnd) (onHeater holdOver) s

/-- SATISFIED_EXPIRY (R121). -/
def execSatisfiedExpiry (dt : Nat) (s : State) : Host.Outcome State Fault Refusal :=
  nodeEvent dt (fun n => n.heater.state == .run && n.reached (later n.heater.satisfied satisfiedTime))
    (onHeater fun c n => enterCooldown c (setReason .satisfied n)) s

/-- FLAME_LOSS_EXPIRY (R123). -/
def execFlameLossExpiry (dt : Nat) (s : State) : Host.Outcome State Fault Refusal :=
  nodeEvent dt (fun n => n.heater.state == .run && n.reached (later n.heater.loss lossTime)) (onHeater flameLost) s

/-- COOLDOWN_LIMIT (R126). -/
def execCooldownLimit (dt : Nat) (s : State) : Host.Outcome State Fault Refusal :=
  nodeEvent dt (phaseEnds .cooldown) (onHeater endCooldown) s

/-- CLIMATE_PERIOD (R130). -/
def execClimatePeriod (dt : Nat) (s : State) : Host.Outcome State Fault Refusal :=
  nodeEvent dt (fun n => n.isActive && n.has .heater && n.reached (later n.pub.climate climatePeriodMs))
    (fun n => n.setEv { n.ev with climate := true }) s

end Sys2Proof.Machine
end

