-- ==== Sys2Proof/Machine/MotionRows.lean ====
section
/-! DEFINITION. The rows of the motion controller, the bridges and the wind record (chapters 7 and 9). -/

namespace Sys2Proof.Machine

/-- The duty of a unit. -/
def unitDuty : MotionUnit → Duty
  | .awning => .awning
  | .step => .step

/-- The code of a unit's command (section 12.3). -/
def unitCode : MotionUnit → Nat
  | .awning => 0x28
  | .step => 0x29

/-- The allowed lengths: EXTEND_TO has a target of two bytes, every other action has none (section 12.3). -/
def motionLength (args : List Byte) : Bool :=
  if byteAt args 0 = 4 then args.length == 3 else args.length == 1

/-- The action a command names, when it is a move the unit has (R136, check 2). -/
def actionOf (u : MotionUnit) (args : List Byte) : Option Action :=
  if byteAt args 0 = 1 then some .extend
  else if byteAt args 0 = 2 then some .retract
  else if byteAt args 0 = 4 ∧ u = .awning ∧ wordAt args 1 ≤ 1000 then some (.extendTo (wordAt args 1))
  else none

/-- A target is asked for while the position is unknown (R136, check 5). -/
def needsPosition (a : Action) : Bool :=
  match a with
  | .extendTo _ => true
  | _ => false

/-- The interlock views that forbid a unit to extend (R136, check 6). -/
def interlocked (u : MotionUnit) (n : Node) : Bool := n.view.travel || (u == .awning && n.view.wind)

/-- A move request checked in the order of R136 and placed (R137). -/
def moveAct (u : MotionUnit) (source : Nat) (b : CommandBody) (n : Node) : Outcome :=
  match n.unitCfg u, actionOf u b.args with
  | none, _ => give .refusedNoDuty n
  | some _, none => give .refusedRange n
  | some c, some a =>
    if !n.isActive || (n.unit u).state == .fault || (needsPosition a && (n.unit u).pos.isNone) then
      give .refusedState n
    else if isExtend a && interlocked u n then give .refusedInterlock n
    else give .accepted (placeRequest c u a (.command source b.tag) n)

/-- STOP executed (R136, R138). -/
def stopAct (u : MotionUnit) (_ : Nat) (_ : CommandBody) (n : Node) : Outcome :=
  match n.unitCfg u with
  | none => give .refusedNoDuty n
  | some c =>
    match stopUnit c u n with
    | some n' => give .done n'
    | none => give .refusedInterlock n

/-- A motion command row: the arguments' first byte is one of the row's actions. -/
def motionCommand (dt : Nat) (u : MotionUnit) (mine : Nat → Bool) (act : Nat → CommandBody → Node → Outcome) (s : State) :
    Host.Outcome State Fault Refusal :=
  commandEvent dt (unitCode u) (fun args => mine (byteAt args 0)) (runCommand (some (unitDuty u)) motionLength act) s

/-- AWNING_EXTEND (R137); an action that is none of the four is refused here (log entry 8). -/
def execAwningExtend (dt : Nat) (s : State) : Host.Outcome State Fault Refusal :=
  motionCommand dt .awning (fun k => k != 2 && k != 3 && k != 4) (moveAct .awning) s

/-- AWNING_RETRACT (R137). -/
def execAwningRetract (dt : Nat) (s : State) : Host.Outcome State Fault Refusal :=
  motionCommand dt .awning (· == 2) (moveAct .awning) s

/-- AWNING_EXTEND_TO (R137). -/
def execAwningExtendTo (dt : Nat) (s : State) : Host.Outcome State Fault Refusal :=
  motionCommand dt .awning (· == 4) (moveAct .awning) s

/-- AWNING_STOP (R138). -/
def execAwningStop (dt : Nat) (s : State) : Host.Outcome State Fault Refusal :=
  motionCommand dt .awning (· == 3) (stopAct .awning) s

/-- STEP_EXTEND (R137); an action that the step does not have is refused here (log entry 8). -/
def execStepExtend (dt : Nat) (s : State) : Host.Outcome State Fault Refusal :=
  motionCommand dt .step (fun k => k != 2 && k != 3) (moveAct .step) s

/-- STEP_RETRACT (R137). -/
def execStepRetract (dt : Nat) (s : State) : Host.Outcome State Fault Refusal :=
  motionCommand dt .step (· == 2) (moveAct .step) s

/-- STEP_STOP (R138). -/
def execStepStop (dt : Nat) (s : State) : Host.Outcome State Fault Refusal :=
  motionCommand dt .step (· == 3) (stopAct .step) s

/-! ## Moves -/

/-- An operation of a unit at a node that holds its duty. -/
def onUnit (u : MotionUnit) (f : UnitCfg → Node → Node) (n : Node) : Node :=
  match n.unitCfg u with
  | some c => f c n
  | none => n

/-- A test of a unit at a node that holds its duty. -/
def testUnit (u : MotionUnit) (p : UnitCfg → Bool) (n : Node) : Bool := (n.unitCfg u).any p

/-- DWELL_END (R141). -/
def execDwellEnd (dt : Nat) (unit : MotionUnit) (s : State) : Host.Outcome State Fault Refusal :=
  nodeEvent dt
    (fun n => testUnit unit (fun _ => (n.unit unit).state == .reversing && n.reached (n.unit unit).dwellEnd) n)
    (fun n => beginDrive unit (n.unit unit).dir n) s

/-- The target from 1 to 999 of the unit's ACTIVE entry. -/
def activeTarget (u : MotionUnit) (n : Node) : Option Nat :=
  (n.motion.list.find? fun e => e.unit == u && e.state == .active).bind fun e =>
    match e.action with
    | .extendTo t => if 1 ≤ t ∧ t ≤ 999 then some t else none
    | _ => none

/-- The estimate has reached the target in the drive direction (R143). -/
def targetReached (u : MotionUnit) (c : UnitCfg) (n : Node) : Bool :=
  match activeTarget u n, estimate c (n.unit u) n.now with
  | some t, some p => isDriving (n.unit u) && (if (n.unit u).dir = .extend then t ≤ p else p ≤ t)
  | _, _ => false

/-- The move ends at its target: BRAKE, PARTIAL at the target, DONE (R143). -/
def targetEnd (u : MotionUnit) (c : UnitCfg) (n : Node) : Node :=
  finishMove c u (atRest .partway .none (activeTarget u n)) (bridgeBrake u n)

/-- TARGET_REACHED (R143). -/
def execTargetReached (dt : Nat) (unit : MotionUnit) (s : State) : Host.Outcome State Fault Refusal :=
  nodeEvent dt (fun n => testUnit unit (targetReached unit · n) n) (onUnit unit (targetEnd unit)) s

/-- The bridge drives. -/
def bridgeDrives (u : MotionUnit) (n : Node) : Bool :=
  (n.bridge u).state == .forward || (n.bridge u).state == .reverse

/-- The jam clock at a current reading (R144). -/
def jamReading (u : MotionUnit) (mA : Nat) (c : UnitCfg) (n : Node) : Node :=
  let m := n.unit u
  n.setUnit u { m with jam := if c.jam < mA ∧ isDriving m then some (m.jam.getD n.now) else none }

/-- One current reading of a bridge that drives, and the moment of the next one (R179). -/
def currentReading (u : MotionUnit) (mA : Nat) (c : UnitCfg) (n : Node) : Node :=
  let b := n.bridge u
  jamReading u mA c (n.setBridge u { b with due := later b.due readingPeriod })

/-- BRIDGE_CURRENT_READING (R144, R179). -/
def execBridgeCurrentReading (dt : Nat) (unit : MotionUnit) (mA : Nat) (s : State) :
    Host.Outcome State Fault Refusal :=
  nodeEvent dt (fun n => bridgeDrives unit n && n.reached (n.bridge unit).due) (onUnit unit (currentReading unit mA)) s

/-- JAM (R144). -/
def execJam (dt : Nat) (unit : MotionUnit) (s : State) : Host.Outcome State Fault Refusal :=
  nodeEvent dt
    (fun n => testUnit unit (fun _ => isDriving (n.unit unit) && n.reached (later (n.unit unit).jam jamTime)) n)
    (onUnit unit fun c n => faultUnit c unit .jam .jam n) s

/-- MOTION_TIMEOUT (R144). -/
def execMotionTimeout (dt : Nat) (unit : MotionUnit) (s : State) : Host.Outcome State Fault Refusal :=
  nodeEvent dt
    (fun n => testUnit unit (fun c => isDriving (n.unit unit) && n.reached (later (n.unit unit).run (unitTimeout c))) n)
    (onUnit unit fun c n => faultUnit c unit .timeout .timeout n) s

/-- The hard fault of a bridge (R180), and the end of its unit's move, if one is under way (R144; log entry 31). -/
def bridgeFault (u : MotionUnit) (c : UnitCfg) (n : Node) : Node :=
  let moves := isMoving (n.unit u) || bridgeDrives u n
  let n := n.setBridge u { n.bridge u with state := .fault, coastSince := some n.now, pending := none, due := none }
  let n := setFlag .bridgeFault n
  if moves then faultUnit c u .jam .bridgeFault n else n

/-- BRIDGE_OVERCURRENT (R180), whatever the bridge does unless it is in BRIDGE_FAULT already. -/
def execBridgeOvercurrent (dt : Nat) (unit : MotionUnit) (mA : Nat) (s : State) :
    Host.Outcome State Fault Refusal :=
  nodeEvent dt (fun n => (n.bridge unit).state != .fault && decide (bridgeLimit < mA)) (onUnit unit (bridgeFault unit)) s

/-- A pending drive's 500 ms in COAST are complete (R179). -/
def dwellDone (u : MotionUnit) (n : Node) : Bool :=
  let b := n.bridge u
  b.pending.isSome && b.state == .coast && n.reached (later b.coastSince coastDwell)

/-- BRIDGE_DWELL_COMPLETE (R179). -/
def execBridgeDwellComplete (dt : Nat) (unit : MotionUnit) (s : State) : Host.Outcome State Fault Refusal :=
  nodeEvent dt (dwellDone unit)
    (fun n =>
      match (n.bridge unit).pending with
      | some d => n.setBridge unit (driving n.now (n.bridge unit) d)
      | none => n) s

/-- MOTION_PERIOD (R152): every 250 ms while a unit moves, every 1 000 ms otherwise. -/
def motionPeriodMs (n : Node) : Nat := if isMoving n.motion.awning || isMoving n.motion.step then 250 else 1000

/-- MOTION_PERIOD (R152). -/
def execMotionPeriod (dt : Nat) (s : State) : Host.Outcome State Fault Refusal :=
  nodeEvent dt (fun n => n.isActive && hasMotion n && n.reached (later n.pub.motion (motionPeriodMs n)))
    (fun n => n.setEv { n.ev with motion := true }) s

/-! ## Wind -/

/-- A quarter-second count is handed to its owner, and a new count starts (R149, R172). -/
def handCount (ch : Fin 16) (n : Node) : Node :=
  let c := n.chan ch
  let n := n.setChan ch { c with count := 0, due := later c.due quarter }
  if n.windCfg.any (·.channel == ch) then n.setWind { n.wind with counts := keepCount c.count n.wind.counts } else n

/-- PULSE_COUNT_PERIOD (R172). -/
def execPulseCountPeriod (dt : Nat) (ch : Fin 16) (s : State) : Host.Outcome State Fault Refusal :=
  nodeEvent dt (fun n => n.role ch == .pulse && n.reached (n.chan ch).due) (handCount ch) s

/-- A wind evaluation: the speed, the gust run, and the lockout (R149, R150). -/
def evaluateWind (c : WindCfg) (n : Node) : Node :=
  let speed := windSpeed c.factor n.wind.counts
  let gust := if c.limit ≤ speed then n.wind.gust + 1 else 0
  refreshWind (n.setWind { n.wind with
    speed := speed
    gust := gust
    lockoutEnd := if gustRun ≤ gust then n.after lockoutTime else n.wind.lockoutEnd
    due := later n.wind.due quarter })

/-- WIND_EVALUATION (R149). -/
def execWindEvaluation (dt : Nat) (s : State) : Host.Outcome State Fault Refusal :=
  nodeEvent dt (fun n => n.reached n.wind.due)
    (fun n =>
      match n.windCfg with
      | some c => evaluateWind c n
      | none => n) s

/-- WIND_LOCKOUT_END (R150). -/
def execWindLockoutEnd (dt : Nat) (s : State) : Host.Outcome State Fault Refusal :=
  nodeEvent dt (fun n => n.reached n.wind.lockoutEnd)
    (fun n => refreshWind (n.setWind { n.wind with lockoutEnd := none })) s

end Sys2Proof.Machine
end

