-- ==== Sys2Proof/Machine/LightRows.lean ====
section
/-! DEFINITION. The rows of the light controller (chapter 8). -/

namespace Sys2Proof.Machine

/-- The mask names a light channel that the image defines (R160). -/
def maskNames (mask count : Nat) : Bool := (List.range count).any fun i => mask.testBit i

/-- LIGHT_LEVEL executed (R160). -/
def lightLevelAct (_ : Nat) (b : CommandBody) (n : Node) : Outcome :=
  let mask := argOf b 0
  let asked := argOf b 1
  if maskNames mask n.lamps.length then
    let n := n.mapLamps fun i _ l => if mask.testBit i then commandTarget (min asked 100) l else l
    if 100 < asked then { result := .doneClamped, detail := 100, node := n } else give .done n
  else give .refusedRange n

/-- LIGHT_LEVEL (R160). -/
def execLightLevel (dt : Nat) (s : State) : Host.Outcome State Fault Refusal :=
  commandEvent dt 0x01 (fun _ => true) (runCommand (some .lights) (hasLength 2) lightLevelAct) s

/-- SCENE executed (R160). -/
def sceneAct (_ : Nat) (b : CommandBody) (n : Node) : Outcome :=
  let k := argOf b 0
  if 1 ≤ k ∧ k ≤ 6 then give .done (n.mapLamps fun _ c l => commandTarget (c.scenes.getD (k - 1) 0) l)
  else give .refusedRange n

/-- SCENE (R160). -/
def execScene (dt : Nat) (s : State) : Host.Outcome State Fault Refusal :=
  commandEvent dt 0x02 (fun _ => true) (runCommand (some .lights) (hasLength 1) sceneAct) s

/-- LIGHTS_ALL_OFF executed (R160). -/
def allOffAct (_ : Nat) (_ : CommandBody) (n : Node) : Outcome := give .done (n.mapLamps fun _ _ l => commandTarget 0 l)

/-- LIGHTS_ALL_OFF (R160). -/
def execLightsAllOff (dt : Nat) (s : State) : Host.Outcome State Fault Refusal :=
  commandEvent dt 0x03 (fun _ => true) (runCommand (some .lights) (hasLength 0) allOffAct) s

/-- A light channel by its number. -/
def lampAt (light : Fin 8) (n : Node) : Option (LightCfg × Light) := n.lamps[light.val]?

/-- The next step of a channel's fade falls due (R159). -/
def stepDue (light : Fin 8) (n : Node) : Bool := (lampAt light n).any fun x => n.reached (nextStep x.1 x.2)

/-- One fade step: the level, the output, and a frame at the fade's end (R159, R168). -/
def takeStep (light : Fin 8) (n : Node) : Node :=
  match lampAt light n with
  | none => n
  | some x =>
    let l := fadeOne x.2
    let n := ask x.1.output l.level n
    let n := n.mapLamps fun i _ old => if i = light.val then l else old
    if l.level = l.goal then n.setEv { n.ev with lights := true } else n

/-- FADE_STEP (R159). -/
def execFadeStep (dt : Nat) (light : Fin 8) (s : State) : Host.Outcome State Fault Refusal :=
  nodeEvent dt (stepDue light) (takeStep light) s

/-- The press of a wall switch has lasted 500 ms (R162). -/
def pressDue (light : Fin 8) (n : Node) : Bool :=
  (lampAt light n).any fun x =>
    match x.2.press with
    | .down since => decide (since + pressLimit ≤ n.now)
    | _ => false

/-- LONG_PRESS (R162). -/
def execLongPress (dt : Nat) (light : Fin 8) (s : State) : Host.Outcome State Fault Refusal :=
  nodeEvent dt (pressDue light) (fun n => n.mapLamps fun i _ l => if i = light.val then beginRamp l else l) s

/-- The courtesy hold expires (R163). -/
def holdExpires (n : Node) : Bool :=
  match n.lights.courtesy with
  | .hold t => decide (t ≤ n.now)
  | _ => false

/-- COURTESY_HOLD_EXPIRY (R163). -/
def execCourtesyHoldExpiry (dt : Nat) (s : State) : Host.Outcome State Fault Refusal :=
  nodeEvent dt holdExpires (fun n => n.setLights { n.lights with courtesy := .off }) s

/-- LIGHTS_PERIOD (R168). -/
def execLightsPeriod (dt : Nat) (s : State) : Host.Outcome State Fault Refusal :=
  nodeEvent dt (fun n => n.isActive && n.has .lights && n.reached (later n.pub.lights lightsPeriodMs))
    (fun n => n.setEv { n.ev with lights := true }) s

end Sys2Proof.Machine
end

