-- ==== Sys2Proof/Machine/BankRows.lean ====
section
/-! DEFINITION. The rows of the channel bank (chapter 9). -/

namespace Sys2Proof.Machine

/-! ## Inputs -/

/-- A channel that reads its pin through pull device and polarity (R171, R172). -/
def isDigital (ch : Fin 16) (n : Node) : Bool := n.role ch == .inp || n.role ch == .pulse

/-- A new pin level: a changed instant state starts or restarts the filter clock of an IN channel (R171). -/
def pinChange (ch : Fin 16) (level : PinLevel) (n : Node) : Node :=
  let cfg := n.chanCfg ch
  let state := instantState cfg level n.free
  let n : Node := { n with free := if readsFree cfg level then n.free + 1 else n.free }
  let c := n.chan ch
  if state = c.instant then n
  else n.setChan ch { c with instant := state, filter := if cfg.role = .inp then some n.now else c.filter }

/-- INPUT_CHANGE (R171). -/
def execInputChange (dt : Nat) (ch : Fin 16) (level : PinLevel) (s : State) : Host.Outcome State Fault Refusal :=
  nodeEvent dt (isDigital ch) (pinChange ch level) s

/-- A channel is an end stop of a unit. -/
def isStopOf (u : MotionUnit) (ch : Fin 16) (n : Node) : Bool :=
  match n.unitCfg u with
  | some c => c.ext == ch || c.ret == ch
  | none => false

/-- An accepted state is delivered to the owner of its input; `first`: it is the first one (R171). An input that no
setting of its owner names is delivered to nobody (R170). -/
def deliver (ch : Fin 16) (first : Bool) (n : Node) : Node :=
  match n.owner ch with
  | some .pump =>
    match n.pumpCfg with
    | some c => if c.switch = ch then pumpDemand c n else n
    | none => n
  | some .frost =>
    match n.frostCfg with
    | some c => if c.contact = ch then contactChange c first n else n
    | none => n
  | some .awning => if isStopOf .awning ch n then endStopChange .awning first n else n
  | some .step => if isStopOf .step ch n then endStopChange .step first n else n
  | some .lights => courtesyCheck (switchChange ch n)
  | some .travel => refreshTravel n
  | _ => n

/-- The instant state has stood unchanged for the filter time (R171). -/
def filterDone (ch : Fin 16) (n : Node) : Bool :=
  n.role ch == .inp && n.reached (later (n.chan ch).filter (n.chanCfg ch).time)

/-- The instant state becomes the accepted state; a change, or the first one, is delivered (R171). -/
def acceptInput (ch : Fin 16) (n : Node) : Node :=
  let c := n.chan ch
  let n := n.setChan ch { c with filter := none, accepted := some c.instant }
  if c.accepted = some c.instant then n else deliver ch c.accepted.isNone n

/-- INPUT_ACCEPTED (R171). -/
def execInputAccepted (dt : Nat) (ch : Fin 16) (s : State) : Host.Outcome State Fault Refusal :=
  nodeEvent dt (filterDone ch) (acceptInput ch) s

/-- An inactive edge of a PULSE channel: a pulse of at least 1 ms is counted (R172). -/
def countPulse (ch : Fin 16) (activeUs : Nat) (n : Node) : Node :=
  let c := n.chan ch
  n.setChan ch { c with instant := false, count := if 1000 ≤ activeUs then c.count + 1 else c.count }

/-- PULSE_COUNTED (R172). -/
def execPulseCounted (dt : Nat) (ch : Fin 16) (activeUs : Nat) (s : State) : Host.Outcome State Fault Refusal :=
  nodeEvent dt (fun n => n.role ch == .pulse) (countPulse ch activeUs) s

/-- AIN_CONVERSION (R172). -/
def execAinConversion (dt : Nat) (ch : Fin 16) (value : Int) (s : State) : Host.Outcome State Fault Refusal :=
  nodeEvent dt (fun n => n.role ch == .ain && n.reached (n.chan ch).due)
    (fun n =>
      let c := n.chan ch
      n.setChan ch { c with reading := some (ainReading (n.chanCfg ch).volt value), due := later c.due ainPeriod }) s

/-- A temperature reading is delivered to the blocks that name the input: the frost monitor and the heater act on it,
the accountant reads it at its next sample (R5, R100, R124). -/
def deliverTemp (i : Fin 4) (n : Node) : Node :=
  let n := if n.frostCfg.any (·.temp == some i) then frostCheck n else n
  onHeater (fun c n =>
    let n := if c.exhaust = i then exhaustReading c n else n
    if c.cabin = some i then cabinDelivered c n else n) n

/-- One reading of a temperature input (R181). -/
def readTemp (i : Fin 4) (ohms : Nat) (temp : Int) (n : Node) : Node :=
  let v := tempValue (tempTypeOf i n) ohms temp
  let t := n.bank.temps[i]
  let n := n.setBank { n.bank with temps := n.bank.temps.set i { reading := some v, due := later t.due tempPeriod } }
  deliverTemp i (if v.isNone then setFlag .sensorFault n else n)

/-- TEMP_READING (R181). -/
def execTempReading (dt : Nat) (input : Fin 4) (ohms : Nat) (temp : Int) (s : State) :
    Host.Outcome State Fault Refusal :=
  nodeEvent dt (fun n => tempTypeOf input n != .unused && n.reached (n.bank.temps[input]).due)
    (readTemp input ohms temp) s

/-! ## Outputs -/

/-- An OUT channel that is on. -/
def outOn (ch : Fin 16) (n : Node) : Bool := n.role ch == .out && isOn (n.chan ch)

/-- An OUT channel that is off. -/
def outOff (ch : Fin 16) (n : Node) : Bool := n.role ch == .out && !isOn (n.chan ch)

/-- OUTPUT_CURRENT_CHANGE (R174). -/
def execOutputCurrentChange (dt : Nat) (ch : Fin 16) (mA : Nat) (s : State) : Host.Outcome State Fault Refusal :=
  nodeEvent dt (outOn ch)
    (fun n =>
      let c := n.chan ch
      n.setChan ch { c with tripClock := if (n.chanCfg ch).trip < mA then some (c.tripClock.getD n.now) else none }) s

/-- The clocks of an output's pin after a new read-back (R176). -/
def pinRead (high on : Bool) (now : Nat) (c : Channel) : Channel :=
  let c := { c with pinHigh := high }
  match on, high with
  | true, true => { c with lowOn := none }
  | true, false => { c with lowOn := some (c.lowOn.getD now) }
  | false, true => { c with highOff := some (c.highOff.getD now), lowOff := none }
  | false, false => { c with highOff := none, lowOff := some (c.lowOff.getD now) }

/-- OUTPUT_PIN_READ_CHANGE (R176). -/
def execOutputPinReadChange (dt : Nat) (ch : Fin 16) (high : Bool) (s : State) : Host.Outcome State Fault Refusal :=
  nodeEvent dt (fun n => n.role ch == .out)
    (fun n => n.setChan ch (pinRead high (isOn (n.chan ch)) n.now (n.chan ch))) s

/-- OUTPUT_TRIP (R174). -/
def execOutputTrip (dt : Nat) (ch : Fin 16) (s : State) : Host.Outcome State Fault Refusal :=
  nodeEvent dt (fun n => outOn ch n && n.reached (later (n.chan ch).tripClock tripTime)) (tripAndTell ch) s

/-- READBACK_TRIP (R176). -/
def execReadbackTrip (dt : Nat) (ch : Fin 16) (s : State) : Host.Outcome State Fault Refusal :=
  nodeEvent dt (fun n => outOn ch n && n.reached (later (n.chan ch).lowOn (n.chanCfg ch).time)) (tripAndTell ch) s

/-- BACKFED_MARK_SET (R176). -/
def execBackfedMarkSet (dt : Nat) (ch : Fin 16) (s : State) : Host.Outcome State Fault Refusal :=
  nodeEvent dt (fun n => outOff ch n && n.reached (later (n.chan ch).highOff (n.chanCfg ch).time))
    (fun n => n.setChan ch { n.chan ch with backfed := true }) s

/-- BACKFED_MARK_CLEAR (R176). -/
def execBackfedMarkClear (dt : Nat) (ch : Fin 16) (s : State) : Host.Outcome State Fault Refusal :=
  nodeEvent dt (fun n => outOff ch n && n.reached (later (n.chan ch).lowOff (n.chanCfg ch).time))
    (fun n => n.setChan ch { n.chan ch with backfed := false }) s

/-- RETRY (R175). -/
def execRetry (dt : Nat) (ch : Fin 16) (s : State) : Host.Outcome State Fault Refusal :=
  nodeEvent dt (fun n => n.role ch == .out && (n.chan ch).protection == .tripped && n.reached (n.chan ch).retry)
    (fun n => tellOwner ch .retry (releaseOutput ch n)) s

/-- For how long an output has been on since its last trip (R175). -/
def onTime (c : Channel) (now : Nat) : Nat := c.onTotal + (now - c.onSince.getD now)

/-- TRIP_COUNT_CLEAR (R175). -/
def execTripCountClear (dt : Nat) (ch : Fin 16) (s : State) : Host.Outcome State Fault Refusal :=
  nodeEvent dt (fun n => n.role ch == .out && decide (tripClearTime ≤ onTime (n.chan ch) n.now))
    (fun n => n.setChan ch { n.chan ch with trips := 0 }) s

/-- CHANNEL_RESET executed (R175). -/
def channelResetAct (_ : Nat) (b : CommandBody) (n : Node) : Outcome :=
  let k := argOf b 0
  if 16 < k then give .refusedRange n
  else if k = 16 then
    give .done (channels.foldl (fun n i => if n.role i = .out then resetOutput i n else n) n)
  else
    let i := Fin.ofNat 16 k
    if n.role i = .out then give .done (resetOutput i n) else give .refusedState n

/-- CHANNEL_RESET (R175). -/
def execChannelReset (dt : Nat) (s : State) : Host.Outcome State Fault Refusal :=
  commandEvent dt 0x31 (fun _ => true) (runCommand none (hasLength 1) channelResetAct) s

/-- AUX_OUTPUT executed, its conditions in the order of R178. -/
def auxOutputAct (_ : Nat) (b : CommandBody) (n : Node) : Outcome :=
  let k := argOf b 0
  let i := Fin.ofNat 16 k
  if 15 < k ∨ 1 < argOf b 1 ∨ !isAuxOut n i then give .refusedRange n
  else if argOf b 1 = 0 then give .done (if n.auxState i = .off then n else auxOff i n)
  else if n.auxState i ≠ .off then give .done n
  else if !n.isActive || isHeldOff (n.chan i) then give .refusedState n
  else give .accepted (auxOn i n)

/-- AUX_OUTPUT (R178). -/
def execAuxOutput (dt : Nat) (s : State) : Host.Outcome State Fault Refusal :=
  commandEvent dt 0x30 (fun _ => true) (runCommand (some .aux) (hasLength 2) auxOutputAct) s

end Sys2Proof.Machine
end

