-- ==== Sys2Proof/Machine/LinkRows.lean ====
section
/-! DEFINITION. The rows of the link controller (chapter 10). -/

namespace Sys2Proof.Machine

/-! ## Receiving -/

/-- A frame begins (R185, R186): one still being received is broken; a buffer is taken when one is free. -/
def beginFrame (rx : Receiver) (n : Node) : Receiver × Node :=
  let n := if rx.phase = .filling then bump .broken n else n
  if rx.arrival.length < bufferCount then ({ rx with phase := .filling }, n)
  else ({ rx with phase := .dropping }, bump .noBuffer n)

/-- FRAME_BEGIN (R185, R186): 16 bit times of idle line stand before the start bit, and the transmitter makes no
attempt. -/
def execFrameBegin (dt idleBits : Nat) (s : State) : Host.Outcome State Fault Refusal :=
  event dt (fun _ n => decide (idleBitsMin ≤ idleBits) && n.tx.attempt == .none) beginFrame s

/-- The frame being received ends without joining the arrival list: one that fills a buffer is counted (R185), one
that was dropped is not (R186). -/
def discardFrame (k : Counter) (rx : Receiver) (n : Node) : Receiver × Node :=
  ({ rx with phase := .idle }, if rx.phase = .filling then bump k n else n)

/-- FRAME_CHARACTER_FAULT (R185). -/
def execFrameCharacterFault (dt index : Nat) (character : BitVec 11) (s : State) :
    Host.Outcome State Fault Refusal :=
  event dt (fun rx _ => rx.phase != .idle && characterFault index character) (discardFrame .bad) s

/-- A frame completes (R185): a good one is stamped and joins the arrival list. -/
def completeFrame (bytes : List Byte) (rx : Receiver) (n : Node) : Receiver × Node :=
  match rx.phase, readFrame bytes with
  | .filling, some (source, f) =>
    ({ arrival := rx.arrival ++ [{ stamp := n.now, source := source, frame := f }], phase := .idle }, bump .good n)
  | _, _ => discardFrame .bad rx n

/-- FRAME_COMPLETE (R185). -/
def execFrameComplete (dt : Nat) (bytes : List Byte) (s : State) : Host.Outcome State Fault Refusal :=
  event dt (fun rx _ => rx.phase != .idle) (completeFrame bytes) s

/-- FRAME_BROKEN (R185). -/
def execFrameBroken (dt gapUs : Nat) (s : State) : Host.Outcome State Fault Refusal :=
  event dt (fun rx _ => rx.phase != .idle && decide (breakUs < gapUs)) (discardFrame .broken) s

/-! ## Sending -/

/-- The node sends in its present state (R29, R193). -/
def sendsNow (n : Node) : Bool :=
  n.isActive || n.state == some .listening || (n.state == some .listenOnly && n.station.isSome)

/-- Idle line that an attempt needs: 16 bit times and the slot delay of 4 bit times for each station number (R188). -/
def attemptIdle (n : Node) : Nat := idleBitsMin + 4 * n.rankNumber

/-- The idle line that the transmitter can have measured since it was enabled, in bit times (R193; log entry 43). -/
def measured (n : Node) : Option Nat := n.tx.since.map fun t => bitTimes (n.now - t)

/-- The transmitter may start an attempt (R188); while a frame is being received it defers to it (log entry 9). -/
def mayStart (idleBits : Nat) (rx : Receiver) (n : Node) : Bool :=
  !n.tx.queue.isEmpty && n.tx.attempt == .none && sendsNow n && !n.tx.jabber && rx.phase == .idle
    && decide (attemptIdle n ≤ idleBits) && (measured n).any fun k => decide (attemptIdle n ≤ k)

/-- ATTEMPT_START (R188). -/
def execAttemptStart (dt idleBits : Nat) (s : State) : Host.Outcome State Fault Refusal :=
  event dt (mayStart idleBits) (fun rx n => (rx, n.setTx { n.tx with attempt := .sending })) s

/-- The bit that the node sends at a place of the frame in attempt (R183, R184). -/
def bitSent (k : Nat) (n : Node) : Option Bool :=
  n.tx.queue.head?.bind fun e => sentBit (frameBytes n.rankNumber e.frame) k

/-- COLLISION (R189): a bit sent recessive reads dominant. -/
def execCollision (dt bit : Nat) (read : Bool) (s : State) : Host.Outcome State Fault Refusal :=
  nodeEvent dt (fun n => n.tx.attempt == .sending && bitSent bit n == some true && !read)
    (fun n => n.setTx { n.tx with attempt := .jamming }) s

/-- The head entry leaves the queue. -/
def dropHead (n : Node) : Node := n.setTx { n.tx with queue := n.tx.queue.drop 1, attempt := .none }

/-- An entry is given up (R190); its DRAW returns its claims to WAITING (R54). -/
def giveUp (e : TxEntry) (n : Node) : Node :=
  let n := bump .giveUps (dropHead n)
  if kindOf e.frame = .draw then carrierGivenUp (some e.id) n else n

/-- A kind that is published periodically (R187). -/
def isPeriodic (k : Kind) : Bool :=
  match k with
  | .presence | .draw | .allowance | .tanks | .climate | .motion | .lights => true
  | .command | .reply | .report => false

/-- The newer frame of its kind that was queued behind the head during the attempt, when the kind is periodic. -/
def newerOf (e : TxEntry) (rest : List TxEntry) : Option TxEntry :=
  if isPeriodic (kindOf e.frame) then rest.find? fun x => kindOf x.frame == kindOf e.frame else none

/-- The head is queued again with its attempt count risen. A newer frame of its periodic kind behind it takes its
frame's place, and the claims of that newer entry go with it, so that one queued entry of the kind remains (R187;
log entry 40). -/
def requeueHead (e : TxEntry) (rest : List TxEntry) (n : Node) : Node :=
  match newerOf e rest with
  | some x =>
    carrierMoved x.id e.id (n.setTx { n.tx with
      queue := { e with frame := x.frame, attempts := e.attempts + 1 } :: rest.filter (·.id != x.id), attempt := .none })
  | none => n.setTx { n.tx with queue := { e with attempts := e.attempts + 1 } :: rest, attempt := .none }

/-- An attempt has failed (R189 to R191): the attempt count of the head rises by one, and at 8 the entry is given up.
At a SILENT node no attempt follows, and the frame counts neither as good nor as given up (R31). -/
def failHead (n : Node) : Node :=
  match n.tx.queue with
  | [] => n.setTx { n.tx with attempt := .none }
  | e :: rest =>
    if n.state = some .silent then dropHead n
    else if attemptLimit ≤ e.attempts + 1 then giveUp e n
    else requeueHead e rest n

/-- JAM_END (R189): the jam has lasted 22 bit times. -/
def execJamEnd (dt jamBits : Nat) (s : State) : Host.Outcome State Fault Refusal :=
  nodeEvent dt (fun n => n.tx.attempt == .jamming && decide (jamBitTimes ≤ jamBits))
    (fun n => failHead (bump .collisions n)) s

/-- A frame is sent (R190); a DRAW starts the settle windows of the claims it carried (R53). At a SILENT node it is
not counted as good (R31). -/
def frameSent (n : Node) : Node :=
  match n.tx.queue with
  | [] => dropHead n
  | e :: _ =>
    let n := dropHead n
    let n := if n.state = some .silent then n else bump .good n
    if kindOf e.frame = .draw then carrierSent e.id n else n

/-- FRAME_SENT (R190). -/
def execFrameSent (dt : Nat) (s : State) : Host.Outcome State Fault Refusal :=
  nodeEvent dt (fun n => n.tx.attempt == .sending) frameSent s

/-- The jabber guard cuts the driver (R191). -/
def cutDriver (n : Node) : Node :=
  let n := bump .jabber (setFlag .jabber n)
  let n := if n.tx.attempt = .none then n else failHead n
  n.setTx { n.tx with jabber := true }

/-- JABBER_CUT (R191): the driver has been dominant for 20 ms. -/
def execJabberCut (dt dominantUs : Nat) (s : State) : Host.Outcome State Fault Refusal :=
  nodeEvent dt (fun n => !n.tx.jabber && decide (jabberUs ≤ dominantUs)) cutDriver s

/-- JABBER_RECOVERY_END (R191): the line has been idle for 1 000 ms. The transmitter is enabled again, and the head
entry waits for its slot from then on (log entry 43). -/
def execJabberRecoveryEnd (dt idleMs : Nat) (s : State) : Host.Outcome State Fault Refusal :=
  nodeEvent dt (fun n => n.tx.jabber && decide (recoveryTime ≤ idleMs))
    (fun n => n.setTx { n.tx with jabber := false, since := some n.now }) s

end Sys2Proof.Machine
end

