-- ==== Sys2Proof/Machine/CommandRows.lean ====
section
/-! DEFINITION. The rows of the command unit (chapter 11). -/

namespace Sys2Proof.Machine

/-- A REPORT_SELECT that is refused: no selector before the first NONE, or a value that is no selector (R196). -/
def badMap (map : List Nat) : Bool := map.isEmpty || map.any fun k => decide (23 < k)

/-- REPORT_SELECT executed (R196). -/
def reportSelectAct (_ : Nat) (b : CommandBody) (n : Node) : Outcome :=
  let map := newMap (selectPlaces b.args)
  if badMap map then give .refusedRange n
  else { result := .done, detail := map.length, node := n.setCmd { n.cmd with map := map } }

/-- REPORT_SELECT (R196). -/
def execReportSelect (dt : Nat) (s : State) : Host.Outcome State Fault Refusal :=
  commandEvent dt 0x38 (fun _ => true) (runCommand none (hasLength 8) reportSelectAct) s

/-- The REPORT an event owes. -/
def owe (r : ReportBody) (n : Node) : Node := n.setEv { n.ev with report := some r }

/-- The quantities of a window of the report map (R197). -/
def windowOf (start count : Nat) (n : Node) : List Int :=
  (List.range count).map fun k => quantity (n.cmd.map.getD ((start + k) % n.cmd.map.length) 0) n

/-- QUERY_REPORT executed (R197). -/
def queryReportAct (b : CommandBody) (n : Node) : Outcome :=
  let start := argOf b 0
  let asked := argOf b 1
  if n.cmd.map.length ≤ start ∨ asked = 0 then give .refusedRange n
  else
    let count := min asked 6
    let n := owe (.quantities start count (windowOf start count n)) n
    if 6 < asked then { result := .doneClamped, detail := 6, node := n } else give .done n

/-- QUERY_REPORT (R197). -/
def execQueryReport (dt : Nat) (s : State) : Host.Outcome State Fault Refusal :=
  commandEvent dt 0x39 (fun _ => true) (runQuery (hasLength 2) queryReportAct) s

/-- QUERY_COUNTERS executed (R198). -/
def queryCountersAct (_ : CommandBody) (n : Node) : Outcome :=
  let n := owe (.counters 0 12 n.cmd.counters.toList) n
  give .done (n.setCmd { n.cmd with counters := .replicate 12 0 })

/-- QUERY_COUNTERS (R198). -/
def execQueryCounters (dt : Nat) (s : State) : Host.Outcome State Fault Refusal :=
  commandEvent dt 0x3A (fun _ => true) (runQuery (hasLength 0) queryCountersAct) s

/-- QUERY_FLAGS executed (R199). -/
def queryFlagsAct (_ : CommandBody) (n : Node) : Outcome :=
  let n := owe (.flags 0 16 n.cmd.flags) n
  give .done (n.setCmd { n.cmd with flags := standingFlags n })

/-- QUERY_FLAGS (R199). -/
def execQueryFlags (dt : Nat) (s : State) : Host.Outcome State Fault Refusal :=
  commandEvent dt 0x3B (fun _ => true) (runQuery (hasLength 0) queryFlagsAct) s

/-- RESTART executed (R200). -/
def restartAct (_ : CommandBody) (n : Node) : Outcome := give .done (n.setEv { n.ev with restart := true })

/-- RESTART (R200). -/
def execRestart (dt : Nat) (s : State) : Host.Outcome State Fault Refusal :=
  commandEvent dt 0x3F (fun _ => true) (runAddressed (hasLength 0) restartAct) s

/-- The latest moment of a pending restart has come (R200). -/
def restartDue (n : Node) : Bool :=
  match n.cmd.restart with
  | some (_, t) => decide (t ≤ n.now)
  | none => false

/-- RESTART_DEADLINE (R200). -/
def execRestartDeadline (dt : Nat) (s : State) : Host.Outcome State Fault Refusal :=
  nodeEvent dt restartDue (fun n => n.setEv { n.ev with reset := true }) s

/-- The head of the arrival list is a COMMAND of no code of section 12.3. -/
def isUnknown (f : Frame) : Bool :=
  match f with
  | .command b => !commandCodes.contains b.code
  | _ => false

/-- UNKNOWN_COMMAND (R195). -/
def execUnknownCommand (dt : Nat) (s : State) : Host.Outcome State Fault Refusal :=
  dispatchEvent dt isUnknown (onCommand (runAddressed (fun _ => true) fun _ n => give .unknownCommand n)) s

end Sys2Proof.Machine
end

