-- ==== Sys2Proof/Machine/ImageCheck.lean ====
section
/-! DEFINITION. Reading and checking the configuration image (R204, section 12.4), with the checks of R1, R75, R87,
R96, R109, R132, R154, R170 and of the temperature-input types. `none` stands for an invalid image. -/

namespace Sys2Proof.Machine

/-- A check that must hold. -/
def must (b : Bool) : Option Unit := if b then some () else none

/-- A number within its range. -/
def within (lo hi v : Nat) : Bool := decide (lo ≤ v) && decide (v ≤ hi)

def withinInt (lo hi v : Int) : Bool := decide (lo ≤ v) && decide (v ≤ hi)

/-- Every number is above the one before it. -/
def increasing : List Nat → Bool
  | a :: b :: rest => decide (a < b) && increasing (b :: rest)
  | _ => true

/-- No number is below the one before it. -/
def notDecreasing : List Nat → Bool
  | a :: b :: rest => decide (a ≤ b) && notDecreasing (b :: rest)
  | _ => true

/-- No number stands twice. -/
def distinct : List Nat → Bool
  | [] => true
  | a :: rest => !rest.contains a && distinct rest

/-- A channel field that must name a channel. -/
def chanAt (p : List Byte) (i : Nat) : Option (Fin 16) :=
  if h : byteAt p i < 16 then some ⟨byteAt p i, h⟩ else none

/-- A channel field that may be none, 0xFF. -/
def chanOrNone (p : List Byte) (i : Nat) : Option (Option (Fin 16)) :=
  if byteAt p i = 0xFF then some none else (chanAt p i).map some

/-- A temperature-input field that must name an input. -/
def tempInputAt (p : List Byte) (i : Nat) : Option (Fin 4) :=
  if h : byteAt p i < 4 then some ⟨byteAt p i, h⟩ else none

def tempInputOrNone (p : List Byte) (i : Nat) : Option (Option (Fin 4)) :=
  if byteAt p i = 0xFF then some none else (tempInputAt p i).map some

/-- `n` table points of two words each. -/
def pointsAt (p : List Byte) (i n : Nat) : List (Nat × Nat) :=
  (List.range n).map fun k => (wordAt p (i + 4 * k), wordAt p (i + 4 * k + 2))

/-! ## Sections -/

/-- The sections of an image as (code, content), when they fill it exactly (R204). `fuel` exceeds the bytes. -/
def splitSections : Nat → List Byte → Option (List (Nat × List Byte))
  | 0, _ => none
  | _ + 1, [] => some []
  | fuel + 1, p =>
    let len := byteAt p 1
    if 2 ≤ p.length ∧ 2 + len ≤ p.length then
      (splitSections fuel (p.drop (2 + len))).map ((byteAt p 0, (p.drop 2).take len) :: ·)
    else none

/-- The content of a section by its code. -/
def sectionOf (code : Nat) (ss : List (Nat × List Byte)) : Option (List Byte) :=
  (ss.find? fun s => s.1 == code).map (·.2)

/-- GENERAL: orphan allowance and report map (R42, R196). -/
def readGeneral (p : List Byte) : Option (Nat × List Nat) := do
  let len := byteAt p 4
  let map := (List.range len).map fun k => byteAt p (5 + k)
  must (5 ≤ p.length && p.length == 5 + len && decide (longAt p 0 ≤ 100000) && within 1 12 len
    && map.all (· ≤ 23))
  return (longAt p 0, map)

def roleOfCode (k : Nat) : Option Role :=
  if k = 0 then some .off else if k = 1 then some .out else if k = 2 then some .inp
  else if k = 3 then some .ain else if k = 4 then some .pulse else none

def dutyOfCode (k : Nat) : Option Duty :=
  if k = 0 then some .battery else if k = 1 then some .tanks else if k = 2 then some .pump
  else if k = 3 then some .frost else if k = 4 then some .heater else if k = 5 then some .awning
  else if k = 6 then some .step else if k = 7 then some .lights else if k = 8 then some .travel
  else if k = 9 then some .wind else if k = 10 then some .aux else none

def pullOfCode (k : Nat) : Pull := if k = 1 then .up else if k = 2 then .down else .none

def timeOfCode (k : Nat) : Nat := if k = 0 then 5 else if k = 1 then 20 else if k = 2 then 50 else 200

def tempTypeOfCode (k : Nat) : Option TempType :=
  if k = 0 then some .unused else if k = 1 then some .ntc else if k = 2 then some .high else none

/-- One record of CHANNELS; the settings of its role lie in their ranges (R170). Bits 6 and 7 of its byte 3 are not read
(log entry 54). -/
def readChannel (p : List Byte) (i : Nat) : Option ChanCfg := do
  let b := byteAt p (6 * i + 3)
  let role ← roleOfCode (byteAt p (6 * i) % 8)
  let owner := dutyOfCode (byteAt p (6 * i) / 8)
  let trip := wordAt p (6 * i + 1)
  let draw := wordAt p (6 * i + 4)
  let isAux := role == .out && owner == some .aux
  must (role != .out || within 500 10000 trip)
  must (!isAux || within 100 10000 draw)
  must (!(role == .inp || role == .pulse) || b / 4 % 4 != 3)
  return { role, owner := if role = .off then none else owner, trip, time := timeOfCode (b % 4)
           pull := pullOfCode (b / 4 % 4), activeLow := b / 16 % 2 == 1, volt := b / 32 % 2 == 1, draw }

/-- The sixteen records, in order. -/
def readChannels (p : List Byte) : Option (Vector ChanCfg 16) := do
  let c0 ← readChannel p 0
  let c1 ← readChannel p 1
  let c2 ← readChannel p 2
  let c3 ← readChannel p 3
  let c4 ← readChannel p 4
  let c5 ← readChannel p 5
  let c6 ← readChannel p 6
  let c7 ← readChannel p 7
  let c8 ← readChannel p 8
  let c9 ← readChannel p 9
  let c10 ← readChannel p 10
  let c11 ← readChannel p 11
  let c12 ← readChannel p 12
  let c13 ← readChannel p 13
  let c14 ← readChannel p 14
  let c15 ← readChannel p 15
  return #v[c0, c1, c2, c3, c4, c5, c6, c7, c8, c9, c10, c11, c12, c13, c14, c15]

def readTempTypes (p : List Byte) : Option (Vector TempType 4) := do
  let t0 ← tempTypeOfCode (byteAt p 96)
  let t1 ← tempTypeOfCode (byteAt p 97)
  let t2 ← tempTypeOfCode (byteAt p 98)
  let t3 ← tempTypeOfCode (byteAt p 99)
  return #v[t0, t1, t2, t3]

/-- The owners that the first table of section 9.1 allows for a role. -/
def roleAllows (r : Role) (d : Duty) : Bool :=
  match r with
  | .off => false
  | .out => [Duty.tanks, .pump, .frost, .heater, .lights, .aux].contains d
  | .inp => [Duty.battery, .tanks, .pump, .frost, .awning, .step, .lights, .travel].contains d
  | .ain => [Duty.tanks, .aux].contains d
  | .pulse => d == .wind

/-- A channel's owner is there, is a duty of the image, and may bind the role (R170). -/
def ownerFits (duties : BitVec 11) (c : ChanCfg) : Bool :=
  c.role == .off ||
    (match c.owner with
     | some d => holdsDuty d duties && roleAllows c.role d
     | none => false)

/-- The draws of the OUT channels bound to AUX (R170). -/
def auxDraws (chans : Vector ChanCfg 16) : Nat :=
  (chans.toList.map fun c => if c.role = .out ∧ c.owner = some .aux then c.draw else 0).sum

/-- A channel has a role and is bound to an owner. -/
def bound (chans : Vector ChanCfg 16) (r : Role) (d : Duty) (i : Fin 16) : Bool :=
  chans[i].role == r && chans[i].owner == some d

/-- The same of a channel that may be none. -/
def boundOrNone (chans : Vector ChanCfg 16) (r : Role) (d : Duty) (i : Option (Fin 16)) : Bool :=
  match i with
  | some i => bound chans r d i
  | none => true

/-- A temperature input, when one is named, has its owner's type (section 9.6). -/
def typedOrNone (temps : Vector TempType 4) (t : TempType) (i : Option (Fin 4)) : Bool :=
  match i with
  | some i => temps[i] == t
  | none => true

/-- BATTERY: the fields in their ranges (section 1.1). -/
def readBattery (p : List Byte) : Option BatteryCfg := do
  must (p.length == 77)
  let n := byteAt p 44
  let table := pointsAt p 45 n
  let temp ← tempInputOrNone p 42
  let charge ← chanOrNone p 43
  let c : BatteryCfg := {
    capacityAh := wordAt p 0, shunt := wordAt p 2, eta := byteAt p 4, startSoc := wordAt p 5
    restCurrent := wordAt p 7, restMinutes := byteAt p 9, fullVoltage := wordAt p 10, tailCurrent := wordAt p 12
    economy := wordAt p 14, reserve := wordAt p 16, cutoffVoltage := wordAt p 18, recoveryMargin := wordAt p 20
    aNorm := longAt p 22, aEcon := longAt p 26, aRes := longAt p 30, aHook := longAt p 34
    td1 := signedAt p 38, td2 := signedAt p 40, temp, charge, table }
  must (within 10 1500 c.capacityAh && within 50 2000 c.shunt && within 80 100 c.eta && within 0 1000 c.startSoc)
  must (within 100 2000 c.restCurrent && within 10 240 c.restMinutes && within 10000 32000 c.fullVoltage)
  must (within 100 20000 c.tailCurrent && within 100 950 c.economy && within 50 800 c.reserve)
  must (within 8000 26000 c.cutoffVoltage && within 100 3000 c.recoveryMargin)
  must (within 1000 650000 c.aNorm && within 1000 650000 c.aEcon && within 1000 650000 c.aRes
    && within 1000 650000 c.aHook)
  must (withinInt (-300) 200 c.td1 && withinInt (-400) 190 c.td2)
  must (within 2 8 n && table.all fun q => decide (q.1 ≤ 32767) && decide (q.2 ≤ 1000))
  return c

/-- The orderings and bindings of R1 and section 9.6. -/
def checkBattery (chans : Vector ChanCfg 16) (temps : Vector TempType 4) (c : BatteryCfg) : Bool :=
  increasing (c.table.map (·.1)) && increasing (c.table.map (·.2)) && decide (c.reserve + 50 ≤ c.economy)
    && notDecreasing [c.aRes, c.aEcon, c.aNorm, c.aHook] && decide (c.td2 + 10 ≤ c.td1)
    && boundOrNone chans .inp .battery c.charge && typedOrNone temps .ntc c.temp

def tankKindOfCode (k : Nat) : Option TankKind :=
  if k = 0 then some .fresh else if k = 1 then some .grey else if k = 2 then some .black else none

/-- The method of a tank record; its codes are LADDER 0 and SENDER 1 (log entry 51). -/
def readMethod (p : List Byte) : Option TankMethod :=
  if byteAt p 1 = 0 then do
    must (within 2 8 (byteAt p 4))
    let probes ← (List.range (byteAt p 4)).mapM fun j => chanAt p (5 + j)
    let exc ← chanAt p 13
    return .ladder probes exc
  else if byteAt p 1 = 1 then do
    must (within 2 8 (byteAt p 15))
    let ch ← chanAt p 14
    let table := pointsAt p 16 (byteAt p 15)
    must (table.all fun q => decide (q.1 ≤ 400) && decide (q.2 ≤ 1000))
    return .sender ch table
  else none

/-- One tank record of 48 bytes. -/
def readTankCfg (p : List Byte) : Option TankCfg := do
  let kind ← tankKindOfCode (byteAt p 0)
  must (kind == .fresh || within 500 1000 (wordAt p 2))
  let method ← readMethod p
  return ⟨kind, method, wordAt p 2⟩

/-- TANKS: a count and three records (section 4.1). -/
def readTanksCfg (p : List Byte) : Option (List TankCfg) := do
  must (p.length == 145 && decide (byteAt p 0 ≤ 3))
  (List.range (byteAt p 0)).mapM fun k => readTankCfg (p.drop (1 + 48 * k))

/-- The bindings and orderings of R75. -/
def checkTank (chans : Vector ChanCfg 16) (t : TankCfg) : Bool :=
  match t.method with
  | .ladder probes exc => probes.all (bound chans .inp .tanks) && bound chans .out .tanks exc
  | .sender ch table =>
    bound chans .ain .tanks ch && !chans[ch].volt && increasing (table.map (·.1))
      && (increasing (table.map (·.2)) || increasing (table.map (·.2)).reverse)

/-- PUMP (section 4.7); the codes of the mode at reset are OFF 0 and ON 1 (log entry 51). -/
def readPump (p : List Byte) : Option PumpCfg := do
  must (p.length == 7)
  let output ← chanAt p 0
  let switch ← chanAt p 1
  must (within 100 20000 (wordAt p 2) && decide (byteAt p 4 ≤ 1) && within 10 900 (wordAt p 5))
  return ⟨output, switch, wordAt p 2, byteAt p 4 == 1, 1000 * wordAt p 5⟩

/-- R87. -/
def checkPump (chans : Vector ChanCfg 16) (c : PumpCfg) : Bool :=
  bound chans .out .pump c.output && bound chans .inp .pump c.switch

/-- FROST (section 5.1). -/
def readFrost (p : List Byte) : Option FrostCfg := do
  must (p.length == 8)
  let openCoil ← chanAt p 0
  let closeCoil ← chanAt p 1
  let contact ← chanAt p 2
  let temp ← tempInputOrNone p 3
  must (withinInt (-50) 100 (signedAt p 4) && within 60 3600 (wordAt p 6))
  return ⟨openCoil, closeCoil, contact, temp, signedAt p 4, 1000 * wordAt p 6⟩

/-- R96. -/
def checkFrost (chans : Vector ChanCfg 16) (temps : Vector TempType 4) (c : FrostCfg) : Bool :=
  bound chans .out .frost c.openCoil && bound chans .out .frost c.closeCoil && c.openCoil != c.closeCoil
    && bound chans .inp .frost c.contact && typedOrNone temps .ntc c.temp

/-- HEATER (section 6.1). -/
def readHeater (p : List Byte) : Option HeaterCfg := do
  must (p.length == 30)
  let glow ← chanAt p 0
  let fan ← chanAt p 1
  let fuel ← chanAt p 2
  let exhaust ← tempInputAt p 3
  let cabin ← tempInputOrNone p 4
  let mode ← modeOfCode (byteAt p 5)
  let levels := (List.range 4).map fun k => wordAt p (10 + 2 * k)
  let duties := (List.range 4).map fun k => byteAt p (18 + k)
  let c : HeaterCfg := {
    glow, fan, fuel, exhaust, cabin, mode, setpoint := signedAt p 6, start := wordAt p 8, levels, duties
    startDuty := byteAt p 22, ventDuty := byteAt p 23, vent := wordAt p 24, cooldown := wordAt p 26
    flameLost := signedAt p 28 }
  must (withinInt 50 300 c.setpoint && c.setpoint % 5 == 0 && within 1000 25000 c.start)
  must (levels.all (within 500 10000) && duties.all (within 10 100))
  must (within 10 100 c.startDuty && within 10 100 c.ventDuty && within 100 5000 c.vent)
  must (within 500 5000 c.cooldown && withinInt 500 2000 c.flameLost)
  return c

/-- R109. -/
def checkHeater (chans : Vector ChanCfg 16) (temps : Vector TempType 4) (c : HeaterCfg) : Bool :=
  bound chans .out .heater c.glow && bound chans .out .heater c.fan && bound chans .out .heater c.fuel
    && c.glow != c.fan && c.glow != c.fuel && c.fan != c.fuel
    && temps[c.exhaust] == .high && typedOrNone temps .ntc c.cabin && c.cabin != some c.exhaust
    && notDecreasing c.levels

/-- One unit of MOTION, at a place, with the range of its travel time in seconds (section 7.1). -/
def readUnitCfg (p : List Byte) (i lo hi : Nat) : Option UnitCfg := do
  let ext ← chanAt p i
  let ret ← chanAt p (i + 1)
  must (within lo hi (byteAt p (i + 2)) && within 1000 29000 (wordAt p (i + 3)) && within 1000 25500 (wordAt p (i + 5)))
  return ⟨ext, ret, 1000 * byteAt p (i + 2), wordAt p (i + 3), wordAt p (i + 5)⟩

/-- R132. -/
def checkUnit (chans : Vector ChanCfg 16) (d : Duty) (c : UnitCfg) : Bool :=
  bound chans .inp d c.ext && bound chans .inp d c.ret && c.ext != c.ret

/-- WIND (section 7.1). -/
def readWind (p : List Byte) : Option WindCfg := do
  must (p.length == 5)
  let channel ← chanAt p 0
  must (within 1 5000 (wordAt p 1) && within 20 400 (wordAt p 3))
  return ⟨channel, wordAt p 1, wordAt p 3⟩

/-- R132. -/
def checkWind (chans : Vector ChanCfg 16) (c : WindCfg) : Bool := bound chans .pulse .wind c.channel

/-- One light channel's record of 12 bytes (section 8.1). Bits 2 to 7 of its byte 3 are not read (log entry 54). -/
def readLightCfg (p : List Byte) : Option LightCfg := do
  let output ← chanAt p 0
  let switch ← chanOrNone p 5
  let scenes := (List.range 6).map fun k => byteAt p (6 + k)
  must (within 100 10000 (wordAt p 1) && within 1 100 (byteAt p 4) && scenes.all (· ≤ 100))
  return ⟨output, wordAt p 1, bitAt p 3 0, bitAt p 3 1, byteAt p 4, switch, scenes⟩

/-- LIGHTS (section 8.1). -/
def readLightsCfg (p : List Byte) : Option LightsCfg := do
  must (p.length == 100 && decide (byteAt p 0 ≤ 8))
  let door ← chanOrNone p 1
  must (decide (byteAt p 2 ≤ 100) && within 10 100 (byteAt p 3))
  let channels ← (List.range (byteAt p 0)).mapM fun k => readLightCfg (p.drop (4 + 12 * k))
  return ⟨door, byteAt p 2, byteAt p 3, channels⟩

/-- The full-load currents of a class (R154). -/
def classCurrent (main : Bool) (ls : List LightCfg) : Nat :=
  ((ls.filter fun l => l.main == main).map (·.current)).sum

/-- R154. -/
def checkLights (chans : Vector ChanCfg 16) (c : LightsCfg) : Bool :=
  let switches := (c.channels.filterMap (·.switch)).map (·.val)
  (c.channels.all fun l => bound chans .out .lights l.output && boundOrNone chans .inp .lights l.switch
      && (l.main || !l.courtesy))
    && distinct (c.channels.map (·.output.val)) && distinct switches
    && boundOrNone chans .inp .lights c.door
    && !(c.door.any fun d => switches.contains d.val)
    && decide (classCurrent false c.channels ≤ 25500) && decide (classCurrent true c.channels ≤ 25500)

/-- The sections a duty set requires are there (R204). -/
def sectionsPresent (duties : BitVec 11) (codes : List Nat) : Bool :=
  let needs (d : Duty) (code : Nat) : Bool := !holdsDuty d duties || codes.contains code
  codes.contains 0x01 && codes.contains 0x02 && needs .battery 0x03 && needs .tanks 0x04 && needs .pump 0x05
    && needs .frost 0x06 && needs .heater 0x07 && needs .awning 0x08 && needs .step 0x08 && needs .wind 0x09
    && needs .lights 0x0A

/-- A section that may be missing: read and checked when it is there, and kept when its duty is held (R204). -/
def optional {α : Type} (held : Bool) (code : Nat) (ss : List (Nat × List Byte)) (read : List Byte → Option α)
    (check : α → Bool) : Option (Option α) :=
  match sectionOf code ss with
  | none => some none
  | some p =>
    match read p with
    | none => none
    | some c => if check c then some (if held then some c else none) else none

/-- One unit of the MOTION section; beside a unit whose duty is held, the unit of a duty not held is not read (section
12.4). With neither duty held both units are read and checked, and ignored (R204; log entry 24). -/
def optionalUnit (held other : Bool) (ss : List (Nat × List Byte)) (i lo hi : Nat) (check : UnitCfg → Bool) :
    Option (Option UnitCfg) :=
  match sectionOf 0x08 ss with
  | none => some none
  | some p =>
    if other && !held then some none
    else
      match readUnitCfg p i lo hi with
      | some c => if check c then some (if held then some c else none) else none
      | none => none

/-- The IN channels bound to TRAVEL (R204). -/
def travelInputs (chans : Vector ChanCfg 16) : List (Fin 16) :=
  (List.finRange 16).filter (bound chans .inp .travel)

/-- An image's sections, checked and turned into settings. -/
def readSections (ident : Nat) (duties : BitVec 11) (ss : List (Nat × List Byte)) : Option Image := do
  let codes := ss.map (·.1)
  must (codes.all (within 0x01 0x0A) && distinct codes && sectionsPresent duties codes)
  let (orphan, map) ← readGeneral ((sectionOf 0x01 ss).getD [])
  let cp := (sectionOf 0x02 ss).getD []
  must (cp.length == 100)
  let chans ← readChannels cp
  let temps ← readTempTypes cp
  must (chans.toList.all (ownerFits duties) && decide (auxDraws chans ≤ 25500))
  let has (d : Duty) : Bool := holdsDuty d duties
  let battery ← optional (has .battery) 0x03 ss readBattery (checkBattery chans temps)
  let tanks ← optional (has .tanks) 0x04 ss readTanksCfg (·.all (checkTank chans))
  let pump ← optional (has .pump) 0x05 ss readPump (checkPump chans)
  let frost ← optional (has .frost) 0x06 ss readFrost (checkFrost chans temps)
  let heater ← optional (has .heater) 0x07 ss readHeater (checkHeater chans temps)
  must (((sectionOf 0x08 ss).map (·.length)).getD 18 == 18)
  let awning ← optionalUnit (has .awning) (has .step) ss 0 5 120 (checkUnit chans .awning)
  let step ← optionalUnit (has .step) (has .awning) ss 9 1 30 (checkUnit chans .step)
  let wind ← optional (has .wind) 0x09 ss readWind (checkWind chans)
  let lights ← optional (has .lights) 0x0A ss readLightsCfg (checkLights chans)
  must (!has .travel || (travelInputs chans).length == 1)
  return { ident, duties, orphan, map, chans, temps, battery, tanks, pump, frost, heater, awning, step, wind
           lights, travel := if has .travel then (travelInputs chans).head? else none, aux := has .aux }

/-- The configuration image in what the memory answers (R204). The header gives the length; what stands beyond it is
not read. -/
def readImage (eeprom : List Byte) : Option Image := do
  let len := wordAt eeprom 1
  must (7 ≤ eeprom.length && byteAt eeprom 0 == 1 && within 11 1024 len && decide (len ≤ eeprom.length))
  let body := eeprom.take (len - 2)
  must ((byteSum body + wordAt eeprom (len - 2)) % 65536 == 0xA55A)
  let ss ← splitSections len (body.drop 7)
  readSections (wordAt eeprom 3) (readDuties eeprom 5) ss

end Sys2Proof.Machine
end

