-- ==== Sys2Proof/Machine/StartRows.lean ====
section
/-! DEFINITION. The resets and the start (sections 12.1 and 12.4): POWER_ON_RESET to START_DECISION. -/

namespace Sys2Proof.Machine

/-- The state in a hold that a reset of a cause began (R202); the commands that wait stay. -/
def State.hold (cause : Nat) (s : State) : State := { pending := s.pending, rx := {}, node := resetNode cause }

/-- POWER_ON_RESET (R202): also during a hold it records power-on. -/
def execPowerOnReset (_dt : Nat) (s : State) : Host.Outcome State Fault Refusal := .next (s.hold 1)

/-- RESET_PIN (R202): during a hold the recorded cause stays. -/
def execResetPin (_dt : Nat) (s : State) : Host.Outcome State Fault Refusal :=
  if s.node.held then .next s else .next (s.hold 2)

/-- BROWN_OUT (R202): a dip of 20 ms or less causes no reset. -/
def execBrownOut (dt lowMs : Nat) (s : State) : Host.Outcome State Fault Refusal :=
  if s.node.held then .next s
  else if brownOutTime < lowMs then .next (s.hold 3)
  else .next { s with node := advance dt s.node }

/-- The station number that the straps give (R203). -/
def stationOf (straps : BitVec 4) : Option Nat :=
  if 1 ≤ straps.toNat ∧ straps.toNat ≤ 14 then some straps.toNat else none

/-- The hold ends, if there is one, and the time base then reads 0 (R202). -/
def endHold (n : Node) : Node := if n.held then { n with held := false, now := 0 } else n

/-- The node after the memory self-check and the straps (R203). -/
def startNode (selfCheck : Bool) (straps : BitVec 4) (n : Node) : Node :=
  if selfCheck then { endHold n with checked := true, station := stationOf straps }
  else { endHold n with state := some .halted, faultPin := true }

/-- The node is held in reset, or a commanded RESTART has begun its start and the self-check has not run (R202). -/
def beforeCheck (n : Node) : Bool := n.held || (!n.checked && n.state.isNone)

/-- START (R202, R203): the hold ends, and the self-check runs; after a commanded RESTART, whose hold has ended at
once, the self-check alone (log entry 11). -/
def execStart (dt : Nat) (selfCheck : Bool) (straps : BitVec 4) (s : State) : Host.Outcome State Fault Refusal :=
  let n := advance dt s.node
  if beforeCheck n then .next { s with node := startNode selfCheck straps n } else .next { s with node := n }

/-! ## The image is applied (R205) -/

/-- The accountant's record at the application (R9, R28). -/
def startBattery (c : BatteryCfg) (now : Nat) : Battery where
  q := c.startSoc * capacity c / 1000
  band := if c.startSoc = 0 then .cutoff else if c.startSoc < c.reserve then .reserve else .economy
  due := some (now + samplePeriod)

/-- A channel at the application (R170 to R172, R176); an open OUT pin is read as one without a pull device (log entry
5). -/
def startChannel (c : ChanCfg) (level : PinLevel) (now free : Nat) : Channel :=
  match c.role with
  | .off => {}
  | .out =>
    let high := pinHigh .none level free
    { pinHigh := high, highOff := if high then some now else none, lowOff := if high then none else some now }
  | .inp => { instant := instantState c level free, filter := some now }
  | .ain => { due := some (now + ainPeriod) }
  | .pulse => { instant := instantState c level free, due := some (now + quarter) }

/-- A temperature input at the application (R181). -/
def startTemp (t : TempType) (now : Nat) : TempInput :=
  { due := if t = .unused then none else some (now + tempPeriod) }

/-- The bank at the application (R170). -/
def startBank (c : Image) (pins : Vector PinLevel 16) (now free : Nat) : Bank :=
  { chans := .ofFn fun i => startChannel c.chans[i] pins[i] now (free + i.val)
    temps := .ofFn fun i => startTemp c.temps[i] now }

/-- The heater at the application (R131). -/
def startHeater (c : HeaterCfg) : Heater where
  state := if c.mode = .off then .off else .standby
  mode := c.mode
  setpoint := c.setpoint

/-- Every block takes its settings, and the timers that count from the application start (R205). -/
def applyImage (c : Image) (pins : Vector PinLevel 16) (n : Node) : Node :=
  let now := n.now
  { n with
    cfg := some c
    battery := (c.battery.map (startBattery · now)).getD {}
    tanks := (c.tanks.map fun l => { records := l.map fun _ => {}, due := some (now + firstScan) : Tanks }).getD {}
    pump := { modeOn := c.pump.any (·.modeOn) }
    frost := { grace := now }
    heater := (c.heater.map startHeater).getD {}
    wind := { due := c.wind.map fun _ => now + quarter }
    lights := { channels := (c.lights.map fun l => l.channels.map fun _ => {}).getD [] }
    bank := startBank c pins now n.free
    free := n.free + 16
    cmd := { n.cmd with map := c.map } }

/-- The decision's node state, the station view's part of it, and the transmitter, which is enabled from then on in
the states in which the node sends (R30, R43, R46, R193, R205). -/
def decideState (valid : Bool) (n : Node) : Node :=
  let listening := valid && n.station.isSome
  let n : Node := { n with state := some (if listening then .listening else .listenOnly) }
  let n := n.setView { n.view with
    listen := if listening then n.after listeningTime else none
    orphanRef := some n.now
    shed := if listening then 0 else 4
    source := chooseSource n }
  let n := n.setTx { n.tx with since := if n.station.isSome then some n.now else none }
  n.setEv { n.ev with presence := true }

/-- The decision (R205): a valid image is applied, an invalid one is not applied in part (R204). -/
def startDecide (eeprom : List Byte) (pins : Vector PinLevel 16) (n : Node) : Node :=
  match readImage eeprom with
  | some c => decideState true (applyImage c pins n)
  | none => decideState false n

/-- The node is in its start: the self-check has passed and the decision has not fallen. -/
def starting (n : Node) : Bool := !n.held && n.checked && n.state.isNone

/-- START_DECISION (R204, R205). -/
def execStartDecision (dt : Nat) (eeprom : List Byte) (pins : Vector PinLevel 16) (s : State) :
    Host.Outcome State Fault Refusal :=
  let n := advance dt s.node
  if starting n then .next (commit s s.rx (finish n (startDecide eeprom pins n))) else .next { s with node := n }

end Sys2Proof.Machine
end

