-- ==== Sys2Proof/Machine/Dispatch.lean ====
section
/-! DEFINITION. The dispatch of a command to its meaning, one arm per row of the table. -/

namespace Sys2Proof.Machine

/-- A command's effect on everything but the queue of commands. -/
def exec (i : Instr) (s : State) : Host.Outcome State Fault Refusal :=
  match i with
  | .powerOnReset dt => Sys2Proof.Machine.execPowerOnReset dt s
  | .resetPin dt => Sys2Proof.Machine.execResetPin dt s
  | .brownOut dt lowMs => Sys2Proof.Machine.execBrownOut dt lowMs s
  | .start dt selfCheck straps => Sys2Proof.Machine.execStart dt selfCheck straps s
  | .startDecision dt eeprom pins => Sys2Proof.Machine.execStartDecision dt eeprom pins s
  | .measurementEvent dt shunt volt => Sys2Proof.Machine.execMeasurementEvent dt shunt volt s
  | .minutesSinceSyncTick dt => Sys2Proof.Machine.execMinutesSinceSyncTick dt s
  | .allowancePeriod dt => Sys2Proof.Machine.execAllowancePeriod dt s
  | .listeningTimerExpiry dt => Sys2Proof.Machine.execListeningTimerExpiry dt s
  | .dispatchPresence dt => Sys2Proof.Machine.execDispatchPresence dt s
  | .dispatchDraw dt => Sys2Proof.Machine.execDispatchDraw dt s
  | .dispatchAllowance dt => Sys2Proof.Machine.execDispatchAllowance dt s
  | .dispatchTanks dt => Sys2Proof.Machine.execDispatchTanks dt s
  | .dispatchClimate dt => Sys2Proof.Machine.execDispatchClimate dt s
  | .dispatchMotion dt => Sys2Proof.Machine.execDispatchMotion dt s
  | .dispatchLights dt => Sys2Proof.Machine.execDispatchLights dt s
  | .dispatchReply dt => Sys2Proof.Machine.execDispatchReply dt s
  | .dispatchReport dt => Sys2Proof.Machine.execDispatchReport dt s
  | .peerAgeOut dt station => Sys2Proof.Machine.execPeerAgeOut dt station s
  | .orphanExpiry dt => Sys2Proof.Machine.execOrphanExpiry dt s
  | .presencePeriod dt => Sys2Proof.Machine.execPresencePeriod dt s
  | .drawPeriod dt => Sys2Proof.Machine.execDrawPeriod dt s
  | .settleEnd dt => Sys2Proof.Machine.execSettleEnd dt s
  | .waitDeadline dt slot => Sys2Proof.Machine.execWaitDeadline dt slot s
  | .scanStart dt => Sys2Proof.Machine.execScanStart dt s
  | .scanComplete dt => Sys2Proof.Machine.execScanComplete dt s
  | .tanksPeriod dt => Sys2Proof.Machine.execTanksPeriod dt s
  | .pumpMode dt => Sys2Proof.Machine.execPumpMode dt s
  | .pumpReset dt => Sys2Proof.Machine.execPumpReset dt s
  | .pumpRunTimeout dt => Sys2Proof.Machine.execPumpRunTimeout dt s
  | .pumpLowTimeout dt => Sys2Proof.Machine.execPumpLowTimeout dt s
  | .frostGraceEnd dt => Sys2Proof.Machine.execFrostGraceEnd dt s
  | .countdownExpiry dt => Sys2Proof.Machine.execCountdownExpiry dt s
  | .valveMoveEnd dt => Sys2Proof.Machine.execValveMoveEnd dt s
  | .frostArm dt => Sys2Proof.Machine.execFrostArm dt s
  | .frostDisarm dt => Sys2Proof.Machine.execFrostDisarm dt s
  | .frostClose dt => Sys2Proof.Machine.execFrostClose dt s
  | .heaterMode dt => Sys2Proof.Machine.execHeaterMode dt s
  | .heaterReset dt => Sys2Proof.Machine.execHeaterReset dt s
  | .purgeEnd dt => Sys2Proof.Machine.execPurgeEnd dt s
  | .glowEnd dt => Sys2Proof.Machine.execGlowEnd dt s
  | .ignitionLimit dt => Sys2Proof.Machine.execIgnitionLimit dt s
  | .fuelPulseStart dt => Sys2Proof.Machine.execFuelPulseStart dt s
  | .fuelPulseEnd dt => Sys2Proof.Machine.execFuelPulseEnd dt s
  | .levelHoldExpiry dt => Sys2Proof.Machine.execLevelHoldExpiry dt s
  | .satisfiedExpiry dt => Sys2Proof.Machine.execSatisfiedExpiry dt s
  | .flameLossExpiry dt => Sys2Proof.Machine.execFlameLossExpiry dt s
  | .cooldownLimit dt => Sys2Proof.Machine.execCooldownLimit dt s
  | .climatePeriod dt => Sys2Proof.Machine.execClimatePeriod dt s
  | .awningExtend dt => Sys2Proof.Machine.execAwningExtend dt s
  | .awningRetract dt => Sys2Proof.Machine.execAwningRetract dt s
  | .awningExtendTo dt => Sys2Proof.Machine.execAwningExtendTo dt s
  | .awningStop dt => Sys2Proof.Machine.execAwningStop dt s
  | .stepExtend dt => Sys2Proof.Machine.execStepExtend dt s
  | .stepRetract dt => Sys2Proof.Machine.execStepRetract dt s
  | .stepStop dt => Sys2Proof.Machine.execStepStop dt s
  | .dwellEnd dt unit => Sys2Proof.Machine.execDwellEnd dt unit s
  | .targetReached dt unit => Sys2Proof.Machine.execTargetReached dt unit s
  | .bridgeCurrentReading dt unit mA => Sys2Proof.Machine.execBridgeCurrentReading dt unit mA s
  | .jam dt unit => Sys2Proof.Machine.execJam dt unit s
  | .motionTimeout dt unit => Sys2Proof.Machine.execMotionTimeout dt unit s
  | .bridgeOvercurrent dt unit mA => Sys2Proof.Machine.execBridgeOvercurrent dt unit mA s
  | .bridgeDwellComplete dt unit => Sys2Proof.Machine.execBridgeDwellComplete dt unit s
  | .pulseCountPeriod dt ch => Sys2Proof.Machine.execPulseCountPeriod dt ch s
  | .windEvaluation dt => Sys2Proof.Machine.execWindEvaluation dt s
  | .windLockoutEnd dt => Sys2Proof.Machine.execWindLockoutEnd dt s
  | .motionPeriod dt => Sys2Proof.Machine.execMotionPeriod dt s
  | .lightLevel dt => Sys2Proof.Machine.execLightLevel dt s
  | .scene dt => Sys2Proof.Machine.execScene dt s
  | .lightsAllOff dt => Sys2Proof.Machine.execLightsAllOff dt s
  | .fadeStep dt light => Sys2Proof.Machine.execFadeStep dt light s
  | .longPress dt light => Sys2Proof.Machine.execLongPress dt light s
  | .courtesyHoldExpiry dt => Sys2Proof.Machine.execCourtesyHoldExpiry dt s
  | .lightsPeriod dt => Sys2Proof.Machine.execLightsPeriod dt s
  | .inputChange dt ch level => Sys2Proof.Machine.execInputChange dt ch level s
  | .inputAccepted dt ch => Sys2Proof.Machine.execInputAccepted dt ch s
  | .pulseCounted dt ch activeUs => Sys2Proof.Machine.execPulseCounted dt ch activeUs s
  | .ainConversion dt ch value => Sys2Proof.Machine.execAinConversion dt ch value s
  | .tempReading dt input ohms temp => Sys2Proof.Machine.execTempReading dt input ohms temp s
  | .outputTrip dt ch => Sys2Proof.Machine.execOutputTrip dt ch s
  | .readbackTrip dt ch => Sys2Proof.Machine.execReadbackTrip dt ch s
  | .backfedMarkSet dt ch => Sys2Proof.Machine.execBackfedMarkSet dt ch s
  | .backfedMarkClear dt ch => Sys2Proof.Machine.execBackfedMarkClear dt ch s
  | .retry dt ch => Sys2Proof.Machine.execRetry dt ch s
  | .tripCountClear dt ch => Sys2Proof.Machine.execTripCountClear dt ch s
  | .channelReset dt => Sys2Proof.Machine.execChannelReset dt s
  | .auxOutput dt => Sys2Proof.Machine.execAuxOutput dt s
  | .frameBegin dt idleBits => Sys2Proof.Machine.execFrameBegin dt idleBits s
  | .frameCharacterFault dt index character => Sys2Proof.Machine.execFrameCharacterFault dt index character s
  | .frameComplete dt bytes => Sys2Proof.Machine.execFrameComplete dt bytes s
  | .frameBroken dt gapUs => Sys2Proof.Machine.execFrameBroken dt gapUs s
  | .attemptStart dt idleBits => Sys2Proof.Machine.execAttemptStart dt idleBits s
  | .collision dt bit read => Sys2Proof.Machine.execCollision dt bit read s
  | .jamEnd dt jamBits => Sys2Proof.Machine.execJamEnd dt jamBits s
  | .frameSent dt => Sys2Proof.Machine.execFrameSent dt s
  | .jabberCut dt dominantUs => Sys2Proof.Machine.execJabberCut dt dominantUs s
  | .jabberRecoveryEnd dt idleMs => Sys2Proof.Machine.execJabberRecoveryEnd dt idleMs s
  | .reportSelect dt => Sys2Proof.Machine.execReportSelect dt s
  | .queryReport dt => Sys2Proof.Machine.execQueryReport dt s
  | .queryCounters dt => Sys2Proof.Machine.execQueryCounters dt s
  | .queryFlags dt => Sys2Proof.Machine.execQueryFlags dt s
  | .restart dt => Sys2Proof.Machine.execRestart dt s
  | .restartDeadline dt => Sys2Proof.Machine.execRestartDeadline dt s
  | .unknownCommand dt => Sys2Proof.Machine.execUnknownCommand dt s
  | .outputCurrentChange dt ch mA => Sys2Proof.Machine.execOutputCurrentChange dt ch mA s
  | .outputPinReadChange dt ch high => Sys2Proof.Machine.execOutputPinReadChange dt ch high s

end Sys2Proof.Machine
end

