-- ==== Sys2Proof/Safety.lean ====
section
/-! DEFINITION. What counts as a sound state of the block, and the terms in which the statements are made: the node a
command finds, the state an event ends in, a COMMAND that is heard, frames that a payload can carry. -/

namespace Sys2Proof.Machine

/-! ## Sound states -/

/-- The receive pool has eight buffers: those waiting and the one filling are no more (R186). -/
def poolFits (rx : Receiver) : Bool :=
  rx.arrival.length + (if rx.phase = .filling then 1 else 0) ≤ bufferCount

/-- The periodic kinds among some entries, in their order. -/
def periodicKinds (q : List TxEntry) : List Kind := (q.map fun e => kindOf e.frame).filter isPeriodic

/-- The transmit queue holds at most six entries, and at most one queued entry of each periodic kind (R187), each
entry under an id of its own. -/
def queueFits (n : Node) : Bool :=
  decide (n.tx.queue.length ≤ queueLimit) && decide (n.tx.queue.map (·.id)).Nodup
    && n.tx.queue.all (fun e => decide (e.id < n.tx.nextId)) && decide (periodicKinds (queuedPart n.tx)).Nodup

/-- A peer table holds at most 13 entries, one for each station and none for the node's own number (R36). -/
def peersFit (station : Option Nat) (peers : List Peer) : Bool :=
  decide (peers.length ≤ peerLimit) && decide (peers.map (·.station)).Nodup
    && peers.all fun p => some p.station != station

/-- The peer table fits (R36). -/
def tableFits (n : Node) : Bool := peersFit n.station n.view.peers

/-- The counters have not passed their greatest value (R192, R198). -/
def countersFit (n : Node) : Bool := n.cmd.counters.toList.all fun k => decide (k ≤ counterTop)

/-- The marks of an event are clear between events. -/
def eventClear (n : Node) : Bool := n.ev == {}

/-- Until the node state is decided the peer table and the request list are empty, and in a hold it is not decided
(R46, R153, R202). -/
def startFits (n : Node) : Bool :=
  (n.state.isSome || (n.view.peers.isEmpty && n.motion.list.isEmpty)) && (!n.held || n.state.isNone)

/-- The record of a bridge agrees with its state (R179, R180): the last drive is the one under way; a bridge that drives
or brakes has left COAST; a drive is pending in COAST alone; readings fall due while it drives alone. -/
def bridgeFits (b : Bridge) : Bool :=
  (match b.state with
   | .forward => b.last == some .extend && b.coastSince.isNone
   | .reverse => b.last == some .retract && b.coastSince.isNone
   | .brake => b.coastSince.isNone && b.due.isNone
   | .coast | .fault => b.due.isNone)
    && (b.state == .coast || b.pending.isNone)

/-- An entry that may stand in the request list (R136, R147, R148): no command entry of a unit of the node that extends
waits while a view forbids it. -/
def mayStand (n : Node) (e : Entry) : Bool :=
  !((n.unitCfg e.unit).isSome && interlocked e.unit n && isCommand e && isExtend e.action) || e.state == .active

/-- The request list keeps the interlocks. -/
def listFits (n : Node) : Bool := n.motion.list.all (mayStand n)

/-- A sound state of the block. -/
def State.sound (s : State) : Bool :=
  poolFits s.rx && queueFits s.node && tableFits s.node && countersFit s.node && eventClear s.node
    && startFits s.node && bridgeFits s.node.bank.bridgeA && bridgeFits s.node.bank.bridgeB && listFits s.node

/-- What has happened to a bridge between two moments of one event at `now`, as R179 allows it. -/
structure DwellKept (now : Nat) (b b' : Bridge) : Prop where
  /-- It drives a direction only when its last drive was the same or none, or it has stood in COAST for 500 ms. -/
  drive : ∀ d, b'.state = driveState d → dwellComplete now b d = true
  /-- Its last drive direction changes by such a drive alone. -/
  last : b'.last = b.last ∨ ∃ d, b'.last = some d ∧ dwellComplete now b d = true
  /-- COAST is counted from where it was, or from this moment. -/
  coast : b'.coastSince = none ∨ b'.coastSince = some now ∨ (b'.coastSince = b.coastSince ∧ b'.last = b.last)

/-- The law of sheds (R70): no claim of class 0 to 3 is ASKING, HOLDING or WAITING with a held amount while the
effective shed level forbids its class; before the node state is decided every slot is IDLE. -/
def Node.shedLaw (n : Node) : Bool :=
  slots.all fun i =>
    let c := n.claim i
    (!forbids n.view.shed c.cls || c.state == .idle || (c.state == .waiting && c.held == 0))
      && (n.state.isSome || c == {})

/-- A step that gives a next state; every step of this block does, and none faults or is refused. -/
def completes (s : State) : Bool :=
  match step s with
  | .next _ => true
  | _ => false

/-! ## Events -/

/-- The node a command finds when `dt` ms have passed. -/
def State.found (s : State) (dt : Nat) : Node := keepTemp (advance dt s.node)

/-- The state after an event whose own effect left the node `m` and the receiver `rx`: what the blocks tell one
another, the wait service and the frames of the event follow. -/
def State.ended (s : State) (dt : Nat) (rx : Receiver) (m : Node) : State := commit s rx (finish (s.found dt) m)

/-- No event is under way and no restart is pending. -/
def Node.calm (n : Node) : Bool := n.ev == {} && n.cmd.restart.isNone

/-- The dispatch row of a frame kind; a COMMAND has a row for each code. -/
def dispatchRow (dt : Nat) : Kind → Option Instr
  | .presence => some (.dispatchPresence dt) | .draw => some (.dispatchDraw dt)
  | .allowance => some (.dispatchAllowance dt) | .tanks => some (.dispatchTanks dt)
  | .climate => some (.dispatchClimate dt) | .motion => some (.dispatchMotion dt)
  | .lights => some (.dispatchLights dt) | .reply => some (.dispatchReply dt)
  | .report => some (.dispatchReport dt) | .command => none

/-- The row of a COMMAND, by its code and, for a unit's, by its action (section 12.3; log entry 8). -/
def commandRow (dt : Nat) (b : CommandBody) : Instr :=
  match b.code with
  | 0x01 => .lightLevel dt | 0x02 => .scene dt | 0x03 => .lightsAllOff dt
  | 0x10 => .heaterMode dt | 0x11 => .heaterReset dt | 0x18 => .pumpMode dt | 0x19 => .pumpReset dt
  | 0x20 => .frostArm dt | 0x21 => .frostDisarm dt | 0x22 => .frostClose dt
  | 0x28 => match byteAt b.args 0 with
    | 2 => .awningRetract dt | 3 => .awningStop dt | 4 => .awningExtendTo dt | _ => .awningExtend dt
  | 0x29 => match byteAt b.args 0 with
    | 2 => .stepRetract dt | 3 => .stepStop dt | _ => .stepExtend dt
  | 0x30 => .auxOutput dt | 0x31 => .channelReset dt | 0x38 => .reportSelect dt | 0x39 => .queryReport dt
  | 0x3A => .queryCounters dt | 0x3B => .queryFlags dt | 0x3F => .restart dt
  | _ => .unknownCommand dt

/-- The row that dispatches a frame, of whatever kind. -/
def frameRow (dt : Nat) : Frame → Instr
  | .command b => commandRow dt b
  | f => (dispatchRow dt (kindOf f)).getD (.unknownCommand dt)

/-- The row of a unit's move command; the step has no EXTEND_TO. -/
def moveRow (dt : Nat) : MotionUnit → Action → Option Instr
  | .awning, .extend => some (.awningExtend dt) | .awning, .retract => some (.awningRetract dt)
  | .awning, .extendTo _ => some (.awningExtendTo dt)
  | .step, .extend => some (.stepExtend dt) | .step, .retract => some (.stepRetract dt)
  | .step, .extendTo _ => none

/-- The row of a unit's STOP. -/
def stopRow (dt : Nat) : MotionUnit → Instr
  | .awning => .awningStop dt
  | .step => .stepStop dt

/-- The command rows that are checked alike, with their codes, the duties they need and the lengths of arguments they
take (R195, section 12.3). -/
def checkedRows (dt : Nat) : List (Instr × Nat × Option Duty × Nat) :=
  [(.lightLevel dt, 0x01, some .lights, 2), (.scene dt, 0x02, some .lights, 1), (.lightsAllOff dt, 0x03, some .lights, 0),
   (.heaterMode dt, 0x10, some .heater, 3), (.heaterReset dt, 0x11, some .heater, 0),
   (.pumpMode dt, 0x18, some .pump, 1), (.pumpReset dt, 0x19, some .pump, 0),
   (.frostArm dt, 0x20, some .frost, 0), (.frostDisarm dt, 0x21, some .frost, 0), (.frostClose dt, 0x22, some .frost, 0),
   (.auxOutput dt, 0x30, some .aux, 2), (.channelReset dt, 0x31, none, 1), (.reportSelect dt, 0x38, none, 8)]

/-- The frame `x` heads the arrival list, `rest` behind it, at a node that is up; steps 1 to 4 of R35 take it: its
SOURCE is a station other than the node, it is not stale, and the table has its entry or room for one. -/
structure Admitted (s : State) (dt : Nat) (x : RxFrame) (rest : List RxFrame) : Prop where
  up : (s.found dt).up = true
  head : s.rx.arrival = x :: rest
  low : 1 ≤ x.source
  high : x.source ≤ 14
  other : (s.found dt).station ≠ some x.source
  fresh : (s.found dt).now ≤ x.stamp + peerAge
  room : (s.found dt).view.peers.any (·.station == x.source) = true ∨ (s.found dt).view.peers.length < peerLimit

/-- The node after steps 1 to 5 of the dispatch of a frame (R35). -/
def State.admitted (s : State) (dt : Nat) (x : RxFrame) : Node := (takeFrame x (s.found dt)).1

/-- The receiver when the head's buffer has returned to the free list (R186). -/
def Receiver.without (rx : Receiver) (rest : List RxFrame) : Receiver := { rx with arrival := rest }

/-- A COMMAND `b` of a code is heard: it heads the arrival list and is taken, and it is addressed to this node or a
broadcast (R194). -/
structure Heard (s : State) (dt code : Nat) (x : RxFrame) (rest : List RxFrame) (b : CommandBody) : Prop extends
    Admitted s dt x rest where
  frame : x.frame = .command b
  code : b.code = code
  target : (s.found dt).station = some b.target ∨ b.target = 0
  station : (s.found dt).station ≠ some 0

/-- What an event owes after a COMMAND: the REPLY with a result and detail when it is addressed (R195), else
nothing. -/
def Node.owing (n : Node) (x : RxFrame) (b : CommandBody) (r : Result) (detail : Int) : Option ReplyBody :=
  if n.station = some b.target then some ⟨x.source, b.tag, b.code, resultCode r, detail⟩ else n.ev.reply

/-- A frame stands in the transmit queue. -/
def State.queued (t : State) (f : Frame) : Prop := ∃ e ∈ t.node.tx.queue, e.frame = f

/-- A frame of a kind stands in the transmit queue. -/
def State.queuedKind (t : State) (k : Kind) : Prop := ∃ e ∈ t.node.tx.queue, kindOf e.frame = k

/-! ## Frames that a payload can carry (section 12.3) -/

/-- A level or position that a word can carry. -/
def fitsLevel (v : Option Nat) : Bool := v.all fun k => decide (k < 0xFFFF)

/-- A number that a signed word can carry. -/
def fitsSigned (v : Int) : Bool := decide (-32768 ≤ v ∧ v ≤ 32767)

/-- A temperature that a signed word can carry beside the invalid mark. -/
def fitsTemp (v : Option Int) : Bool := v.all fun t => decide (-32767 ≤ t ∧ t ≤ 32767)

def fitsByte (v : Nat) : Bool := decide (v < 256)
def fitsWord (v : Nat) : Bool := decide (v < 65536)

def fitsClaim (d : DrawClaim) : Bool := decide (d.slot < 8) && decide (d.cls < 8) && fitsByte d.held && fitsByte d.asked

def fitsUnit (u : UnitBody) : Bool :=
  fitsByte u.kind && decide (u.state < 16) && decide (u.cause < 4) && fitsLevel u.pos && fitsByte u.tag
    && fitsByte u.outcome

/-- A frame whose every field lies within what its place in the payload holds. -/
def fitsPayload : Frame → Bool
  | .presence b => fitsByte b.node && fitsByte b.cause && fitsWord b.ident
  | .draw claims => decide (claims.length ≤ 8) && claims.all fitsClaim
  | .allowance b =>
    fitsWord b.allowance && fitsByte b.shed && fitsByte b.band && fitsWord b.soc && fitsWord b.voltage
      && fitsSigned b.current && fitsSigned b.temp && fitsWord b.minutes
  | .tanks tanks frost =>
    decide (tanks.length ≤ 3) && tanks.all (fun t => decide (t.kind < 4) && fitsLevel t.level)
      && frost.all fun f => fitsByte f.1 && fitsTemp f.2
  | .climate b =>
    fitsByte b.state && fitsByte b.level && fitsByte b.mode && fitsSigned b.setpoint && fitsTemp b.cabin
      && fitsTemp b.exhaust && fitsByte b.reason && fitsByte b.attempts
  | .motion units wind => decide (units.length ≤ 2) && units.all fitsUnit && wind.all fitsWord
  | .lights channels => decide (channels.length ≤ 8) && channels.all fun l => fitsByte l.level
  | .command b => fitsByte b.target && fitsByte b.tag && fitsByte b.code && decide (b.args.length ≤ 8)
  | .reply b =>
    fitsByte b.requester && fitsByte b.tag && fitsByte b.code && fitsByte b.result && fitsSigned b.detail
  | .report (.quantities start count values) =>
    fitsByte start && decide (count = values.length) && decide (count ≤ 6)
      && values.all fun v => decide (-2147483648 ≤ v ∧ v ≤ 2147483647)
  | .report (.counters start count values) =>
    fitsByte start && decide (count = 12) && decide (values.length = 12) && values.all fitsWord
  | .report (.flags start count _) => fitsByte start && decide (count = 16)

/-! ## Valid images (R204, section 12.4)

What a valid image is, said of its bytes: `p` is the content of a section, `cp` that of CHANNELS, `d` the duty set as a
number with the bits of PRESENCE. -/

/-- A value in a range. -/
def Ranges {α : Type} [LE α] (lo hi v : α) : Prop := lo ≤ v ∧ v ≤ hi

/-- `n` values of which each is above the one before it. -/
def Rises (n : Nat) (f : Nat → Nat) : Prop := ∀ k, k + 1 < n → f k < f (k + 1)

/-- The codes of the roles and of the types of temperature inputs, in the order of section 12.4. -/
def roleNumber : Role → Nat
  | .off => 0 | .out => 1 | .inp => 2 | .ain => 3 | .pulse => 4

def typeNumber : TempType → Nat
  | .unused => 0 | .ntc => 1 | .high => 2

/-- A channel field names a channel that CHANNELS gives this role and this owner. -/
def IsBound (cp : List Byte) (r : Role) (owner : Duty) (ch : Nat) : Prop :=
  ch < 16 ∧ byteAt cp (6 * ch) = roleNumber r + 8 * dutyBit owner

/-- An input field names a temperature input of this type. -/
def IsTyped (cp : List Byte) (t : TempType) (input : Nat) : Prop := input < 4 ∧ byteAt cp (96 + input) = typeNumber t

/-- The owners that may bind a role (section 9.1). -/
def ownersOf : Role → List Duty
  | .off => []
  | .out => [.tanks, .pump, .frost, .heater, .lights, .aux]
  | .inp => [.battery, .tanks, .pump, .frost, .awning, .step, .lights, .travel]
  | .ain => [.tanks, .aux]
  | .pulse => [.wind]

/-- GENERAL: the orphan allowance (section 2.5) and the report map (R204). -/
def GeneralFits (p : List Byte) : Prop :=
  p.length = 5 + byteAt p 4 ∧ longAt p 0 ≤ 100000 ∧ Ranges 1 12 (byteAt p 4) ∧
    ∀ k, k < byteAt p 4 → byteAt p (5 + k) ≤ 23

/-- One record of CHANNELS (section 9.1, R170). -/
def ChannelFits (d : Nat) (cp : List Byte) (i : Nat) : Prop :=
  ∃ r, byteAt cp (6 * i) % 8 = roleNumber r ∧
    (r ≠ .off → ∃ o ∈ ownersOf r, byteAt cp (6 * i) / 8 = dutyBit o ∧ d.testBit (dutyBit o) = true) ∧
    (r = .out → Ranges 500 10000 (wordAt cp (6 * i + 1)) ∧
      (byteAt cp (6 * i) / 8 = dutyBit .aux → Ranges 100 10000 (wordAt cp (6 * i + 4)))) ∧
    (r = .inp ∨ r = .pulse → byteAt cp (6 * i + 3) / 4 % 4 ≠ 3)

/-- CHANNELS, with the types of the temperature inputs (sections 9.1 and 9.6, R170). -/
structure ChannelsFit (d : Nat) (cp : List Byte) : Prop where
  length : cp.length = 100
  channels : ∀ i, i < 16 → ChannelFits d cp i
  types : ∀ t, t < 4 → byteAt cp (96 + t) ≤ 2
  draws : ((List.range 16).map fun i =>
    if byteAt cp (6 * i) = roleNumber .out + 8 * dutyBit .aux then wordAt cp (6 * i + 4) else 0).sum ≤ 25500

/-- BATTERY (section 1.1, R1, section 9.6). -/
structure BatteryFits (cp p : List Byte) : Prop where
  length : p.length = 77
  capacity : Ranges 10 1500 (wordAt p 0) ∧ Ranges 50 2000 (wordAt p 2) ∧ Ranges 80 100 (byteAt p 4)
  start : wordAt p 5 ≤ 1000 ∧ Ranges 100 2000 (wordAt p 7) ∧ Ranges 10 240 (byteAt p 9)
  full : Ranges 10000 32000 (wordAt p 10) ∧ Ranges 100 20000 (wordAt p 12)
  thresholds : Ranges 100 950 (wordAt p 14) ∧ Ranges 50 800 (wordAt p 16) ∧ wordAt p 16 + 50 ≤ wordAt p 14
  cutoff : Ranges 8000 26000 (wordAt p 18) ∧ Ranges 100 3000 (wordAt p 20)
  limits : (∀ k, k < 4 → Ranges 1000 650000 (longAt p (22 + 4 * k))) ∧
    longAt p 30 ≤ longAt p 26 ∧ longAt p 26 ≤ longAt p 22 ∧ longAt p 22 ≤ longAt p 34
  derating : Ranges (-300) 200 (signedAt p 38) ∧ Ranges (-400) 190 (signedAt p 40) ∧ signedAt p 40 + 10 ≤ signedAt p 38
  inputs : (byteAt p 42 = 0xFF ∨ IsTyped cp .ntc (byteAt p 42)) ∧
    (byteAt p 43 = 0xFF ∨ IsBound cp .inp .battery (byteAt p 43))
  table : Ranges 2 8 (byteAt p 44) ∧
    (∀ k, k < byteAt p 44 → wordAt p (45 + 4 * k) ≤ 32767 ∧ wordAt p (47 + 4 * k) ≤ 1000) ∧
    Rises (byteAt p 44) (fun k => wordAt p (45 + 4 * k)) ∧ Rises (byteAt p 44) fun k => wordAt p (47 + 4 * k)

/-- One tank's record (section 4.1, R75); the codes of the method are LADDER 0 and SENDER 1 (log entry 51). -/
structure TankFits (cp p : List Byte) : Prop where
  kind : byteAt p 0 ≤ 2 ∧ (byteAt p 0 ≠ 0 → Ranges 500 1000 (wordAt p 2))
  method : byteAt p 1 ≤ 1
  ladder : byteAt p 1 = 0 → Ranges 2 8 (byteAt p 4) ∧
    (∀ k, k < byteAt p 4 → IsBound cp .inp .tanks (byteAt p (5 + k))) ∧ IsBound cp .out .tanks (byteAt p 13)
  sender : byteAt p 1 = 1 → IsBound cp .ain .tanks (byteAt p 14) ∧
    (byteAt cp (6 * byteAt p 14 + 3)).testBit 5 = false ∧ Ranges 2 8 (byteAt p 15) ∧
    (∀ k, k < byteAt p 15 → wordAt p (16 + 4 * k) ≤ 400 ∧ wordAt p (18 + 4 * k) ≤ 1000) ∧
    Rises (byteAt p 15) (fun k => wordAt p (16 + 4 * k)) ∧
    (Rises (byteAt p 15) (fun k => wordAt p (18 + 4 * k)) ∨
      ∀ k, k + 1 < byteAt p 15 → wordAt p (18 + 4 * (k + 1)) < wordAt p (18 + 4 * k))

/-- TANKS; records beyond the count are not read (section 12.4). -/
def TanksFit (cp p : List Byte) : Prop :=
  p.length = 145 ∧ byteAt p 0 ≤ 3 ∧ ∀ k, k < byteAt p 0 → TankFits cp (p.drop (1 + 48 * k))

/-- PUMP (section 4.7, R87); the codes of the mode are OFF 0 and ON 1 (log entry 51). -/
def PumpFits (cp p : List Byte) : Prop :=
  p.length = 7 ∧ IsBound cp .out .pump (byteAt p 0) ∧ IsBound cp .inp .pump (byteAt p 1) ∧
    Ranges 100 20000 (wordAt p 2) ∧ byteAt p 4 ≤ 1 ∧ Ranges 10 900 (wordAt p 5)

/-- FROST (section 5.1, R96, section 9.6). -/
def FrostFits (cp p : List Byte) : Prop :=
  p.length = 8 ∧ IsBound cp .out .frost (byteAt p 0) ∧ IsBound cp .out .frost (byteAt p 1) ∧ byteAt p 0 ≠ byteAt p 1 ∧
    IsBound cp .inp .frost (byteAt p 2) ∧ (byteAt p 3 = 0xFF ∨ IsTyped cp .ntc (byteAt p 3)) ∧
    Ranges (-50) 100 (signedAt p 4) ∧ Ranges 60 3600 (wordAt p 6)

/-- HEATER (section 6.1, R109). -/
structure HeaterFits (cp p : List Byte) : Prop where
  length : p.length = 30
  outputs : IsBound cp .out .heater (byteAt p 0) ∧ IsBound cp .out .heater (byteAt p 1) ∧
    IsBound cp .out .heater (byteAt p 2) ∧ byteAt p 0 ≠ byteAt p 1 ∧ byteAt p 0 ≠ byteAt p 2 ∧ byteAt p 1 ≠ byteAt p 2
  inputs : IsTyped cp .high (byteAt p 3) ∧ (byteAt p 4 = 0xFF ∨ IsTyped cp .ntc (byteAt p 4)) ∧ byteAt p 4 ≠ byteAt p 3
  mode : byteAt p 5 ≤ 3
  setpoint : Ranges 50 300 (signedAt p 6) ∧ signedAt p 6 % 5 = 0
  start : Ranges 1000 25000 (wordAt p 8)
  levels : (∀ k, k < 4 → Ranges 500 10000 (wordAt p (10 + 2 * k)) ∧ Ranges 10 100 (byteAt p (18 + k))) ∧
    ∀ k, k < 3 → wordAt p (10 + 2 * k) ≤ wordAt p (12 + 2 * k)
  duties : Ranges 10 100 (byteAt p 22) ∧ Ranges 10 100 (byteAt p 23)
  vent : Ranges 100 5000 (wordAt p 24) ∧ Ranges 500 5000 (wordAt p 26)
  flameLost : Ranges 500 2000 (signedAt p 28)

/-- One unit of MOTION at a place, its travel time in a range of seconds (section 7.1, R132). -/
def UnitFits (cp : List Byte) (owner : Duty) (lo hi : Nat) (p : List Byte) (i : Nat) : Prop :=
  IsBound cp .inp owner (byteAt p i) ∧ IsBound cp .inp owner (byteAt p (i + 1)) ∧ byteAt p i ≠ byteAt p (i + 1) ∧
    Ranges lo hi (byteAt p (i + 2)) ∧ Ranges 1000 29000 (wordAt p (i + 3)) ∧ Ranges 1000 25500 (wordAt p (i + 5))

/-- MOTION: beside a unit of a duty held, the unit of a duty not held is not read (section 12.4; log entry 24). -/
def MotionFits (d : Nat) (cp p : List Byte) : Prop :=
  p.length = 18 ∧
    (d.testBit (dutyBit .awning) = true ∨ d.testBit (dutyBit .step) = false → UnitFits cp .awning 5 120 p 0) ∧
    (d.testBit (dutyBit .step) = true ∨ d.testBit (dutyBit .awning) = false → UnitFits cp .step 1 30 p 9)

/-- WIND (section 7.1, R132). -/
def WindFits (cp p : List Byte) : Prop :=
  p.length = 5 ∧ IsBound cp .pulse .wind (byteAt p 0) ∧ Ranges 1 5000 (wordAt p 1) ∧ Ranges 20 400 (wordAt p 3)

/-- One light channel's record at its place in LIGHTS (section 8.1, R154); class 1 is main. -/
def LightFits (cp p : List Byte) (i : Nat) : Prop :=
  IsBound cp .out .lights (byteAt p i) ∧ Ranges 100 10000 (wordAt p (i + 1)) ∧
    ((byteAt p (i + 3)).testBit 1 = true → (byteAt p (i + 3)).testBit 0 = true) ∧ Ranges 1 100 (byteAt p (i + 4)) ∧
    (byteAt p (i + 5) = 0xFF ∨ IsBound cp .inp .lights (byteAt p (i + 5)) ∧ byteAt p (i + 5) ≠ byteAt p 1) ∧
    ∀ k, k < 6 → byteAt p (i + 6 + k) ≤ 100

/-- LIGHTS; records beyond the count are not read (section 8.1, R154). -/
structure LightsFit (cp p : List Byte) : Prop where
  length : p.length = 100
  count : byteAt p 0 ≤ 8
  door : byteAt p 1 = 0xFF ∨ IsBound cp .inp .lights (byteAt p 1)
  levels : byteAt p 2 ≤ 100 ∧ Ranges 10 100 (byteAt p 3)
  channels : ∀ k, k < byteAt p 0 → LightFits cp p (4 + 12 * k)
  apart : ∀ j k, j < k → k < byteAt p 0 → byteAt p (4 + 12 * j) ≠ byteAt p (4 + 12 * k) ∧
    (byteAt p (9 + 12 * j) ≠ 0xFF → byteAt p (9 + 12 * j) ≠ byteAt p (9 + 12 * k))
  currents : ∀ main : Bool, ((List.range (byteAt p 0)).map fun k =>
    if (byteAt p (7 + 12 * k)).testBit 0 = main then wordAt p (5 + 12 * k) else 0).sum ≤ 25500

/-- The sections that a duty requires (R204). -/
def requiredSections : List (Duty × Nat) :=
  [(.battery, 0x03), (.tanks, 0x04), (.pump, 0x05), (.frost, 0x06), (.heater, 0x07), (.awning, 0x08), (.step, 0x08),
   (.wind, 0x09), (.lights, 0x0A)]

/-- The bytes that the memory answers begin with a valid image of these sections, each a code and its content (R204). -/
structure ImageFits (bytes : List Byte) (sections : List (Nat × List Byte)) : Prop where
  format : byteAt bytes 0 = 1
  length : Ranges 11 1024 (wordAt bytes 1) ∧ wordAt bytes 1 ≤ bytes.length
  sum : (byteSum (bytes.take (wordAt bytes 1 - 2)) + wordAt bytes (wordAt bytes 1 - 2)) % 65536 = 0xA55A
  fill : (bytes.take (wordAt bytes 1 - 2)).drop 7 =
    sections.flatMap fun s => BitVec.ofNat 8 s.1 :: BitVec.ofNat 8 s.2.length :: s.2
  codes : ∀ s ∈ sections, Ranges 0x01 0x0A s.1 ∧ s.2.length ≤ 255
  once : (sections.map (·.1)).Nodup
  required : 0x01 ∈ sections.map (·.1) ∧ 0x02 ∈ sections.map (·.1) ∧
    ∀ r ∈ requiredSections, (wordAt bytes 5).testBit (dutyBit r.1) = true → r.2 ∈ sections.map (·.1)
  general : ∀ p, (0x01, p) ∈ sections → GeneralFits p
  channels : ∀ cp, (0x02, cp) ∈ sections → ChannelsFit (wordAt bytes 5) cp ∧
    ((wordAt bytes 5).testBit (dutyBit .travel) = true →
      ∃ i, IsBound cp .inp .travel i ∧ ∀ j, IsBound cp .inp .travel j → j = i) ∧
    ∀ p, ((0x03, p) ∈ sections → BatteryFits cp p) ∧ ((0x04, p) ∈ sections → TanksFit cp p) ∧
      ((0x05, p) ∈ sections → PumpFits cp p) ∧ ((0x06, p) ∈ sections → FrostFits cp p) ∧
      ((0x07, p) ∈ sections → HeaterFits cp p) ∧ ((0x08, p) ∈ sections → MotionFits (wordAt bytes 5) cp p) ∧
      ((0x09, p) ∈ sections → WindFits cp p) ∧ ((0x0A, p) ∈ sections → LightsFit cp p)

/-! ### What an image gives -/

/-- A field that may be none, 0xFF. -/
def fieldOf (v : Nat) : Option Nat := if v = 0xFF then none else some v

/-- A table of `n` points, each of two words. -/
def pointsOf (p : List Byte) (i n : Nat) : List (Nat × Nat) :=
  (List.range n).map fun k => (wordAt p (i + 4 * k), wordAt p (i + 4 * k + 2))

/-- The settings of a channel. -/
structure ChannelGives (cp : List Byte) (i : Nat) (c : ChanCfg) : Prop where
  role : roleNumber c.role = byteAt cp (6 * i) % 8
  owner : c.role ≠ .off → ∃ o, c.owner = some o ∧ dutyBit o = byteAt cp (6 * i) / 8
  trip : c.trip = wordAt cp (6 * i + 1)
  time : [5, 20, 50, 200][byteAt cp (6 * i + 3) % 4]? = some c.time
  pull : c.role = .inp ∨ c.role = .pulse → [Pull.none, .up, .down][byteAt cp (6 * i + 3) / 4 % 4]? = some c.pull
  polarity : c.activeLow = (byteAt cp (6 * i + 3)).testBit 4
  range : c.volt = (byteAt cp (6 * i + 3)).testBit 5
  draw : c.draw = wordAt cp (6 * i + 4)

/-- BATTERY gives the accountant its settings (sections 1.1 and 12.4). -/
structure BatteryGives (p : List Byte) (c : BatteryCfg) : Prop where
  converters : c.capacityAh = wordAt p 0 ∧ c.shunt = wordAt p 2 ∧ c.eta = byteAt p 4 ∧ c.startSoc = wordAt p 5
  syncs : c.restCurrent = wordAt p 7 ∧ c.restMinutes = byteAt p 9 ∧ c.fullVoltage = wordAt p 10 ∧
    c.tailCurrent = wordAt p 12
  bands : c.economy = wordAt p 14 ∧ c.reserve = wordAt p 16 ∧ c.cutoffVoltage = wordAt p 18 ∧
    c.recoveryMargin = wordAt p 20
  limits : c.aNorm = longAt p 22 ∧ c.aEcon = longAt p 26 ∧ c.aRes = longAt p 30 ∧ c.aHook = longAt p 34 ∧
    c.td1 = signedAt p 38 ∧ c.td2 = signedAt p 40
  inputs : c.temp.map (·.val) = fieldOf (byteAt p 42) ∧ c.charge.map (·.val) = fieldOf (byteAt p 43)
  table : c.table = pointsOf p 45 (byteAt p 44)

/-- A tank record gives a tank its settings (sections 4.1 and 12.4); its method is that of log entry 51. -/
structure TankGives (p : List Byte) (c : TankCfg) : Prop where
  kind : [TankKind.fresh, .grey, .black][byteAt p 0]? = some c.kind
  full : c.full = wordAt p 2
  ladder : byteAt p 1 = 0 → ∃ probes exc, c.method = .ladder probes exc ∧ exc.val = byteAt p 13 ∧
    probes.map (·.val) = (List.range (byteAt p 4)).map fun k => byteAt p (5 + k)
  sender : byteAt p 1 = 1 → ∃ ch, c.method = .sender ch (pointsOf p 16 (byteAt p 15)) ∧ ch.val = byteAt p 14

/-- PUMP gives the pump its settings (sections 4.7 and 12.4). -/
structure PumpGives (p : List Byte) (c : PumpCfg) : Prop where
  channels : c.output.val = byteAt p 0 ∧ c.switch.val = byteAt p 1
  settings : c.draw = wordAt p 2 ∧ (c.modeOn = true ↔ byteAt p 4 = 1) ∧ c.maxRun = 1000 * wordAt p 5

/-- FROST gives the monitor its settings (sections 5.1 and 12.4). -/
structure FrostGives (p : List Byte) (c : FrostCfg) : Prop where
  channels : c.openCoil.val = byteAt p 0 ∧ c.closeCoil.val = byteAt p 1 ∧ c.contact.val = byteAt p 2
  settings : c.temp.map (·.val) = fieldOf (byteAt p 3) ∧ c.threshold = signedAt p 4 ∧ c.delay = 1000 * wordAt p 6

/-- HEATER gives the heater its settings (sections 6.1 and 12.4). -/
structure HeaterGives (p : List Byte) (c : HeaterCfg) : Prop where
  channels : c.glow.val = byteAt p 0 ∧ c.fan.val = byteAt p 1 ∧ c.fuel.val = byteAt p 2
  inputs : c.exhaust.val = byteAt p 3 ∧ c.cabin.map (·.val) = fieldOf (byteAt p 4)
  mode : [HeaterMode.off, .heat, .frost, .vent][byteAt p 5]? = some c.mode ∧ c.setpoint = signedAt p 6
  amounts : c.start = wordAt p 8 ∧ c.levels = [wordAt p 10, wordAt p 12, wordAt p 14, wordAt p 16] ∧
    c.vent = wordAt p 24 ∧ c.cooldown = wordAt p 26 ∧ c.flameLost = signedAt p 28
  duties : c.duties = [byteAt p 18, byteAt p 19, byteAt p 20, byteAt p 21] ∧ c.startDuty = byteAt p 22 ∧
    c.ventDuty = byteAt p 23

/-- One unit's nine bytes of MOTION, from place `i` (sections 7.1 and 12.4). -/
structure UnitGives (p : List Byte) (i : Nat) (c : UnitCfg) : Prop where
  channels : c.ext.val = byteAt p i ∧ c.ret.val = byteAt p (i + 1)
  settings : c.travel = 1000 * byteAt p (i + 2) ∧ c.jam = wordAt p (i + 3) ∧ c.claim = wordAt p (i + 5)

/-- WIND gives the anemometer its settings (sections 7.1 and 12.4). -/
structure WindGives (p : List Byte) (c : WindCfg) : Prop where
  channel : c.channel.val = byteAt p 0
  settings : c.factor = wordAt p 1 ∧ c.limit = wordAt p 3

/-- One light channel's twelve bytes of LIGHTS, from place `i` (sections 8.1 and 12.4). -/
structure LightGives (p : List Byte) (i : Nat) (c : LightCfg) : Prop where
  channels : c.output.val = byteAt p i ∧ c.switch.map (·.val) = fieldOf (byteAt p (i + 5))
  marks : c.main = (byteAt p (i + 3)).testBit 0 ∧ c.courtesy = (byteAt p (i + 3)).testBit 1
  settings : c.current = wordAt p (i + 1) ∧ c.fade = byteAt p (i + 4) ∧
    c.scenes = (List.range 6).map fun k => byteAt p (i + 6 + k)

/-- LIGHTS gives the lights their settings (sections 8.1 and 12.4). -/
structure LightsGives (p : List Byte) (c : LightsCfg) : Prop where
  settings : c.door.map (·.val) = fieldOf (byteAt p 1) ∧ c.courtesyLevel = byteAt p 2 ∧ c.cap = byteAt p 3
  count : c.channels.length = byteAt p 0
  channels : ∀ k l, c.channels[k]? = some l → LightGives p (4 + 12 * k) l

/-- A duty's settings are there when the duty is held, as its section gives them, and absent otherwise. -/
def GivenBy {α : Type} (held : Bool) (gives : α → Prop) (o : Option α) : Prop :=
  if held then ∃ c, o = some c ∧ gives c else o = none

/-- The settings that a valid image of these sections gives the node (section 12.4). -/
structure ImageGives (bytes : List Byte) (sections : List (Nat × List Byte)) (c : Image) : Prop where
  header : c.ident = wordAt bytes 3 ∧ c.duties = BitVec.ofNat 11 (wordAt bytes 5)
  general : ∀ p, (0x01, p) ∈ sections → c.orphan = longAt p 0 ∧ c.map = (p.drop 5).map BitVec.toNat
  channels : ∀ cp, (0x02, cp) ∈ sections → (∀ i : Fin 16, ChannelGives cp i c.chans[i]) ∧
    (∀ t : Fin 4, typeNumber c.temps[t] = byteAt cp (96 + t)) ∧
    GivenBy (c.duties.getLsbD 8) (fun i => IsBound cp .inp .travel i.val) c.travel
  held : ∀ p,
    ((0x03, p) ∈ sections → GivenBy (c.duties.getLsbD 0) (BatteryGives p) c.battery) ∧
    ((0x04, p) ∈ sections → GivenBy (c.duties.getLsbD 1) (fun l => l.length = byteAt p 0 ∧
      ∀ k t, l[k]? = some t → TankGives (p.drop (1 + 48 * k)) t) c.tanks) ∧
    ((0x05, p) ∈ sections → GivenBy (c.duties.getLsbD 2) (PumpGives p) c.pump) ∧
    ((0x06, p) ∈ sections → GivenBy (c.duties.getLsbD 3) (FrostGives p) c.frost) ∧
    ((0x07, p) ∈ sections → GivenBy (c.duties.getLsbD 4) (HeaterGives p) c.heater) ∧
    ((0x08, p) ∈ sections → GivenBy (c.duties.getLsbD 5) (UnitGives p 0) c.awning ∧
      GivenBy (c.duties.getLsbD 6) (UnitGives p 9) c.step) ∧
    ((0x0A, p) ∈ sections → GivenBy (c.duties.getLsbD 7) (LightsGives p) c.lights) ∧
    ((0x09, p) ∈ sections → GivenBy (c.duties.getLsbD 9) (WindGives p) c.wind)
  /-- The settings of a duty not held are absent, whether its section is there or not (R204). -/
  ignored : (c.duties.getLsbD 0 = false → c.battery = none) ∧ (c.duties.getLsbD 1 = false → c.tanks = none) ∧
    (c.duties.getLsbD 2 = false → c.pump = none) ∧ (c.duties.getLsbD 3 = false → c.frost = none) ∧
    (c.duties.getLsbD 4 = false → c.heater = none) ∧ (c.duties.getLsbD 5 = false → c.awning = none) ∧
    (c.duties.getLsbD 6 = false → c.step = none) ∧ (c.duties.getLsbD 7 = false → c.lights = none) ∧
    (c.duties.getLsbD 9 = false → c.wind = none)
  aux : c.aux = c.duties.getLsbD 10

end Sys2Proof.Machine
end

