-- ==== Sys2Proof/Certificates/Slice0/Obligations.lean ====
section
/-! DEFINITION. The statements about the block, from the numbered rules of the spec. Where a statement gives the state
after a command as `s.ended dt rx m`, the node `m` is what the command's own effect leaves; EndOfEventFrame says what
the end of the event changes after it, and `s.found dt` is the node when `dt` ms have passed. -/

section

open Sys2Proof Sys2Proof.Machine

/-! ## The block as a whole -/

/-- A step takes the command at the front of the queue and runs its meaning on the state with the queue's rest; on an
empty queue the block idles (log entry 4). -/
def Obligations.StepTakesTheFront : Prop :=
  (∀ (s : State) (c : Instr) (rest : List Instr), s.pending = c :: rest → step s = exec c (s.withPending rest)) ∧
    ∀ s : State, s.pending = [] → step s = .next s

/-- Every command answers a next state, in every state, and leaves the commands that wait as they are. That a command
given without its occasion only lets time pass, and is not refused, is the model's choice (log entry 2, DEDUCED). -/
def Obligations.EveryCommandAnswers : Prop :=
  ∀ (c : Instr) (s : State), ∃ t, exec c s = .next t ∧ t.pending = s.pending

/-- A sound state: the receive pool holds no more than eight buffers in use (R186); the transmit queue at most six
entries with ids of their own, and at most one queued entry of each periodic kind (R187); the peer table at most 13
entries, one for each station and none for the node's own number (R36); no command entry of the request list that
extends waits while an interlock view forbids it (R136, R147, R148); no counter is past 65 535 (R192); the bridges'
records agree with their states, and the marks of an event are clear. Every step keeps it. And a step leaves each bridge
at its reset record, or as the dwell of R179 allows: it drives a direction only when its last drive had the same
direction, or there was none, or it has stood in COAST (or in BRIDGE_FAULT) for 500 ms without a break. That one queued
entry of a kind remains after a failed attempt is log entry 40 (DESIGN CHOICE). -/
def Obligations.EveryStepKeepsSound : Prop :=
  ∀ s t : State, s.sound = true → step s = .next t →
    t.sound = true ∧ ∀ u, t.node.bridge u = {} ∨ DwellKept t.node.now (s.node.bridge u) (t.node.bridge u)

/-- The state right after reset is sound. The state right after reset obeys the law of sheds. -/
def Obligations.ResetIsSoundAndLawful : Prop :=
  (State.reset.sound = true) ∧
  (State.reset.node.shedLaw = true)

/-- R70 as an invariant: no claim of a class that the effective shed level forbids is ASKING, HOLDING or WAITING with a
held amount, and before a node state is decided every slot is IDLE. Every step keeps it. -/
def Obligations.EveryStepKeepsShedLaw : Prop :=
  ∀ s t : State, s.node.shedLaw = true → step s = .next t → t.node.shedLaw = true

/-- What follows an event's own effect (what the blocks tell one another, the wait service, the frames) leaves the
receiver, the commands that wait and these parts of the node as the effect left them, and clears the marks of the
event. The heater, the frost monitor, the pump and the courtesy state change only when what they watch has changed. -/
def Obligations.EndOfEventFrame : Prop :=
  ∀ (s : State) (dt : Nat) (rx : Receiver) (m : Node),
    m.ev.restart = false → m.ev.reset = false → m.cmd.restart = none →
    let n := s.found dt
    let t := s.ended dt rx m
    t.pending = s.pending ∧ t.rx = rx ∧ t.node.ev = {} ∧
    t.node.now = m.now ∧ t.node.held = m.held ∧ t.node.cause = m.cause ∧ t.node.checked = m.checked ∧
    t.node.station = m.station ∧ t.node.state = m.state ∧ t.node.faultPin = m.faultPin ∧ t.node.cfg = m.cfg ∧
    t.node.battery = m.battery ∧ t.node.view = m.view ∧ t.node.tanks = m.tanks ∧ t.node.motion = m.motion ∧
    t.node.wind = m.wind ∧ t.node.free = m.free ∧
    t.node.bank.temps = m.bank.temps ∧ t.node.bank.bridgeA = m.bank.bridgeA ∧ t.node.bank.bridgeB = m.bank.bridgeB ∧
    t.node.bank.aux = m.bank.aux ∧
    t.node.cmd.map = m.cmd.map ∧ t.node.cmd.flags = m.cmd.flags ∧ t.node.cmd.restart = none ∧
    (∀ k : Counter, k ≠ .queueDrops → counter k t.node = counter k m) ∧
    t.node.tx.attempt = m.tx.attempt ∧ t.node.tx.jabber = m.tx.jabber ∧ t.node.tx.since = m.tx.since ∧
    (m.view.shed = n.view.shed → t.node.heater = m.heater) ∧
    (m.motion.step.state = n.motion.step.state → t.node.lights.courtesy = m.lights.courtesy) ∧
    (m.view.shed = n.view.shed → m.heater.state = n.heater.state →
      m.heaterCfg.bind (cabinReading · m) = n.heaterCfg.bind (cabinReading · n) →
      m.view.band = n.view.band → m.view.orphaned = n.view.orphaned →
      t.node.frost = m.frost ∧
        (m.frost.state = n.frost.state → m.tanks.records = n.tanks.records → t.node.pump = m.pump ∧
          (m.lightsCfg = none → t.node.bank = m.bank ∧ t.node.lights = m.lights)))

/-- The state of the block right after power-on reset: every block at the reset values of its chapter (R28, R46, R74,
R86, R95, R108, R131, R153, R169, R182, R193, R201). That before the start the station is none, the time base reads 0,
the cause is 1 and the effective shed level 0 is the model's choice (log entry 10, DESIGN CHOICE). -/
def Obligations.ResetState : Prop :=
  let n := State.reset.node
  State.reset.pending = [] ∧ State.reset.rx.arrival = [] ∧ State.reset.rx.phase = .idle ∧
  n.held = true ∧ n.cause = 1 ∧ n.now = 0 ∧ n.state = none ∧ n.cfg = none ∧ n.station = none ∧ n.faultPin = false ∧
  n.battery.q = 0 ∧ n.battery.f = 0 ∧ n.battery.synced = false ∧ n.battery.minutes = 65535 ∧ n.battery.last = none ∧
  n.view.peers = [] ∧ n.view.source = none ∧ n.view.allowance = 0 ∧ n.view.shed = 0 ∧ n.view.band = none ∧
  n.view.orphaned = false ∧ n.view.travel = false ∧ n.view.wind = false ∧
  (∀ i, (n.claim i).state = .idle) ∧
  n.tanks.records = [] ∧ n.pump.state = .idle ∧ n.pump.dryCount = 0 ∧ n.frost.state = .armed ∧
  n.heater.state = .off ∧ n.heater.attempts = 0 ∧ n.heater.lockout = false ∧ n.heater.reason = .none ∧
  n.motion.awning.state = .unknown ∧ n.motion.step.state = .unknown ∧ n.motion.list = [] ∧
  n.wind.speed = 0 ∧ n.wind.lockoutEnd = none ∧ n.lights.courtesy = .off ∧
  (∀ i, (n.chan i).commanded = 0 ∧ (n.chan i).protection = .normal ∧ (n.chan i).trips = 0) ∧
  n.bank.bridgeA.state = .coast ∧ n.bank.bridgeB.state = .coast ∧
  n.tx.queue = [] ∧ n.tx.attempt = .none ∧ n.tx.jabber = false ∧ n.tx.since = none ∧
  (∀ k, counter k n = 0) ∧ n.cmd.flags = 0 ∧ n.cmd.map = [23] ∧ n.cmd.restart = none ∧ n.cmd.restartAgain = []

/-! ## Reset and start (chapter 12) -/

/-- POWER_ON_RESET, RESET_PIN and BROWN_OUT (R202): each puts every block at its reset values and holds the node,
with the cause of its kind. During a hold a reset pin or a brown-out changes nothing; a dip of 20 ms or less is
no reset. START (R203): the hold ends and the time base reads 0. With the self-check passed the straps give the
station number, 1 to 14, or none; with it failed the node is HALTED with the FAULT pin active. After a commanded
RESTART, whose hold has ended at once, START runs the self-check and reads the straps, and the time base goes on (that
START stands for them then is log entry 11, DEDUCED). -/
def Obligations.ResetAndStart : Prop :=
  (∀ (s : State) (dt low : Nat),
     let held (cause : Nat) : State := { State.reset with
       pending := s.pending, node := { State.reset.node with cause := cause } }
     exec (.powerOnReset dt) s = .next (held 1) ∧
     (s.node.held = false → exec (.resetPin dt) s = .next (held 2)) ∧
     (s.node.held = false → 20 < low → exec (.brownOut dt low) s = .next (held 3)) ∧
     (s.node.held = false → low ≤ 20 →
       exec (.brownOut dt low) s = .next { s with node := { s.node with now := s.node.now + dt } }) ∧
     (s.node.held = true → exec (.resetPin dt) s = .next s ∧ exec (.brownOut dt low) s = .next s)) ∧
  (∀ (s : State) (dt : Nat) (straps : BitVec 4), s.node.held = true →
     exec (.start dt true straps) s = .next { s with node := { s.node with
       held := false, now := 0, checked := true
       station := if straps = 0 ∨ straps = 15 then none else some straps.toNat } } ∧
     exec (.start dt false straps) s = .next { s with node := { s.node with
       held := false, now := 0, state := some .halted, faultPin := true } }) ∧
  (∀ (s : State) (dt : Nat) (straps : BitVec 4),
     s.node.held = false → s.node.checked = false → s.node.state = none →
     exec (.start dt true straps) s = .next { s with node := { s.node with
       now := s.node.now + dt, checked := true
       station := if straps = 0 ∨ straps = 15 then none else some straps.toNat } } ∧
     exec (.start dt false straps) s = .next { s with node := { s.node with
       now := s.node.now + dt, state := some .halted, faultPin := true } })

/-- START_DECISION (R204, R205): at a node in its start the image is read. A valid one (`ImageFits`: R204 with the checks
of the chapters, over the bytes) gives the settings that its bytes hold (`ImageGives`), every block starts with them and
its timers count from this moment, and the node is LISTENING for 1 500 ms when its straps name a station, else in
LISTEN-ONLY. Without a valid one the node is in LISTEN-ONLY, no part of the image is applied, and with a station number
a PRESENCE is queued. With a station the transmitter is enabled, and measures idle line from this moment (R193). The
codes of a tank's method and of the pump's mode are log entry 51, the reading of a MOTION section of neither duty log
entry 24, what is not checked log entry 54, an open pin without a pull device log entry 5. -/
def Obligations.StartDecides : Prop :=
  ∀ (s : State) (dt : Nat) (eeprom : List Byte) (pins : Vector PinLevel 16) (n : Node),
    n = advance dt s.node → n.held = false → n.checked = true → n.state = none →
    ∃ m, exec (.startDecision dt eeprom pins) s = .next (commit s s.rx (finish n m)) ∧
      m.now = n.now ∧ m.station = n.station ∧ m.cause = n.cause ∧
      m.tx = { n.tx with since := if n.station.isSome then some n.now else none } ∧ m.claims = n.claims ∧
      m.pub = n.pub ∧ m.motion = n.motion ∧ m.faultPin = n.faultPin ∧ m.cmd.counters = n.cmd.counters ∧
      m.cmd.flags = n.cmd.flags ∧
      m.view.orphanRef = some n.now ∧
      (∀ sections, ImageFits eeprom sections → ∃ c, ImageGives eeprom sections c ∧ m.cfg = some c ∧ m.cmd.map = c.map ∧
        (∀ b, c.battery = some b → m.battery.q = b.startSoc * (b.capacityAh * 3600000) / 1000 ∧ m.battery.f = 0 ∧
          m.battery.synced = false ∧ m.battery.due = some (n.now + 100) ∧
          m.battery.band = if b.startSoc = 0 then .cutoff else if b.startSoc < b.reserve then .reserve else .economy) ∧
        (∀ l, c.tanks = some l → m.tanks.records = l.map (fun _ => {}) ∧ m.tanks.due = some (n.now + 100)) ∧
        m.pump = { modeOn := c.pump.any (·.modeOn) } ∧ m.frost = { grace := n.now } ∧
        (∀ h, c.heater = some h →
          m.heater = { mode := h.mode, setpoint := h.setpoint, state := if h.mode = .off then .off else .standby }) ∧
        m.wind = { due := c.wind.map fun _ => n.now + 250 } ∧
        m.lights = { channels := (c.lights.map fun l => l.channels.map fun _ => {}).getD [] } ∧
        m.bank.bridgeA = {} ∧ m.bank.bridgeB = {} ∧
        (∀ t : Fin 4, m.bank.temps[t] = { due := if c.temps[t] = .unused then none else some (n.now + 500) }) ∧
        (∀ i : Fin 16, ∃ high : Bool,
          (pins[i] ≠ .floating → high = (pins[i] == .high)) ∧
          (pins[i] = .floating → c.chans[i].role = .inp ∨ c.chans[i].role = .pulse → c.chans[i].pull ≠ .none →
            high = (c.chans[i].pull == .up)) ∧
          m.chan i = match c.chans[i].role with
            | .off => {}
            | .out => { pinHigh := high, highOff := if high then some n.now else none
                        lowOff := if high then none else some n.now }
            | .inp => { instant := xor high c.chans[i].activeLow, filter := some n.now }
            | .ain => { due := some (n.now + 100) }
            | .pulse => { instant := xor high c.chans[i].activeLow, due := some (n.now + 250) }) ∧
        (∀ k, n.station = some k → m.state = some .listening ∧ m.view.listen = some (n.now + 1500) ∧ m.view.shed = 0) ∧
        (n.station = none → m.state = some .listenOnly ∧ m.view.listen = none ∧ m.view.shed = 4)) ∧
      ((∀ sections, ¬ ImageFits eeprom sections) →
        m.cfg = n.cfg ∧ m.cmd.map = n.cmd.map ∧ m.battery = n.battery ∧ m.bank = n.bank ∧ m.tanks = n.tanks ∧
        m.pump = n.pump ∧ m.frost = n.frost ∧ m.heater = n.heater ∧ m.wind = n.wind ∧ m.lights = n.lights ∧
        m.state = some .listenOnly ∧ m.view.listen = none ∧ m.view.shed = 4 ∧
        (n.station.isSome = true → n.cfg = none → n.tx.queue = [] → n.calm = true →
          ∃ b, (commit s s.rx (finish n m)).queued (.presence b) ∧ b.node = 1 ∧ b.duties = 0 ∧ b.ident = 0 ∧
            b.unconfigured = true ∧ b.cause = n.cause))

/-- HALTED (section 2.1): nothing but a reset moves a halted node; every other command lets time pass and changes
nothing else (the model's choice, log entry 2). -/
def Obligations.HaltedStaysHalted : Prop :=
  ∀ (s : State) (c : Instr), s.node.state = some .halted → s.node.held = false →
    (∀ dt, c ≠ .powerOnReset dt) → (∀ dt, c ≠ .resetPin dt) → (∀ dt low, c = .brownOut dt low → low ≤ 20) →
    ∃ dt, exec c s = .next { s with node := { s.node with now := s.node.now + dt } }

/-! ## The battery accountant (chapter 1) -/

/-- MEASUREMENT_EVENT (R2, R25): a sample that is due runs the stages on the accountant's record with the converters'
results, the latest temperature and the accepted charge source, and the next sample is due 100 ms later. When the
node is its own allowance source its view takes the results over (R40); otherwise nothing but the accountant, the
overdraw counter and the mark for an ALLOWANCE changes. R14: the count of minutes since the sync. A sync sets it
to 0 (TimersAndSyncs); at each whole minute after it the count rises by one, and it stops at 65 535; before that
minute the command lets time pass (log entry 2). -/
def Obligations.BatteryEvents : Prop :=
  (∀ (s : State) (dt : Nat) (raw : Int) (volt : Nat) (n : Node) (c : BatteryCfg) (due : Nat),
     n = s.found dt → n.up = true → n.batteryCfg = some c → n.battery.due = some due → due ≤ n.now →
     let b := sampleBattery c raw volt n.now (c.temp.bind n.validTemp) (c.charge.any n.inputActive) n.battery
     ∃ m, exec (.measurementEvent dt raw volt) s = .next (s.ended dt s.rx m) ∧
       m.battery = { b with due := some (due + 100) } ∧
       m.now = n.now ∧ m.cfg = n.cfg ∧ m.state = n.state ∧ m.tx = n.tx ∧ m.pub = n.pub ∧ m.wind = n.wind ∧
       m.bank.temps = n.bank.temps ∧ m.view.peers = n.view.peers ∧
       (n.view.source ≠ some .own → m = { n with battery := m.battery, cmd := m.cmd, ev := m.ev } ∧
         (n.battery.step = 0 → b.step = 1 → m.cmd = (bump .overdraw n).cmd) ∧
         (n.battery.step ≠ 0 ∨ b.step ≠ 1 → m.cmd = n.cmd)) ∧
       (n.view.source = some .own → ∀ r, b.last = some r →
         m.view.allowance = r.allowance / 100 ∧ m.view.sourceShed = r.shed ∧ m.view.band = some (bandCode r.band) ∧
         m.view.orphaned = false ∧ m.view.orphanRef = some n.now ∧ (n.state ≠ some .silent → n.state ≠ some .listenOnly →
           m.view.shed = r.shed))) ∧
  (∀ (s : State) (dt : Nat) (n : Node) (t : Nat), n = s.found dt → n.up = true → n.battery.syncAt = some t →
     (t + 60000 * (n.battery.minutes + 1) ≤ n.now → n.battery.minutes < 65535 →
       exec (.minutesSinceSyncTick dt) s =
         .next (s.ended dt s.rx { n with battery := { n.battery with minutes := n.battery.minutes + 1 } })) ∧
     (n.battery.minutes = 65535 ∨ n.now < t + 60000 * (n.battery.minutes + 1) →
       exec (.minutesSinceSyncTick dt) s = .next { s with node := advance dt s.node }))

/-- R3 and R4: the converters' results are brought to their limits, a clamped current is marked, and the current of a
sample is truncated toward zero. A marked sample meets neither the rest nor the full condition. -/
def Obligations.ConvertersAreClamped : Prop :=
  (∀ raw : Int, (32767 ≤ raw → shuntCount raw = (32767, true)) ∧ (raw ≤ -32767 → shuntCount raw = (-32767, true)) ∧
    (-32767 < raw → raw < 32767 → shuntCount raw = (raw, false))) ∧
  (∀ (k : Int) (shunt : Nat), 0 < shunt →
    (0 ≤ k → shuntCurrent k shunt = k * 2500 / shunt) ∧ (k ≤ 0 → shuntCurrent k shunt = -(-k * 2500 / shunt))) ∧
  shuntCurrent 32767 2000 = 40958 ∧ shuntCurrent 32767 50 = 1638350 ∧
  (∀ (c : BatteryCfg) (current : Int) (charge : Bool) (v : Nat),
    atRestNow c current true = false ∧ fullNow c current true charge v = false) ∧
  ∀ volt, sampleVoltage volt = min volt 32767

/-- R6 and R7: the charge step, its exact bookkeeping in thousandths, and the clamps; in a sample that completes
neither timer the counter is what they give. -/
def Obligations.ChargeStepAndClamps : Prop :=
  (∀ (current : Int) (eta : Nat),
    (current < 0 → chargeStep current eta = current * 100) ∧ (0 ≤ current → chargeStep current eta = current * eta)) ∧
  (∀ (cap q f : Nat) (dq : Int), f ≤ 999 →
    (applyCharge cap dq q f).1 ≤ cap ∧ (applyCharge cap dq q f).2 ≤ 999 ∧
    (0 < cap → socOf cap (applyCharge cap dq q f).1 ≤ 1000) ∧
    ∀ (q1 : Int) (f1 : Nat), f1 ≤ 999 → 1000 * q1 + f1 = 1000 * q + f + dq →
      (q1 < 0 → applyCharge cap dq q f = (0, 0)) ∧ (cap ≤ q1 → applyCharge cap dq q f = (cap, 0)) ∧
      (0 ≤ q1 → q1 < cap → applyCharge cap dq q f = (q1.toNat, f1))) ∧
  (∀ cap q : Nat, 2 ≤ q → q ≤ cap → applyCharge cap (-1500) q 200 = (q - 2, 700)) ∧
  ∀ (c : BatteryCfg) (raw : Int) (volt now : Nat) (temp : Option Int) (charge : Bool) (b : Battery),
    b.restCount + 1 < c.restMinutes * 600 → b.fullCount + 1 < 1200 →
    let b' := sampleBattery c raw volt now temp charge b
    (b'.q, b'.f) = applyCharge (capacity c) (chargeStep (shuntCurrent (shuntCount raw).1 c.shunt) c.eta) b.q b.f

/-- R8: the state of charge of a sample, from the counter as the charge update, its clamps and the sample's syncs leave
it. -/
def Obligations.SocOfASample : Prop :=
  ∀ (c : BatteryCfg) (raw : Int) (volt now : Nat) (temp : Option Int) (charge : Bool) (b : Battery),
    0 < c.capacityAh → (∀ p ∈ c.table, p.2 ≤ 1000) →
    let b' := sampleBattery c raw volt now temp charge b
    ∃ r, b'.last = some r ∧ r.soc = b'.q * 1000 / (c.capacityAh * 3600000) ∧
      (r.soc = 1000 ↔ b'.q = c.capacityAh * 3600000) ∧
      (b'.q * 1000 < c.capacityAh * 3600000 → r.soc = 0) ∧
      (c.capacityAh = 200 → r.soc = b'.q / 720000)

/-- R10, R12 and R13: the rest timer and the full timer of a sample, and what a rest sync and a full sync do; when both
complete in one sample the full sync counts. -/
def Obligations.TimersAndSyncs : Prop :=
  ∀ (c : BatteryCfg) (raw : Int) (volt now : Nat) (temp : Option Int) (charge : Bool) (b : Battery),
    let current := shuntCurrent (shuntCount raw).1 c.shunt
    let marked := (shuntCount raw).2
    let v := min volt 32767
    let b' := sampleBattery c raw volt now temp charge b
    let rest : Prop := current.natAbs ≤ c.restCurrent ∧ marked = false
    let full : Prop := charge = true ∧ c.fullVoltage ≤ v ∧ 0 < current ∧ current ≤ c.tailCurrent ∧ marked = false
    let restSync : Prop := rest ∧ b.restSpent = false ∧ c.restMinutes * 600 ≤ b.restCount + 1
    let fullSync : Prop := full ∧ b.fullSpent = false ∧ 1200 ≤ b.fullCount + 1
    (¬ rest → b'.restCount = 0 ∧ b'.restSpent = false) ∧
    (rest → b.restSpent = true → b'.restCount = 0 ∧ b'.restSpent = true) ∧
    (rest → b.restSpent = false → ¬ restSync → b'.restCount = b.restCount + 1 ∧ b'.restSpent = false) ∧
    (restSync → b'.restCount = 0 ∧ b'.restSpent = true) ∧
    (¬ full → b'.fullCount = 0 ∧ b'.fullSpent = false) ∧
    (full → b.fullSpent = true → b'.fullCount = 0 ∧ b'.fullSpent = true) ∧
    (full → b.fullSpent = false → ¬ fullSync → b'.fullCount = b.fullCount + 1 ∧ b'.fullSpent = false) ∧
    (fullSync → b'.fullCount = 0 ∧ b'.fullSpent = true) ∧
    (restSync ∨ fullSync → b'.synced = true ∧ b'.minutes = 0 ∧ b'.f = 0 ∧ b'.syncAt = some now) ∧
    (fullSync → b'.q = c.capacityAh * 3600000) ∧
    (restSync → ¬ fullSync → b'.q = mapTable v c.table * (c.capacityAh * 3600000) / 1000) ∧
    (¬ restSync → ¬ fullSync → b'.synced = b.synced ∧ b'.minutes = b.minutes ∧ b'.syncAt = b.syncAt)

/-- R11: a voltage mapped through a rest-voltage table of 2 to 8 points with strictly increasing voltages and levels. -/
def Obligations.RestVoltageTable : Prop :=
  ∀ (table : List (Nat × Nat)) (v : Nat), 2 ≤ table.length → table.length ≤ 8 →
    table.Pairwise (fun p q => p.1 < q.1 ∧ p.2 < q.2) →
    (∀ p ∈ table.head?, v < p.1 → mapTable v table = p.2) ∧
    (∀ p ∈ table.getLast?, p.1 ≤ v → mapTable v table = p.2) ∧
    (∀ (i : Nat) (p q : Nat × Nat), table[i]? = some p → table[i + 1]? = some q → p.1 ≤ v → v < q.1 →
      mapTable v table = p.2 + (v - p.1) * (q.2 - p.2) / (q.1 - p.1) ∧ mapTable v table ≤ q.2) ∧
    ∀ p ∈ table, v = p.1 → mapTable v table = p.2

/-- R15 to R18: the band of a sample from the band before it, the voltage, the state of charge and the charge source,
with the runs that enter and leave CUTOFF. That the recovery run keeps its length when CUTOFF is left, on which R18 is
silent, is the model's choice (log entry 33, DEDUCED). -/
def Obligations.BandOfASample : Prop :=
  ∀ (c : BatteryCfg) (raw : Int) (volt now : Nat) (temp : Option Int) (charge : Bool) (b : Battery) (r : Sample),
    let b' := sampleBattery c raw volt now temp charge b
    let v := min volt 32767
    b'.last = some r →
    r.band = b'.band ∧
    (b.band ≠ .cutoff →
      let run := if v < c.cutoffVoltage then b.cutoffRun + 1 else 0
      let enters : Prop := 100 ≤ run ∨ (r.soc = 0 ∧ charge = false)
      (enters → r.band = .cutoff ∧ b'.cutoffRun = 0 ∧ b'.recoveryRun = 0) ∧
      (¬ enters → b'.cutoffRun = run) ∧
      (¬ enters → charge = true → r.band = .normal) ∧
      (¬ enters → charge = false → r.soc < c.reserve → r.band = .reserve) ∧
      (¬ enters → charge = false → c.reserve + 30 ≤ r.soc → r.soc < c.economy → r.band = .economy) ∧
      (¬ enters → charge = false → c.reserve ≤ c.economy → c.economy + 30 ≤ r.soc →
        r.band = if b'.synced then .normal else .economy) ∧
      (¬ enters → charge = false → c.reserve ≤ r.soc → r.soc < c.reserve + 30 → r.soc < c.economy →
        r.band = if b.band = .normal then .economy else b.band) ∧
      (¬ enters → charge = false → c.reserve ≤ c.economy → c.economy ≤ r.soc → r.soc < c.reserve + 30 →
        r.band = if b.band = .normal ∧ b'.synced = false then .economy else b.band) ∧
      (¬ enters → charge = false → c.reserve + 30 ≤ r.soc → c.economy ≤ r.soc → r.soc < c.economy + 30 →
        r.band = if b.band = .normal ∧ b'.synced then .normal else .economy)) ∧
    (b.band = .cutoff →
      let run := if c.cutoffVoltage + c.recoveryMargin ≤ v then b.recoveryRun + 1 else 0
      let leaves : Prop := 300 ≤ run ∧ ¬ (r.soc = 0 ∧ charge = false)
      b'.recoveryRun = run ∧
      (¬ leaves → r.band = .cutoff) ∧
      (leaves → b'.cutoffRun = 0) ∧
      (leaves → charge = true → r.band = .normal) ∧
      (leaves → charge = false → r.soc < c.reserve + 30 → r.band = .reserve) ∧
      (leaves → charge = false → c.reserve + 30 ≤ r.soc → r.soc < c.economy + 30 → r.band = .economy) ∧
      (leaves → charge = false → c.reserve + 30 ≤ r.soc → c.economy + 30 ≤ r.soc →
        r.band = if b'.synced then .normal else .economy))

/-- R20: the derate factor. R19 to R21: the base limit and the allowance of a sample; what is published never exceeds
the base limit and is 0 in CUTOFF; ECONOMY and RESERVE do not occur with the charge source active. -/
def Obligations.AllowanceOfASample : Prop :=
  (∀ c : BatteryCfg, derate c none = 75 ∧
     (∀ t : Int, c.td1 ≤ t → derate c (some t) = 100) ∧
     (∀ t : Int, c.td2 < c.td1 → t ≤ c.td2 → derate c (some t) = 50) ∧
     (∀ t : Int, c.td2 < t → t < c.td1 → (derate c (some t) : Int) = 50 + 50 * (t - c.td2) / (c.td1 - c.td2)) ∧
     (c.td1 = 0 → c.td2 = -200 → derate c (some (-80)) = 80 ∧
       ∀ k : Nat, k ≤ 50 → derate c (some (-4 * k)) = 100 - k)) ∧
  (∀ (c : BatteryCfg) (raw : Int) (volt now : Nat) (temp : Option Int) (charge : Bool) (b : Battery) (r : Sample),
     (sampleBattery c raw volt now temp charge b).last = some r →
     r.charge = charge ∧ r.temp = temp ∧
     r.allowance = baseLimit c r.band charge * derate c temp / 100 ∧
     baseLimit c .normal true = c.aHook ∧ baseLimit c .normal false = c.aNorm ∧
     baseLimit c .economy false = c.aEcon ∧ baseLimit c .reserve false = c.aRes ∧ baseLimit c .cutoff charge = 0 ∧
     (charge = true → r.band ≠ .economy ∧ r.band ≠ .reserve) ∧
     r.allowance ≤ baseLimit c r.band charge ∧
     (r.band = .cutoff → r.allowance = 0))

/-- R22 to R24: the runs of the overdraw test, the overdraw step they move, and the shed level of the sample. -/
def Obligations.OverdrawAndShedLevel : Prop :=
  ∀ (c : BatteryCfg) (raw : Int) (volt now : Nat) (temp : Option Int) (charge : Bool) (b : Battery) (r : Sample),
    let b' := sampleBattery c raw volt now temp charge b
    b'.last = some r →
    let d : Nat := (-r.current).toNat
    let heavy : Prop := r.allowance + (r.allowance / 10 + 1000) < d
    let slight : Prop := d ≤ r.allowance * 9 / 10
    (¬ heavy → b'.riseRun = 0) ∧
    (heavy → b.riseRun + 1 < 20 → b'.riseRun = b.riseRun + 1) ∧
    (heavy → 20 ≤ b.riseRun + 1 → b'.riseRun = 0 ∧ b'.step = min 4 (b.step + 1)) ∧
    (¬ slight → b'.fallRun = 0) ∧
    (slight → b.fallRun + 1 < 300 → b'.fallRun = b.fallRun + 1) ∧
    (slight → 300 ≤ b.fallRun + 1 → b'.fallRun = 0 ∧ b'.step = b.step - 1) ∧
    (¬ (heavy ∧ 20 ≤ b.riseRun + 1) → ¬ (slight ∧ 300 ≤ b.fallRun + 1) → b'.step = b.step) ∧
    r.overdraw = decide (0 < b'.step) ∧
    r.shed = max (match r.band with
      | .normal => 0
      | .economy => 1
      | .reserve => 3
      | .cutoff => 4) b'.step ∧
    (b.step ≤ 4 → b'.step ≤ 4 ∧ r.shed ≤ 4)

/-! ## The station view (chapter 2) -/

/-- The seven periods (R27, R34, R52, R85, R130, R152, R168): a period that is due at a node that publishes the kind
starts anew and queues its frame; the event's own effect is nothing but the mark that the frame is owed. PRESENCE is
published in ACTIVE and, by a node with a station number and no valid image, in LISTEN-ONLY; DRAW in ACTIVE and, while
the broadcast list is not empty, in LISTENING; the other kinds in ACTIVE by the nodes with their duties. And the frames
on change: an event that leaves the node ACTIVE with a change of what a kind publishes at once, or has entered ACTIVE,
queues the frame of that kind as the node then stands, and starts its period; with the queue not full none of them has
been dropped. A changed broadcast list does so in LISTENING too, and a SILENT node queues nothing (R31). The content of a
DRAW (R51): the slots in ascending order, with their held and asked amounts. That a frame dropped from a full queue starts
its period all the same is the model's reading (log entry 19, DEDUCED), as is that an ALLOWANCE due before the first sample
starts its period with no frame (log entry 20, DEDUCED); that an ALLOWANCE between two samples carries the minutes count as
it stands when queued is the model's choice (log entry 56, DESIGN CHOICE). -/
def Obligations.PeriodsQueueTheirFrames : Prop :=
  (∀ (s : State) (dt : Nat) (n : Node) (p : Nat), n = s.found dt →
    let owes (row : Instr) (e : Event) (content : State → Prop) : Prop :=
      ∃ t, exec row s = .next t ∧ t = s.ended dt s.rx { n with ev := e } ∧ (n.calm = true → content t)
    let places (t : State) (f : Frame) : Prop := s.sound = true → n.tx.queue.length ≤ 4 → t.queued f
    (n.isActive = true ∨ (n.state = some .listenOnly ∧ n.station ≠ none ∧ n.cfg = none) →
      n.pub.presence = some p → p + 1000 ≤ n.now →
      owes (.presencePeriod dt) { n.ev with presence := true } fun t =>
        t.node.pub.presence = some n.now ∧ places t (.presence (presenceBody n))) ∧
    (n.isActive = true ∨ (n.state = some .listening ∧ broadcastList n ≠ []) →
      n.pub.draw = some p → p + 500 ≤ n.now →
      owes (.drawPeriod dt) { n.ev with draw := true } fun t =>
        t.node.pub.draw = some n.now ∧ places t (.draw (broadcastList t.node))) ∧
    (n.isActive = true → n.has .battery = true → n.pub.allowance = some p → p + 500 ≤ n.now →
      owes (.allowancePeriod dt) { n.ev with allowance := true } fun t =>
        t.node.pub.allowance = some n.now ∧ ∀ b, allowanceBody n = some b → places t (.allowance b)) ∧
    (n.isActive = true → n.has .tanks = true ∨ n.has .frost = true → n.pub.tanks = some p → p + 2000 ≤ n.now →
      owes (.tanksPeriod dt) { n.ev with tanks := true } fun t =>
        t.node.pub.tanks = some n.now ∧ places t (.tanks (n.ownTanks.map tankBody) (frostPart n))) ∧
    (n.isActive = true → n.has .heater = true → n.pub.climate = some p → p + 1000 ≤ n.now →
      owes (.climatePeriod dt) { n.ev with climate := true } fun t => ∀ c, n.heaterCfg = some c →
        t.node.pub.climate = some n.now ∧ places t (.climate (climateBody c n))) ∧
    (n.isActive = true → n.has .awning = true ∨ n.has .step = true ∨ n.has .wind = true → n.pub.motion = some p →
      p + (if isMoving n.motion.awning || isMoving n.motion.step then 250 else 1000) ≤ n.now →
      owes (.motionPeriod dt) { n.ev with motion := true } fun t =>
        t.node.pub.motion = some n.now ∧ places t (motionFrame n)) ∧
    (n.isActive = true → n.has .lights = true → n.pub.lights = some p → p + 2000 ≤ n.now →
      owes (.lightsPeriod dt) { n.ev with lights := true } fun t =>
        t.node.pub.lights = some n.now ∧ places t (.lights (t.node.lights.channels.map lightBody)))) ∧
  (∀ (s : State) (dt : Nat) (rx : Receiver) (m : Node),
    queueFits m = true → m.ev.restart = false → m.ev.reset = false → m.cmd.restart = none →
    let n := s.found dt
    let t := s.ended dt rx m
    let sends (p : Option Nat) (f : Frame) : Prop := p = some m.now ∧ (t.node.tx.queue.length < 6 → t.queued f)
    let enters : Prop := n.isActive = false
    let h := t.node.heater
    (m.state = some .silent → t.node.tx = m.tx ∧ t.node.pub = m.pub) ∧
    (m.state = some .listening → broadcastList t.node ≠ m.pub.list →
      sends t.node.pub.draw (.draw (broadcastList t.node))) ∧
    (m.isActive = true →
      (enters ∨ t.node.ownTravel ≠ n.ownTravel ∨ t.node.ownWind ≠ n.ownWind →
        sends t.node.pub.presence (.presence (presenceBody t.node))) ∧
      (enters ∨ broadcastList t.node ≠ m.pub.list → sends t.node.pub.draw (.draw (broadcastList t.node))) ∧
      (enters ∨ m.ev.allowance = true → m.has .battery = true → t.node.pub.allowance = some m.now ∧
        ∀ b, allowanceBody m = some b → sends t.node.pub.allowance (.allowance b)) ∧
      (enters ∨ t.node.ownTanks.map tankBody ≠ n.ownTanks.map tankBody ∨ t.node.frost.state ≠ n.frost.state →
        m.has .tanks = true ∨ m.has .frost = true →
        sends t.node.pub.tanks (.tanks (t.node.ownTanks.map tankBody) (frostPart t.node))) ∧
      (∀ c, m.heaterCfg = some c →
        enters ∨ h.state ≠ n.heater.state ∨ h.level ≠ n.heater.level ∨ h.mode ≠ n.heater.mode ∨
          effectiveSetpoint h ≠ effectiveSetpoint n.heater ∨ h.reason ≠ n.heater.reason ∨
          h.attempts ≠ n.heater.attempts →
        sends t.node.pub.climate (.climate (climateBody c t.node))) ∧
      (m.has .awning = true ∨ m.has .step = true ∨ m.has .wind = true →
        enters ∨ (∃ u, (m.unit u).state ≠ (n.unit u).state ∨ (m.unit u).cause ≠ (n.unit u).cause ∨
          (m.unit u).tag ≠ (n.unit u).tag ∨ (m.unit u).outcome ≠ (n.unit u).outcome) →
        sends t.node.pub.motion (motionFrame t.node)) ∧
      (m.has .lights = true →
        enters ∨ m.ev.lights = true ∨ (t.node.lights.channels.map fun l => (l.target, l.capped, l.shed, l.degraded)) ≠
          (n.lights.channels.map fun l => (l.target, l.capped, l.shed, l.degraded)) →
        sends t.node.pub.lights (.lights (t.node.lights.channels.map lightBody))))) ∧
  (∀ (c : BatteryCfg) (raw : Int) (volt : Nat) (n : Node) (p r : Sample),
    n.battery.last = some p → (measure c raw volt n).battery.last = some r → p.band ≠ r.band ∨ p.shed ≠ r.shed →
    (measure c raw volt n).ev.allowance = true) ∧
  ∀ n : Node, (broadcastList n).Pairwise (fun a b => a.slot < b.slot) ∧
    ∀ d : DrawClaim, d ∈ broadcastList n ↔ ∃ i : Fin 8, let c := n.claim i
      d.slot = i.val ∧ d.cls = c.cls ∧ d.held = c.held ∧ c.state ≠ .idle ∧ (c.state = .waiting → 0 < c.held) ∧
      (d.asking = true ↔ c.state = .asking) ∧ d.asked = if c.state = .asking then c.asked else c.held

/-- LISTENING_TIMER_EXPIRY (R30): a LISTENING node whose timer has run out becomes ACTIVE; a pump that deferred its
claim files it. At a node with nothing queued a PRESENCE and a DRAW are queued at once. -/
def Obligations.ListeningEndsInActive : Prop :=
  ∀ (s : State) (dt : Nat) (n : Node) (p : Nat),
    n = s.found dt → n.state = some .listening → n.view.listen = some p → p ≤ n.now →
    ∃ m, exec (.listeningTimerExpiry dt) s = .next (s.ended dt s.rx m) ∧
      m = { n with state := some .active, view := { n.view with listen := none }, claims := m.claims, pump := m.pump,
                   heater := m.heater, ev := m.ev } ∧
      (∀ c, n.pumpCfg = some c → n.pump.state = .idle → n.pump.modeOn = true → demand c n = true →
        pumpInhibit c n = none → (n.claim slotPump).state = .idle →
        m.pump.state = .waiting ∧ (m.claim slotPump).state = .waiting ∧
          (m.claim slotPump).deadline = some (n.now + 3000)) ∧
      (n.calm = true → n.tx.queue = [] →
        (s.ended dt s.rx m).queuedKind .presence ∧ (s.ended dt s.rx m).queuedKind .draw)

/-- A dispatch (R35 to R37): a frame that is taken fills the sender's entry of the peer table with its kind's part
and its arrival time stamp, creating the entry where there is none, and its buffer returns to the free list
(R186). The other entries stay. A COMMAND for another target (R194) is taken so, refreshes the entry, and is ignored
beyond that. A frame of any kind, a COMMAND of any code among them, that the dispatch does not take (R35, R36): its
SOURCE is 0 or above 14, or it is stale, or the table is full and has no entry of its sender, or the node is SILENT and
the number is its own (R32). Its buffer returns to the free list, and the frame changes nothing. Which row a COMMAND of a
unit with an unknown action has is the model's choice (log entry 8, DESIGN CHOICE). -/
def Obligations.Dispatches : Prop :=
  ((∀ (s : State) (dt : Nat) (x : RxFrame) (rest : List RxFrame) (n : Node) (c : Instr),
     n = s.found dt → Admitted s dt x rest → dispatchRow dt (kindOf x.frame) = some c →
     ∃ m, exec c s = .next (s.ended dt (s.rx.without rest) m) ∧
       (∀ p ∈ n.view.peers, p.station = x.source → fillPart x.frame { p with heard := x.stamp } ∈ m.view.peers) ∧
       (n.view.peers.any (·.station == x.source) = false → fillPart x.frame { station := x.source, heard := x.stamp } ∈
         m.view.peers) ∧
       (∀ p ∈ n.view.peers, p.station ≠ x.source → p ∈ m.view.peers) ∧
       m.view.peers.length = (if n.view.peers.any (·.station == x.source) then n.view.peers.length
         else n.view.peers.length + 1) ∧
       m.now = n.now ∧ m.state = n.state ∧ m.cfg = n.cfg ∧ m.battery = n.battery ∧ m.tx = n.tx ∧ m.pub = n.pub ∧
       m.wind = n.wind ∧ m.bank.temps = n.bank.temps ∧ m.cmd.map = n.cmd.map) ∧
   ∀ p : Peer,
     (∀ b, fillPart (.presence b) p =
       { p with duties := some b.duties, node := some b.node, travel := b.travel, wind := b.wind }) ∧
     (∀ l, fillPart (.draw l) p = { p with claims := some l }) ∧
     (∀ b, fillPart (.allowance b) p = { p with battery := some b }) ∧
     (∀ l f, fillPart (.tanks l f) p = { p with tanks := some l, frost := f.map (·.1) }) ∧
     (∀ b, fillPart (.climate b) p = { p with climate := some b }) ∧
     (∀ l w, fillPart (.motion l w) p = { p with motion := some l }) ∧
     (∀ l, fillPart (.lights l) p = p) ∧ (∀ b, fillPart (.command b) p = p) ∧ (∀ b, fillPart (.reply b) p = p) ∧
     (∀ b, fillPart (.report b) p = p)) ∧
  (∀ (s : State) (dt : Nat) (x : RxFrame) (rest : List RxFrame) (n : Node) (b : CommandBody),
     n = s.found dt → Admitted s dt x rest → x.frame = .command b → b.target ≠ 0 → n.station ≠ some b.target →
     ∃ m, exec (commandRow dt b) s = .next (s.ended dt (s.rx.without rest) m) ∧
       m = { n with view := { n.view with
         peers := m.view.peers, source := m.view.source, conflict := m.view.conflict } } ∧
       (∀ p ∈ n.view.peers, p.station = x.source → { p with heard := x.stamp } ∈ m.view.peers) ∧
       (n.view.peers.any (·.station == x.source) = false →
         ({ station := x.source, heard := x.stamp } : Peer) ∈ m.view.peers) ∧
       (∀ p ∈ n.view.peers, p.station ≠ x.source → p ∈ m.view.peers) ∧
       m.view.peers.length = (if n.view.peers.any (·.station == x.source) then n.view.peers.length
         else n.view.peers.length + 1)) ∧
  (∀ (s : State) (dt : Nat) (x : RxFrame) (rest : List RxFrame) (n : Node),
     n = s.found dt → n.up = true → s.rx.arrival = x :: rest →
     (x.source = 0 ∨ 14 < x.source ∨ (n.station = some x.source ∧ n.state = some .silent) ∨
       (n.station ≠ some x.source ∧ (x.stamp + 3500 < n.now ∨
         (13 ≤ n.view.peers.length ∧ n.view.peers.any (·.station == x.source) = false)))) →
     exec (frameRow dt x.frame) s = .next (s.ended dt (s.rx.without rest) n))

/-- A frame of any kind with the node's own number (R32), a COMMAND among them, which is not executed: the first is a
sighting; a second within 10 000 ms of it silences the node, with its claims of class 0 to 3 ended, its queue emptied but
for a frame in attempt, and its effective shed level 4 (R31, R43). -/
def Obligations.SecondSightingSilences : Prop :=
  ∀ (s : State) (dt : Nat) (x : RxFrame) (rest : List RxFrame) (n : Node),
    n = s.found dt → s.rx.arrival = x :: rest →
    n.station = some x.source → 1 ≤ x.source → x.source ≤ 14 →
    n.state = some .listenOnly ∨ n.state = some .listening ∨ n.state = some .active →
    ∃ m, exec (frameRow dt x.frame) s = .next (s.ended dt (s.rx.without rest) m) ∧ hasFlag .duplicateSeen m = true ∧
      m.cmd = { n.cmd with flags := m.cmd.flags } ∧ m.ev.reply = n.ev.reply ∧
      ((∀ t, n.view.sighting = some t → t + 10000 < x.stamp) →
        m = { n with view := { n.view with sighting := some x.stamp }, cmd := { n.cmd with flags := m.cmd.flags } }) ∧
      (∀ t, n.view.sighting = some t → x.stamp ≤ t + 10000 →
        m.state = some .silent ∧ m.view.shed = 4 ∧ m.view.listen = none ∧ m.view.peers = n.view.peers ∧ m.pub = {} ∧
        m.tx.queue = (if n.tx.attempt = .none then [] else n.tx.queue.take 1) ∧ m.tx.attempt = n.tx.attempt ∧
        (∀ i, (m.claim i).state = .idle ∨ 4 ≤ (m.claim i).cls) ∧ m.battery = n.battery ∧ m.cfg = n.cfg)

/-- The allowance source is the lowest-numbered battery station (R39), and an ALLOWANCE is accepted from it alone (R40):
the view takes over its allowance, shed level and band, the orphan state ends, and the effective shed level follows
(R43). Where the node's own accountant is the lowest-numbered battery station it is the source itself, and no peer's
ALLOWANCE is accepted. The battery-conflict flag is set while a peer's battery station ranks lower than the node's own
accountant (R41); the node's own results it follows only as its own source (BatteryEvents). -/
def Obligations.AcceptanceFromTheSource : Prop :=
  ∀ (s : State) (dt : Nat) (x : RxFrame) (rest : List RxFrame) (n : Node) (b : AllowanceBody),
    n = s.found dt → Admitted s dt x rest → x.frame = .allowance b →
    ∃ m, exec (.dispatchAllowance dt) s = .next (s.ended dt (s.rx.without rest) m) ∧
      ((∀ p ∈ n.view.peers, isBatteryStation p = true → x.source ≤ p.station) →
        (n.has .battery = true → x.source < n.rankNumber) →
        m.view.source = some (.peer x.source) ∧ m.view.allowance = b.allowance ∧ m.view.sourceShed = b.shed ∧
        m.view.band = some b.band ∧ m.view.orphaned = false ∧ m.view.orphanRef = some x.stamp ∧
        (n.state = some .listening ∨ n.state = some .active → m.view.shed = b.shed) ∧
        (n.state = some .listenOnly ∨ n.state = some .silent → m.view.shed = 4)) ∧
      (∀ p ∈ n.view.peers, isBatteryStation p = true → p.station < x.source →
        m.view.allowance = n.view.allowance ∧ m.view.sourceShed = n.view.sourceShed ∧ m.view.band = n.view.band ∧
        m.view.orphaned = n.view.orphaned ∧ m.view.orphanRef = n.view.orphanRef ∧ m.view.shed = n.view.shed) ∧
      (n.has .battery = true → n.rankNumber < x.source →
        (∀ p ∈ n.view.peers, isBatteryStation p = true → n.rankNumber < p.station) →
        m.view.source = some .own ∧ m.view.conflict = false ∧
        m.view.allowance = n.view.allowance ∧ m.view.sourceShed = n.view.sourceShed ∧ m.view.band = n.view.band ∧
        m.view.orphaned = n.view.orphaned ∧ m.view.orphanRef = n.view.orphanRef ∧ m.view.shed = n.view.shed) ∧
      (m.view.conflict = true ↔ n.has .battery = true ∧ (x.source < n.rankNumber ∨
        ∃ p ∈ n.view.peers, p.station ≠ x.source ∧ isBatteryStation p = true ∧ p.station < n.rankNumber))

/-- PEER_AGE_OUT (R38): an entry whose last frame is 3 500 ms old or older is removed, and what the view derives from
the table is derived afresh (R39, R41, R44, R45). ORPHAN_EXPIRY (R42): 2 000 ms after the orphan reference time a node
that is not its own source takes its orphan allowance, sheds at least to level 2, and sets the ORPHANED flag; its
band is unknown. -/
def Obligations.ViewExpiries : Prop :=
  (∀ (s : State) (dt : Nat) (n : Node) (p : Peer),
     n = s.found dt → n.up = true → p ∈ n.view.peers → p.heard + 3500 ≤ n.now →
     ∃ m, exec (.peerAgeOut dt p.station) s = .next (s.ended dt s.rx m) ∧
       m.view.peers = n.view.peers.filter (·.station != p.station) ∧
       m.view.source = chooseSource { n with view := { n.view with peers := m.view.peers } } ∧
       (m.view.conflict = true ↔ n.has .battery = true ∧
         ∃ q ∈ n.view.peers, q.station ≠ p.station ∧ isBatteryStation q = true ∧ q.station < n.rankNumber) ∧
       m.view.travel = (n.ownTravel || m.view.peers.any (·.travel)) ∧
       m.view.wind = (n.ownWind || m.view.peers.any (·.wind)) ∧
       m.view.allowance = n.view.allowance ∧ m.view.shed = n.view.shed ∧
       m.now = n.now ∧ m.state = n.state ∧ m.battery = n.battery ∧ m.tx = n.tx ∧ m.ev.wait = true) ∧
  (∀ (s : State) (dt : Nat) (n : Node) (r : Nat),
     n = s.found dt → n.up = true → n.view.orphaned = false → n.view.source ≠ some .own →
     n.view.orphanRef = some r → r + 2000 ≤ n.now →
     ∃ m, exec (.orphanExpiry dt) s = .next (s.ended dt s.rx m) ∧
       m.view.orphaned = true ∧ m.view.band = none ∧ hasFlag .orphaned m = true ∧
       (∀ c, n.cfg = some c → m.view.allowance = c.orphan / 100) ∧
       (n.state = some .listening ∨ n.state = some .active → m.view.shed = max n.view.sourceShed 2) ∧
       m.view.peers = n.view.peers ∧ m.view.source = n.view.source ∧ m.view.sourceShed = n.view.sourceShed ∧
       m.now = n.now ∧ m.state = n.state ∧ m.battery = n.battery ∧ m.tx = n.tx ∧ m.ev.wait = true)

/-! ## Draw claims (chapter 3) -/

/-- R55: the rank of claims. A higher class ranks first, then the lower station, then the lower slot; the ranking is
total, and the node's own claims carry its own number. -/
def Obligations.RankIsTotal : Prop :=
  (∀ a b : Nat × Nat × Nat, b.1 < a.1 → outranks a b = true) ∧
  (∀ a b : Nat × Nat × Nat, a.1 = b.1 → a.2.1 < b.2.1 → outranks a b = true) ∧
  (∀ a b : Nat × Nat × Nat, a.1 = b.1 → a.2.1 = b.2.1 → a.2.2 < b.2.2 → outranks a b = true) ∧
  (∀ a b : Nat × Nat × Nat, outranks a b = true → outranks b a = false) ∧
  (∀ a b c : Nat × Nat × Nat, outranks a b = true → outranks b c = true → outranks a c = true) ∧
  (∀ a b : Nat × Nat × Nat, a ≠ b → outranks a b = true ∨ outranks b a = true) ∧
  ∀ (n : Node) (i : Fin 8) (k : Nat), n.station = some k → ownRank n i = ((n.claim i).cls, k, i.val)

/-- Filing, raising, reducing, releasing and converting a claim (R58, R64 to R67): what each does to its slot's record,
and that it touches nothing but that record and the mark for the wait service. That a converted claim keeps its filing
stamp is the model's choice (log entry 36, DEDUCED). -/
def Obligations.ClaimOperations : Prop :=
  ∀ (n : Node) (i : Fin 8) (cls w : Nat) (wait : Option Nat),
    let c := n.claim i
    let after (d : Claim) (served : Bool) : Node :=
      { n with claims := n.claims.set i d, ev := { n.ev with wait := n.ev.wait || served } }
    (c.state = .idle → fileClaim i 4 w wait n =
      after { state := .holding, cls := 4, held := w, wanted := w, stamp := n.now } false) ∧
    (c.state = .idle → cls ≠ 4 → fileClaim i cls w wait n =
      after { state := .waiting, cls := cls, wanted := w, stamp := n.now, deadline := wait.map (n.now + ·),
              degradable := decide (i.val < 2) } true) ∧
    (c.state ≠ .idle → fileClaim i cls w wait n = n) ∧
    (c.state = .holding → c.cls ≠ 4 → c.wanted < w → raiseClaim i w wait n =
      after { c with state := .waiting, wanted := w, stamp := n.now, deadline := wait.map (n.now + ·) } true) ∧
    (c.state = .holding → c.cls = 4 → c.wanted < w → raiseClaim i w wait n =
      after { c with held := w, wanted := w } true) ∧
    (c.state = .waiting ∨ c.state = .asking → c.wanted < w → raiseClaim i w wait n = after { c with wanted := w } true) ∧
    (c.state ≠ .idle → 0 < w → w < c.wanted → w ≤ c.held → reduceClaim i w n =
      after { c with state := .holding, held := w, wanted := w, asked := 0, carrier := none, settle := none,
                     deadline := none } true) ∧
    (c.state ≠ .idle → w < c.wanted → c.held < w → reduceClaim i w n =
      after { c with wanted := w, asked := min c.asked w } true) ∧
    (c.state ≠ .idle → releaseClaim i n = after {} true) ∧ (c.state = .idle → releaseClaim i n = n) ∧
    (c.state ≠ .idle → 0 < c.wanted → reduceClaim i 0 n = releaseClaim i n) ∧
    (c.state ≠ .idle → convertClaim i w n =
      after { state := .holding, cls := 4, held := w, wanted := w, stamp := c.stamp } true) ∧
    (c.state = .idle → convertClaim i w n = fileClaim i 4 w none n)

/-- A pass of the wait service over one WAITING claim of an ACTIVE node (R56, R60, R68): passed over while its class is
forbidden; asked for as a whole when the headroom holds it; a degradable one asked for as far as the headroom goes. A
DRAW is owed when it moved. And what the headroom is (R56, R57): the effective allowance, less every held amount of the
view, less what each ask of the view that outranks the claim would add. -/
def Obligations.WaitServicePass : Prop :=
  (∀ (n : Node) (i : Fin 8), n.isActive = true → (n.claim i).state = .waiting →
    (∀ j, j ≠ i → (n.claim j).state ≠ .waiting) →
    let c := n.claim i
    let h := headroom [] i n
    let asks (asked : Nat) : Node :=
      { n with claims := n.claims.set i { c with state := .asking, asked := asked, carrier := none, settle := none }
               ev := { n.ev with draw := true } }
    (c.cls < n.view.shed → c.cls < 4 → waitService n = n) ∧
    (n.view.shed ≤ c.cls ∨ 4 ≤ c.cls → c.degradable = false → (c.wanted : Int) - c.held ≤ h →
      waitService n = asks c.wanted) ∧
    (n.view.shed ≤ c.cls ∨ 4 ≤ c.cls → c.degradable = false → h < (c.wanted : Int) - c.held → waitService n = n) ∧
    (n.view.shed ≤ c.cls ∨ 4 ≤ c.cls → c.degradable = true → 1 ≤ h →
      waitService n = asks (c.held + min (c.wanted - c.held) h.toNat)) ∧
    (n.view.shed ≤ c.cls ∨ 4 ≤ c.cls → c.degradable = true → h ≤ 0 → waitService n = n)) ∧
  ∀ (n : Node) (i : Fin 8) (k : Nat), n.station = some k → tableFits n = true →
    let claims (p : Peer) : List DrawClaim := p.claims.getD []
    let held : Nat := ((List.finRange 8).map fun j => (n.claim j).held).sum +
      (n.view.peers.map fun p => ((claims p).map fun d => d.held).sum).sum
    let own (j : Fin 8) : Int :=
      if (n.claim j).state = .asking ∧ ((n.claim i).cls < (n.claim j).cls ∨
        ((n.claim j).cls = (n.claim i).cls ∧ j < i)) then ((n.claim j).asked : Int) - (n.claim j).held else 0
    let peer (p : Peer) (d : DrawClaim) : Int :=
      if d.asking = true ∧ ((n.claim i).cls < d.cls ∨ (d.cls = (n.claim i).cls ∧ p.station < k)) then
        (d.asked : Int) - d.held else 0
    headroom [] i n = (n.view.allowance : Int) - held - ((List.finRange 8).map own).sum -
      (n.view.peers.map fun p => ((claims p).map (peer p)).sum).sum

/-- SETTLE_END (R62, R69) of one claim: granted as a whole when its class is allowed and the headroom holds what it
asks; a degradable one granted as far as the headroom goes; else WAITING again with its amounts, stamp and deadline. The
job of a granted claim is told, and the wait service is owed. -/
def Obligations.SettleEndDecides : Prop :=
  ∀ (s : State) (dt : Nat) (n : Node) (i : Fin 8) (e : Nat),
    n = s.found dt → n.up = true → (n.claim i).state = .asking → (n.claim i).settle = some e → e ≤ n.now →
    (∀ j, j ≠ i → (n.claim j).state ≠ .asking ∨ n.reached (n.claim j).settle = false) →
    let c := n.claim i
    let h := headroom [] i n
    let allowed : Prop := n.view.shed ≤ c.cls ∨ 4 ≤ c.cls
    let with_ (d : Claim) : Node := { n with claims := n.claims.set i d, ev := { n.ev with wait := true } }
    let waits (held : Nat) : Claim :=
      { c with state := .waiting, held := held, asked := 0, carrier := none, settle := none }
    let granted (held : Nat) : Claim :=
      if held = c.wanted then { waits held with state := .holding, deadline := none } else waits held
    (allowed → (c.asked : Int) - c.held ≤ h →
      exec (.settleEnd dt) s = .next (s.ended dt s.rx (tellGranted i (with_ (granted c.asked))))) ∧
    (allowed → h < (c.asked : Int) - c.held → c.degradable = true → 1 ≤ h →
      exec (.settleEnd dt) s = .next (s.ended dt s.rx (tellGranted i (with_ (granted (c.held + h.toNat)))))) ∧
    (¬ allowed ∨ (h < (c.asked : Int) - c.held ∧ (c.degradable = false ∨ h ≤ 0)) →
      exec (.settleEnd dt) s = .next (s.ended dt s.rx (with_ (waits c.held))))

/-- WAIT_DEADLINE (R63): a claim that waits or asks falls back to IDLE, or to HOLDING what it holds; the job is told
NO_ENERGY. A waiting pump is then INHIBITED (R92), a pending raise of the heater is given up (R120), a unit's only entry
ends NO_ENERGY (R140), and pending AUX outputs are off (R177). -/
def Obligations.DeadlineFallsBack : Prop :=
  ∀ (s : State) (dt : Nat) (n : Node) (i : Fin 8) (d : Nat),
    n = s.found dt → n.up = true → (n.claim i).state = .waiting ∨ (n.claim i).state = .asking →
    (n.claim i).deadline = some d → d ≤ n.now →
    let c := n.claim i
    let back : Claim := if c.held = 0 then {} else
      { c with state := .holding, wanted := c.held, asked := 0, carrier := none, settle := none, deadline := none }
    let k : Node := { n with claims := n.claims.set i back, ev := { n.ev with wait := true } }
    ∃ m, exec (.waitDeadline dt i) s = .next (s.ended dt s.rx m) ∧ m = tellNoEnergy i k ∧
      (i = 0 ∨ i = 1 ∨ i = 6 → m = k) ∧
      (∀ p, i = slotPump → n.pumpCfg = some p → n.pump.state = .waiting →
        m.pump.state = .inhibited ∧ m.pump.toldNoEnergy = true ∧ m.pump.reason.isSome = true ∧
        m = { k with pump := m.pump }) ∧
      (∀ h, i = slotHeater → n.heaterCfg = some h → n.heater.state = .run →
        m = { k with heater := { n.heater with raise := none } }) ∧
      (∀ u cfg a station tag, i = slotUnit u → n.unitCfg u = some cfg →
        n.motion.list = [⟨u, a, .command station tag, .waitingEnergy⟩] →
        m.motion.list = [] ∧ (m.unit u).tag = tag ∧ (m.unit u).outcome = .noEnergy ∧ (m.unit u).state = (n.unit u).state ∧
        m = { k with motion := m.motion }) ∧
      (∀ ch, i = slotAux → n.auxState ch = .pending → m.auxState ch = .off) ∧
      (∀ ch, i = slotAux → n.auxState ch = .on → m.auxState ch = .on)

/-- GRANTED (R91, R114, R120, R128, R141, R177): what each job does with what its slot now holds; a unit moves in the
direction decided at the filing (R140). SHED (R70, R92,
R127, R145, R177): what each job does when its claim has been ended. -/
def Obligations.JobsAreTold : Prop :=
  (∀ n : Node,
     (∀ c, n.pumpCfg = some c → n.pump.state = .waiting → units c.draw ≤ (n.claim slotPump).held →
       let m := tellGranted slotPump n
       m.pump.state = .running ∧ m.pump.run = some n.now ∧ (m.chan c.output).commanded = 100 ∧
         m = { n with pump := m.pump, bank := m.bank }) ∧
     (∀ c, n.pumpCfg = some c → n.pump.state = .waiting → (n.claim slotPump).held < units c.draw →
       tellGranted slotPump n = n) ∧
     (∀ c, n.heaterCfg = some c → n.heater.state = .standby →
       let m := tellGranted slotHeater n
       (n.heater.mode ≠ .vent → m.heater.state = .purge ∧ m.heater.phaseEnd = some (n.now + 20000) ∧
         m.heater.restart = false ∧ (m.chan c.fan).commanded = c.startDuty) ∧
       (n.heater.mode = .vent → m.heater = { n.heater with state := .venting } ∧
         (m.chan c.fan).commanded = c.ventDuty) ∧
       m = { n with heater := m.heater, bank := m.bank }) ∧
     (∀ c level, n.heaterCfg = some c → n.heater.state = .run → n.heater.raise = some level →
       let m := tellGranted slotHeater n
       m.heater.level = level ∧ m.heater.raise = none ∧ m.heater.rate = levelRate level ∧
         m.heater.rateStart = n.now ∧ m.heater.holdEnd = some (n.now + 60000) ∧
         (m.chan c.fan).commanded = levelDuty c level ∧ m = { n with heater := m.heater, bank := m.bank }) ∧
     (∀ u c e, n.unitCfg u = some c → findEntry u .waitingEnergy true n = some e →
       unitUnits c ≤ (n.claim (slotUnit u)).held →
       let m := tellGranted (slotUnit u) n
       m.motion.list = replaceEntry e { e with state := .active } n.motion.list ∧
         (m.unit u).dir = (n.unit u).dir ∧ isMoving (m.unit u) = true ∧ m.claims = n.claims ∧
         m = { n with motion := m.motion, bank := m.bank }) ∧
     (∀ ch, n.auxState ch = .pending → (n.chanCfg ch).draw + auxDraw (· == .on) n ≤ (n.claim slotAux).held * 100 →
       (∀ j, j ≠ ch → n.auxState j ≠ .pending) →
       let m := tellGranted slotAux n
       m.auxState ch = .on ∧ (m.chan ch).commanded = 100 ∧ (∀ j, j ≠ ch → m.auxState j = n.auxState j) ∧
         m = { n with bank := m.bank })) ∧
  (∀ n : Node,
     (∀ c, n.pumpCfg = some c → n.pump.state = .running →
       let m := tellShed slotPump n
       m.pump.state = .inhibited ∧ m.pump.toldShed = true ∧ m.pump.run = none ∧ (m.chan c.output).commanded = 0) ∧
     (∀ c, n.heaterCfg = some c → n.heater.state = .purge ∨ n.heater.state = .glow ∨ n.heater.state = .venting →
       let m := tellShed slotHeater n
       m.heater.state = .standby ∧ m.heater.reason = .shed ∧ (m.chan c.glow).commanded = 0 ∧
         (m.chan c.fan).commanded = 0 ∧ (m.chan c.fuel).commanded = 0) ∧
     (∀ c, n.heaterCfg = some c → n.heater.state = .ignite ∨ n.heater.state = .run → c.fan ≠ c.glow → c.fan ≠ c.fuel →
       let m := tellShed slotHeater n
       m.heater.state = .cooldown ∧ m.heater.reason = .shed ∧ m.heater.phaseEnd = some (n.now + 180000) ∧
         (m.chan c.fan).commanded = 100 ∧ (m.chan c.glow).commanded = 0 ∧ (m.chan c.fuel).commanded = 0 ∧
         (m.claim slotHeater).cls = 4) ∧
     (∀ u c a station tag, n.unitCfg u = some c → n.motion.list = [⟨u, a, .command station tag, .active⟩] →
       (n.bridge u).state ≠ .fault → ¬ (extStop c n = true ∧ retStop c n = true) →
       let m := tellShed (slotUnit u) n
       (m.bridge u).state = .coast ∧ (m.unit u).state = .partway ∧ (m.unit u).outcome = .shed ∧ (m.unit u).tag = tag ∧
         (m.unit u).pos = estimate c (n.unit u) n.now ∧ m.motion.list = [] ∧ m.claims = n.claims) ∧
     (∀ ch, n.auxState ch = .on → (tellShed slotAux n).auxState ch = .off ∧
       ((tellShed slotAux n).chan ch).commanded = 0))

/-! ## Tanks and pump (chapter 4) -/

/-- SCAN_START and SCAN_COMPLETE (R76, R82): the excitations go on, and 50 ms later off; each tank's result is applied
to its record, or every held mark is set while the travel view is true. -/
def Obligations.ScansRun : Prop :=
  ∀ (s : State) (dt : Nat) (n : Node) (d : Nat), n = s.found dt → n.up = true → d ≤ n.now →
    (n.tanks.due = some d → ∃ m, exec (.scanStart dt) s = .next (s.ended dt s.rx m) ∧
      m = { n with bank := m.bank, tanks := { n.tanks with due := some (n.now + 5000), complete := some (n.now + 50) } } ∧
      (∀ c ∈ n.tankCfgs, ∀ probes exc, c.method = .ladder probes exc → (m.chan exc).commanded = 100) ∧
      ∀ ch, (∀ c ∈ n.tankCfgs, ∀ probes, c.method ≠ .ladder probes ch) → m.chan ch = n.chan ch) ∧
    (n.tanks.complete = some d → ∃ m, exec (.scanComplete dt) s = .next (s.ended dt s.rx m) ∧
      m = { n with bank := m.bank, tanks := m.tanks, cmd := { n.cmd with flags := m.cmd.flags } } ∧
      m.tanks.complete = none ∧ m.tanks.due = n.tanks.due ∧
      (∀ c ∈ n.tankCfgs, ∀ probes exc, c.method = .ladder probes exc → (m.chan exc).commanded = 0) ∧
      (n.view.travel = true → m.cmd = n.cmd ∧
        m.tanks.records = n.tanks.records.map fun t => { t with heldMark := true }) ∧
      (n.view.travel = false → ∀ (i : Nat) (c : TankCfg) (t : Tank), n.tankCfgs[i]? = some c →
        n.tanks.records[i]? = some t → m.tanks.records[i]? = some (applyScan c (scanTank n c) t) ∧
        (scanTank n c = .senderFault → hasFlag .senderFault m = true) ∧
        (∀ level, scanTank n c = .ladder level false → 2 ≤ t.run → hasFlag .probeFault m = true)))

/-- R77: the result of a ladder. `k` is the number of wet probes from the bottom up to the first dry one. -/
def Obligations.LadderResult : Prop :=
  (∀ (k n : Nat) (probes above : List Bool), 0 < n → probes.length = n →
    (k = n ∧ probes = List.replicate n true ∨ k < n ∧ probes = List.replicate k true ++ false :: above) →
    ladderLevel probes = k * 1000 / n ∧
    (inconsistent probes = true ↔ ∃ i, k < i ∧ probes[i]? = some true)) ∧
  ladderLevel [true, false, true, false, false] = 200 ∧ inconsistent [true, false, true, false, false] = true ∧
  ∀ probes : List Bool, probes.length = 3 → ladderLevel probes ∈ [0, 333, 666, 1000]

/-- R79 and R80: what a sender's reading gives: a fault above 600 ohms or below 2 ohms, else the level of the
reading, brought to 400 ohms, in the tank's table; what a fault does to the tank; and the worked values of the
table of R79. R81 and R83: a result enters the window of at most three; with three the reported level is their
median, and its alarms follow it at a change, with a hysteresis of 50 per mille. -/
def Obligations.LevelOfATank : Prop :=
  (∀ (n : Node) (c : TankCfg) (ch : Fin 16) (table : List (Nat × Nat)) (r : Nat) (t : Tank),
     c.method = .sender ch table → (n.chan ch).reading = some r →
     (600 < r ∨ r < 2 → scanTank n c = .senderFault) ∧
     (2 ≤ r → r ≤ 600 → scanTank n c = .sender (mapTable (min r 400) table)) ∧
     applyScan c .senderFault t = { t with senderFault := true, window := [] } ∧
     (∀ level, (applyScan c (.sender level) t).senderFault = false) ∧
     mapTable 95 [(10, 1000), (180, 0)] = 500 ∧ mapTable 96 [(10, 1000), (180, 0)] = 494 ∧
     mapTable 9 [(10, 1000), (180, 0)] = 1000 ∧ mapTable 180 [(10, 1000), (180, 0)] = 0) ∧
  (∀ (c : TankCfg) (t : Tank) (x : Nat), t.window.length ≤ 3 →
     let u := applyResult c x t
     (t.window.length < 2 → u = { t with window := t.window ++ [x] }) ∧
     (t.window.length = 2 → u.window = t.window ++ [x]) ∧
     (t.window.length = 3 → u.window = t.window.drop 1 ++ [x]) ∧
     (∀ a b, (t.window = [a, b] ∨ ∃ z, t.window = [z, a, b]) → ∃ m, u.level = some m ∧ u.heldMark = false ∧
       m ∈ [a, b, x] ∧ 2 ≤ ([a, b, x].filter (· ≤ m)).length ∧ 2 ≤ ([a, b, x].filter (m ≤ ·)).length ∧
       (t.level = some m → u.low = t.low ∧ u.empty = t.empty ∧ u.full = t.full) ∧
       (t.level ≠ some m → c.kind = .fresh → u.full = t.full ∧
         (m ≤ 100 → u.low = true) ∧ (150 ≤ m → u.low = false) ∧ (100 < m → m < 150 → u.low = t.low) ∧
         (m = 0 → u.empty = true) ∧ (50 ≤ m → u.empty = false) ∧ (0 < m → m < 50 → u.empty = t.empty)) ∧
       (t.level ≠ some m → c.kind ≠ .fresh → u.low = t.low ∧ u.empty = t.empty ∧
         (c.full ≤ m → u.full = true) ∧ (m < c.full → m + 50 ≤ c.full → u.full = false) ∧
         (m < c.full → c.full < m + 50 → u.full = t.full))))

/-- PUMP_MODE (R87) heard at a node with the duty: OFF stops the pump and releases its claim, ON lets it begin, any
other argument is refused and changes nothing. PUMP_RESET (R94) heard at a node with the duty: it ends DRY_FAULT,
and is refused in any other state. -/
def Obligations.PumpCommands : Prop :=
  (∀ (s : State) (dt : Nat) (x : RxFrame) (rest : List RxFrame) (b : CommandBody) (k : Node) (c : PumpCfg) (a : Byte),
     k = s.admitted dt x → Heard s dt 0x18 x rest b → k.has .pump = true → k.pumpCfg = some c → b.args = [a] →
     ∃ m, exec (.pumpMode dt) s = .next (s.ended dt (s.rx.without rest) m) ∧
       m = { k with pump := m.pump, claims := m.claims, bank := m.bank, ev := m.ev } ∧
       (a = 0 → m.ev.reply = k.owing x b .done 0 ∧ m.pump.modeOn = false ∧ m.pump.dryCount = k.pump.dryCount ∧
         (k.pump.state = .idle ∨ k.pump.state = .dryFault →
           m.pump.state = k.pump.state ∧ m.claims = k.claims ∧ m.bank = k.bank) ∧
         (k.pump.state ≠ .dryFault → m.pump.state = .idle) ∧
         (k.pump.state = .waiting ∨ k.pump.state = .running ∨ k.pump.state = .inhibited →
           (m.claim slotPump).state = .idle) ∧
         (k.pump.state = .running → (m.chan c.output).commanded = 0)) ∧
       (a = 1 → m.ev.reply = k.owing x b .done 0 ∧ m.pump.modeOn = true ∧
         (k.pump.state ≠ .idle → m.pump = { k.pump with modeOn := true } ∧ m.claims = k.claims ∧ m.bank = k.bank) ∧
         (∀ r, k.pump.state = .idle → pumpInhibit c k = some r →
           m.pump.state = .inhibited ∧ m.pump.reason = some r ∧ m.claims = k.claims) ∧
         (k.pump.state = .idle → pumpInhibit c k = none → k.isActive = true → demand c k = true →
           (k.claim slotPump).state = .idle → m.pump.state = .waiting ∧
           m.claim slotPump = { state := .waiting, cls := 1, wanted := units c.draw, stamp := k.now,
                                deadline := some (k.now + 3000) })) ∧
       (2 ≤ a.toNat → m = { k with ev := { k.ev with reply := k.owing x b .refusedRange 0 } })) ∧
  (∀ (s : State) (dt : Nat) (x : RxFrame) (rest : List RxFrame) (b : CommandBody) (k : Node) (c : PumpCfg),
     k = s.admitted dt x → Heard s dt 0x19 x rest b → k.has .pump = true → k.pumpCfg = some c → b.args = [] →
     ∃ m, exec (.pumpReset dt) s = .next (s.ended dt (s.rx.without rest) m) ∧
       m = { k with pump := m.pump, claims := m.claims, ev := m.ev } ∧ m.pump.dryCount = k.pump.dryCount ∧
       (k.pump.state = .dryFault → m.ev.reply = k.owing x b .done 0 ∧
         (∀ r, pumpInhibit c k = some r → m.pump.state = .inhibited ∧ m.pump.reason = some r ∧ m.claims = k.claims) ∧
         (pumpInhibit c k = none → k.pump.modeOn = false → m.pump.state = .idle ∧ m.claims = k.claims) ∧
         (pumpInhibit c k = none → k.pump.modeOn = true → demand c k = true → k.isActive = true →
           m.pump.state = .waiting)) ∧
       (k.pump.state ≠ .dryFault → m = { k with ev := { k.ev with reply := k.owing x b .refusedState 0 } }))

/-- PUMP_RUN_TIMEOUT and PUMP_LOW_TIMEOUT (R93): a RUNNING pump whose run clock has reached the maximum run time, or
whose low clock has reached 10 000 ms, enters DRY_FAULT: output off, claim released, the fault counted and
latched. The inhibits of R88 and R90 (section 4.8), first reason first, and what an evaluation does under one: a RUNNING
pump stops and a WAITING one withdraws, each releasing its claim. -/
def Obligations.PumpStops : Prop :=
  (∀ (s : State) (dt : Nat) (n : Node) (c : PumpCfg) (p : Nat),
     n = s.found dt → n.up = true → n.pumpCfg = some c → n.pump.state = .running →
     let dry (m : Node) : Prop :=
       m = { n with pump := m.pump, claims := m.claims, bank := m.bank, cmd := { n.cmd with flags := m.cmd.flags },
                    ev := m.ev } ∧
       m.pump.state = .dryFault ∧ m.pump.run = none ∧ m.pump.low = none ∧
       m.pump.dryCount = min (n.pump.dryCount + 1) 65535 ∧ m.pump.modeOn = n.pump.modeOn ∧
       (m.chan c.output).commanded = 0 ∧ (m.claim slotPump).state = .idle ∧ hasFlag .dryFault m = true
     (n.pump.run = some p → p + c.maxRun ≤ n.now →
       ∃ m, exec (.pumpRunTimeout dt) s = .next (s.ended dt s.rx m) ∧ dry m) ∧
     (n.pump.low = some p → p + 10000 ≤ n.now →
       ∃ m, exec (.pumpLowTimeout dt) s = .next (s.ended dt s.rx m) ∧ dry m)) ∧
  (∀ (n : Node) (c : PumpCfg) (r : PumpReason), n.pump.state = .running ∨ n.pump.state = .waiting →
     pumpInhibit c n = some r →
     let m := pumpEvaluate c n
     m.pump.state = .inhibited ∧ m.pump.reason = some r ∧ m.pump.run = none ∧ (m.claim slotPump).state = .idle ∧
     (n.pump.state = .running → (m.chan c.output).commanded = 0) ∧
     (frostInhibit n = true → r = .frost) ∧
     (frostInhibit n = false → greyInhibit n = true → r = .greyFull) ∧
     (frostInhibit n = false → greyInhibit n = false → (∃ low, usedFresh n = some (true, low)) → r = .freshEmpty) ∧
     (frostInhibit n = false → greyInhibit n = false → (∀ low, usedFresh n ≠ some (true, low)) →
       isHeldOff (n.chan c.output) = true → r = .channel))

/-! ## Frost monitor (chapter 5) -/

/-- The frost monitor's clocks (R97, R98, R101 to R103): the end of the grace, the countdown's expiry, and the end of a
valve move, judged from the closed contact. -/
def Obligations.FrostClocks : Prop :=
  ∀ (s : State) (dt : Nat) (n : Node) (c : FrostCfg) (d : Nat),
    n = s.found dt → n.up = true → n.frostCfg = some c → d ≤ n.now →
    (sourceTemp c n = none → n.frost.grace + 60000 ≤ n.now →
      ∃ m, exec (.frostGraceEnd dt) s = .next (s.ended dt s.rx m) ∧
        (contactKnown c n = false ∨ heatPresent n = true → n.frost.state = .armed → m = n) ∧
        (contactKnown c n = true → heatPresent n = false → n.frost.state = .armed → viewCutoff n = false →
          m = { n with frost := { n.frost with state := .countdown, countdown := some (n.now + c.delay) } }) ∧
        (contactKnown c n = true → heatPresent n = false → n.frost.state = .armed → viewCutoff n = true →
          m.frost.state = .dumping ∧ m.frost.moveEnd = some (n.now + 8000) ∧ (m.chan c.openCoil).commanded = 100)) ∧
    (n.frost.state = .countdown → n.frost.countdown = some d →
      ∃ m, exec (.countdownExpiry dt) s = .next (s.ended dt s.rx m) ∧
        (waterCold c n = true → heatPresent n = false → m.frost.state = .dumping ∧ m.frost.countdown = none ∧
          m.frost.moveEnd = some (n.now + 8000) ∧ (m.chan c.openCoil).commanded = 100 ∧
          ((n.claim slotFrost).state = .idle →
            m.claim slotFrost = { state := .holding, cls := 4, held := 4, wanted := 4, stamp := n.now }) ∧
          m = { n with frost := m.frost, claims := m.claims, bank := m.bank }) ∧
        (waterCold c n = false ∨ heatPresent n = true →
          m = { n with frost := { n.frost with state := .armed, countdown := none, moveEnd := none } })) ∧
    (n.frost.moveEnd = some d → n.frost.state = .dumping ∨ n.frost.state = .closing →
      ∃ m, exec (.valveMoveEnd dt) s = .next (s.ended dt s.rx m) ∧
        (n.frost.state = .dumping → (m.chan c.openCoil).commanded = 0 ∧ (m.claim slotFrost).state = .idle ∧
          (n.inputActive c.contact = false → m.frost.state = .drained ∧ m.frost.moveEnd = none ∧
            hasFlag .frostDumped m = true) ∧
          (n.inputActive c.contact = true → m.frost.state = .valveFault ∧ m.frost.moveEnd = none ∧
            hasFlag .valveFault m = true)) ∧
        (n.frost.state = .closing →
          (n.inputActive c.contact = false → m.frost.state = .valveFault ∧ hasFlag .valveFault m = true ∧
            (m.chan c.closeCoil).commanded = 0 ∧ (m.claim slotFrost).state = .idle) ∧
          (n.inputActive c.contact = true → waterCold c n = false ∨ heatPresent n = true →
            m.frost.state = .armed ∧ m.frost.moveEnd = none ∧ (m.chan c.closeCoil).commanded = 0 ∧
            (m.claim slotFrost).state = .idle) ∧
          (n.inputActive c.contact = true → waterCold c n = true → heatPresent n = false → viewCutoff n = false →
            m.frost.state = .countdown ∧ m.frost.countdown = some (n.now + c.delay))) ∧
        m = { n with frost := m.frost, claims := m.claims, bank := m.bank, ev := m.ev
                     cmd := { n.cmd with flags := m.cmd.flags } })

/-- The table of R105: FROST_ARM, FROST_DISARM and FROST_CLOSE heard at a node with the duty, in every frost state. A
state that does not take a command refuses it with REFUSED_STATE; before the first accepted state of the contact each
is refused so (R108). -/
def Obligations.FrostCommands : Prop :=
  ∀ (s : State) (dt : Nat) (x : RxFrame) (rest : List RxFrame) (b : CommandBody) (k : Node) (c : FrostCfg),
    k = s.admitted dt x → k.has .frost = true → k.frostCfg = some c → b.args = [] →
    let answers (r : Result) : Node := { k with ev := { k.ev with reply := k.owing x b r 0 } }
    let known : Prop := contactKnown c k = true
    let danger : Prop := waterCold c k = true ∧ heatPresent k = false
    (Heard s dt 0x20 x rest b → ∃ m, exec (.frostArm dt) s = .next (s.ended dt (s.rx.without rest) m) ∧
      (known → k.frost.state = .armed ∨ k.frost.state = .countdown → m = answers .done) ∧
      (¬ known ∨ k.frost.state = .dumping ∨ k.frost.state = .drained ∨ k.frost.state = .closing →
        m = answers .refusedState) ∧
      (known → k.frost.state = .valveFault ∨ k.frost.state = .disarmed → m.ev.reply = k.owing x b .done 0 ∧
        (k.inputActive c.contact = false →
          m.frost = { k.frost with state := .drained, countdown := none, moveEnd := none }) ∧
        (k.inputActive c.contact = true → ¬ danger →
          m.frost = { k.frost with state := .armed, countdown := none, moveEnd := none }) ∧
        (k.inputActive c.contact = true → danger → viewCutoff k = false →
          m.frost = { k.frost with state := .countdown, countdown := some (k.now + c.delay), moveEnd := none }) ∧
        (k.inputActive c.contact = true → danger → viewCutoff k = true →
          m.frost.state = .dumping ∧ (m.chan c.openCoil).commanded = 100) ∧
        m = { k with frost := m.frost, claims := m.claims, bank := m.bank, ev := m.ev })) ∧
    (Heard s dt 0x21 x rest b → ∃ m, exec (.frostDisarm dt) s = .next (s.ended dt (s.rx.without rest) m) ∧
      (known → k.frost.state = .armed ∨ k.frost.state = .countdown → m = { answers .done with
        frost := { k.frost with state := .disarmed, countdown := none, moveEnd := none } }) ∧
      (known → k.frost.state = .disarmed → m = answers .done) ∧
      (¬ known ∨ k.frost.state = .dumping ∨ k.frost.state = .drained ∨ k.frost.state = .closing ∨
        k.frost.state = .valveFault → m = answers .refusedState)) ∧
    (Heard s dt 0x22 x rest b → ∃ m, exec (.frostClose dt) s = .next (s.ended dt (s.rx.without rest) m) ∧
      (known → k.frost.state = .drained → ∀ t, tempUsed c k = some t → c.threshold + 40 ≤ t →
        m.ev.reply = k.owing x b .accepted 0 ∧ m.frost.state = .closing ∧ m.frost.moveEnd = some (k.now + 8000) ∧
        (m.chan c.closeCoil).commanded = 100 ∧ m = { k with frost := m.frost, claims := m.claims, bank := m.bank, ev := m.ev }) ∧
      (known → k.frost.state = .drained → tempUsed c k = none ∨ (∃ t, tempUsed c k = some t ∧ t < c.threshold + 40) →
        m = answers .refusedInterlock) ∧
      (¬ known ∨ k.frost.state ≠ .drained → m = answers .refusedState))

/-! ## Heater (chapter 6) -/

/-- HEATER_MODE (R111, R112) heard at a node with the duty: the mode, the setpoint and the answer, and what the new
mode does in each heater state; a code above 3 is refused, and so is every mode in LOCKOUT. HEATER_RESET (R126)
heard at a node with the duty: it ends LOCKOUT or removes the lockout mark of a COOLDOWN, with mode OFF, no
attempts and no flame record; elsewhere it is refused. -/
def Obligations.HeaterCommands : Prop :=
  (∀ (s : State) (dt : Nat) (x : RxFrame) (rest : List RxFrame) (b : CommandBody) (k : Node) (c : HeaterCfg)
     (m0 lo hi : Byte),
     k = s.admitted dt x → Heard s dt 0x10 x rest b → k.has .heater = true → k.heaterCfg = some c → b.args = [m0, lo, hi] →
     let asked := signed 16 (lo.toNat + 256 * hi.toNat)
     let answers (r : Result) : Node := { k with ev := { k.ev with reply := k.owing x b r 0 } }
     ∃ m, exec (.heaterMode dt) s = .next (s.ended dt (s.rx.without rest) m) ∧
       (4 ≤ m0.toNat → m = answers .refusedRange) ∧
       ∀ mode, modeOfCode m0.toNat = some mode →
         (k.heater.state = .lockout → m = answers .refusedState) ∧
         (k.heater.state ≠ .lockout →
           m = { k with heater := m.heater, claims := m.claims, bank := m.bank, ev := m.ev } ∧
           m.heater.mode = mode ∧
           (mode = .heat → m.heater.setpoint =
             if asked < 50 then 50 else if 300 < asked then 300 else asked - asked % 5) ∧
           (mode ≠ .heat → m.heater.setpoint = k.heater.setpoint) ∧
           (mode = .off → m.heater.attempts = 0) ∧
           m.ev.reply = (if k.heater.state = .cooldown then k.owing x b .accepted 0
             else if mode = .heat ∧ m.heater.setpoint ≠ asked then k.owing x b .doneClamped m.heater.setpoint
             else k.owing x b .done 0) ∧
           m.heater.state = (match k.heater.state, mode with
             | .off, .off => .off
             | .off, _ => .standby
             | .standby, .off => .off
             | .standby, _ => .standby
             | .purge, .off => .off
             | .purge, .vent => .standby
             | .purge, _ => .purge
             | .glow, .off => .off
             | .glow, .vent => .standby
             | .glow, _ => .glow
             | .ignite, .off => .cooldown
             | .ignite, .vent => .cooldown
             | .ignite, _ => .ignite
             | .run, .off => .cooldown
             | .run, .vent => .cooldown
             | .run, _ => .run
             | .cooldown, _ => .cooldown
             | .venting, .off => .off
             | .venting, .vent => .venting
             | .venting, _ => .standby
             | .lockout, _ => .lockout) ∧
           (m.heater.state = .off → k.heater.state ≠ .off → (m.claim slotHeater).state = .idle))) ∧
  (∀ (s : State) (dt : Nat) (x : RxFrame) (rest : List RxFrame) (b : CommandBody) (k : Node),
     k = s.admitted dt x → Heard s dt 0x11 x rest b → k.has .heater = true → b.args = [] →
     let answers (r : Result) : Node := { k with ev := { k.ev with reply := k.owing x b r 0 } }
     let cleared : Heater := { k.heater with mode := .off, attempts := 0, flame := none, lockout := false }
     ∃ m, exec (.heaterReset dt) s = .next (s.ended dt (s.rx.without rest) m) ∧
       (k.heater.state = .lockout → m = { answers .done with heater := { cleared with state := .off } }) ∧
       (k.heater.state = .cooldown → k.heater.lockout = true → m = { answers .accepted with heater := cleared }) ∧
       (k.heater.state ≠ .lockout → k.heater.state ≠ .cooldown ∨ k.heater.lockout = false → m = answers .refusedState))

/-- The phases of a start (R115, R116): PURGE to GLOW, GLOW to IGNITE, and the ignition limit, which fails the
attempt. A glow output that is latched off fails it at the end of PURGE. The first failed attempt sets the
restart mark, the second the lockout mark. The fuel pump's pulses (R117): in IGNITE and RUN the k-th pulse of a
rate begins k times its period after the rate took effect, and lasts 50 ms. -/
def Obligations.HeaterStarts : Prop :=
  (∀ (s : State) (dt : Nat) (n : Node) (c : HeaterCfg) (d : Nat),
     n = s.found dt → n.up = true → n.heaterCfg = some c → n.heater.phaseEnd = some d → d ≤ n.now →
     let failed (m : Node) (r : StopReason) : Prop :=
       m.heater.state = .cooldown ∧ m.heater.attempts = n.heater.attempts + 1 ∧ m.heater.reason = r ∧
       m.heater.phaseEnd = some (n.now + 180000) ∧ m.heater.level = 0 ∧
       counter .ignitions m = min (counter .ignitions n + 1) 65535 ∧
       (n.heater.attempts = 0 → m.heater.restart = true ∧ m.heater.lockout = n.heater.lockout) ∧
       (1 ≤ n.heater.attempts → m.heater.lockout = true ∧ m.heater.restart = n.heater.restart) ∧
       m = { n with heater := m.heater, claims := m.claims, bank := m.bank, ev := m.ev
                    cmd := { n.cmd with counters := m.cmd.counters } } ∧
       (m.claim slotHeater).cls = 4 ∧ (c.fan ≠ c.glow → c.fan ≠ c.fuel → (m.chan c.fan).commanded = 100 ∧
         (m.chan c.glow).commanded = 0 ∧ (m.chan c.fuel).commanded = 0)
     (n.heater.state = .purge → ∃ m, exec (.purgeEnd dt) s = .next (s.ended dt s.rx m) ∧
       ((n.chan c.glow).protection ≠ .latchedOff →
         m = { n with bank := m.bank, heater := { n.heater with state := .glow, phaseEnd := some (n.now + 40000) } } ∧
         (m.chan c.glow).commanded = 100) ∧
       ((n.chan c.glow).protection = .latchedOff → failed m .channel)) ∧
     (n.heater.state = .glow → exec (.glowEnd dt) s = .next (s.ended dt s.rx { n with heater := { n.heater with
       state := .ignite, phaseEnd := some (n.now + 90000), baseline := n.validTemp c.exhaust
       rate := 16, rateStart := n.now, pulses := 0 } })) ∧
     (n.heater.state = .ignite → ∃ m, exec (.ignitionLimit dt) s = .next (s.ended dt s.rx m) ∧ failed m .noFlame)) ∧
  (∀ (s : State) (dt : Nat) (n : Node) (c : HeaterCfg), n = s.found dt → n.up = true → n.heaterCfg = some c →
     (n.heater.state = .ignite ∨ n.heater.state = .run → 0 < n.heater.rate →
       n.heater.rateStart + n.heater.pulses * 10000 / n.heater.rate ≤ n.now →
       ∃ m, exec (.fuelPulseStart dt) s = .next (s.ended dt s.rx m) ∧ (m.chan c.fuel).commanded = 100 ∧
         (∀ ch, ch ≠ c.fuel → m.chan ch = n.chan ch) ∧
         m = { n with bank := m.bank, heater := { n.heater with
           pulses := n.heater.pulses + 1, pulseEnd := some (n.now + 50) } }) ∧
     (∀ d, n.heater.pulseEnd = some d → d ≤ n.now →
       ∃ m, exec (.fuelPulseEnd dt) s = .next (s.ended dt s.rx m) ∧ (m.chan c.fuel).commanded = 0 ∧
         (∀ ch, ch ≠ c.fuel → m.chan ch = n.chan ch) ∧
         m = { n with bank := m.bank, heater := { n.heater with pulseEnd := none } }))

/-- LEVEL_HOLD_EXPIRY (R118 to R120): when the hold of 60 s ends, the thermostat moves the level towards the one the
error calls for: down at once, with the claim reduced, and up by a raise of the claim. -/
def Obligations.LevelHoldEnds : Prop :=
  ∀ (s : State) (dt : Nat) (n : Node) (c : HeaterCfg) (d : Nat),
    n = s.found dt → n.up = true → n.heaterCfg = some c → n.heater.state = .run → n.heater.holdEnd = some d →
    d ≤ n.now → n.heater.raise = none →
    let want := wantedLevel c n
    (cabinReading c n = none → want = 2) ∧
    (∀ t, cabinReading c n = some t → let e := effectiveSetpoint n.heater - t
      want = if 30 ≤ e then 4 else if 20 ≤ e then 3 else if 10 ≤ e then 2 else 1) ∧
    ∃ m, exec (.levelHoldExpiry dt) s = .next (s.ended dt s.rx m) ∧
      m = { n with heater := m.heater, claims := m.claims, bank := m.bank, ev := m.ev } ∧
      (want = n.heater.level → m = { n with heater := { n.heater with holdEnd := none } }) ∧
      (want < n.heater.level → m.heater.level = want ∧ m.heater.rate = levelRate want ∧
        m.heater.holdEnd = some (n.now + 60000) ∧ (m.chan c.fan).commanded = levelDuty c want ∧
        ((n.claim slotHeater).state = .holding → 0 < levelUnits c want →
          levelUnits c want < (n.claim slotHeater).wanted → levelUnits c want ≤ (n.claim slotHeater).held →
          (m.claim slotHeater).held = levelUnits c want)) ∧
      (n.heater.level < want → (n.claim slotHeater).held < levelUnits c want →
        m.heater.level = n.heater.level ∧ m.heater.raise = some want ∧ m.heater.holdEnd = some (n.now + 60000) ∧
        m.bank = n.bank ∧ ((n.claim slotHeater).state = .holding → (n.claim slotHeater).cls = 3 →
          (n.claim slotHeater).wanted < levelUnits c want → (m.claim slotHeater).state = .waiting ∧
          (m.claim slotHeater).wanted = levelUnits c want ∧ (m.claim slotHeater).held = (n.claim slotHeater).held ∧
          (m.claim slotHeater).deadline = some (n.now + 30000)))

/-- The stops of a run (R121, R123): satisfied for 300 s, or the flame lost for 10 s; each enters COOLDOWN. A flame
loss within 600 s of the one before it sets the lockout mark, any other the restart mark. COOLDOWN_LIMIT (R126):
after 180 s the cooldown ends, the fan off and the claim released; the lockout mark leads to LOCKOUT, the mode
OFF to OFF, any other mode to STANDBY. -/
def Obligations.HeaterStops : Prop :=
  (∀ (s : State) (dt : Nat) (n : Node) (c : HeaterCfg) (p : Nat),
     n = s.found dt → n.up = true → n.heaterCfg = some c → n.heater.state = .run →
     let cooling (m : Node) (r : StopReason) : Prop :=
       m.heater.state = .cooldown ∧ m.heater.reason = r ∧ m.heater.level = 0 ∧ m.heater.holdEnd = none ∧
       m.heater.raise = none ∧ m.heater.satisfied = none ∧ m.heater.loss = none ∧ m.heater.rate = 0 ∧
       m.heater.phaseEnd = some (n.now + 180000) ∧ (m.claim slotHeater).cls = 4 ∧
       (m.claim slotHeater).held = units c.cooldown ∧ m.heater.attempts = n.heater.attempts ∧ m.heater.mode = n.heater.mode ∧
       m = { n with heater := m.heater, claims := m.claims, bank := m.bank, ev := m.ev
                    cmd := { n.cmd with flags := m.cmd.flags } }
     (n.heater.satisfied = some p → p + 300000 ≤ n.now → (n.claim slotHeater).state ≠ .idle →
       ∃ m, exec (.satisfiedExpiry dt) s = .next (s.ended dt s.rx m) ∧ cooling m .satisfied ∧
         m.heater.flame = n.heater.flame ∧ m.heater.lockout = n.heater.lockout ∧ m.heater.restart = n.heater.restart) ∧
     (n.heater.loss = some p → p + 10000 ≤ n.now → (n.claim slotHeater).state ≠ .idle →
       ∃ m, exec (.flameLossExpiry dt) s = .next (s.ended dt s.rx m) ∧ cooling m .flameLost ∧
         m.heater.flame = some n.now ∧
         (∀ f, n.heater.flame = some f → n.now ≤ f + 600000 → m.heater.lockout = true ∧ hasFlag .flameLost m = true) ∧
         ((∀ f, n.heater.flame = some f → f + 600000 < n.now) →
           m.heater.restart = true ∧ m.heater.lockout = n.heater.lockout))) ∧
  (∀ (s : State) (dt : Nat) (n : Node) (c : HeaterCfg) (d : Nat),
     n = s.found dt → n.up = true → n.heaterCfg = some c → n.heater.state = .cooldown →
     n.heater.phaseEnd = some d → d ≤ n.now →
     ∃ m, exec (.cooldownLimit dt) s = .next (s.ended dt s.rx m) ∧
       m = { n with heater := m.heater, claims := m.claims, bank := m.bank, ev := m.ev
                    cmd := { n.cmd with flags := m.cmd.flags } } ∧
       (m.chan c.fan).commanded = 0 ∧ m.heater.level = 0 ∧ m.heater.mode = n.heater.mode ∧
       (n.heater.lockout = true → m.heater.state = .lockout ∧ m.heater.lockout = false ∧ m.heater.restart = false ∧
         hasFlag .heaterLockout m = true ∧ (m.claim slotHeater).state = .idle) ∧
       (n.heater.lockout = false → n.heater.mode = .off → m.heater.state = .off ∧ m.heater.restart = false ∧
         (m.claim slotHeater).state = .idle) ∧
       (n.heater.lockout = false → n.heater.mode ≠ .off → m.heater.state = .standby ∧ m.cmd = n.cmd))

/-! ## Motion and wind (chapter 7) -/

/-- The move commands (R136, R137) heard at a node with the duty of the unit: when they are refused, and what becomes of
the request list when they are accepted, whatever the list holds for the other unit. A new direction is decided at the
filing (R140) or the takeover (R142). The safety requests (R139): absorbed by one under way, taking over a command entry,
or driving an idle unit, with a class-4 claim, ahead of every command entry (R135); none at a unit in FAULT. The
interlocks (R147, R148): a waiting extend ends INTERLOCK, an active one is taken over, so that no extend of the unit stays
in the list. The awning before the step is log entry 42 (DESIGN CHOICE). A unit away from RETRACTED while the travel view
is true gets a safety RETRACT when it leaves RETRACTED by hand and at the first delivery of its stops (R133, R153). Two
places are the model's choice: a safety entry that takes over an ACTIVE command entry stands after the other unit's safety
entries, where R139 says at the front of the list (log entry 52, DESIGN CHOICE), and with both views true the awning's
entry carries TRAVEL (log entry 60, DESIGN CHOICE). That a travel view that turns true within a scan acts on the tanks at
that event is log entry 58 (DESIGN CHOICE). -/
def Obligations.MoveRequests : Prop :=
  (∀ (s : State) (dt : Nat) (x : RxFrame) (rest : List RxFrame) (b : CommandBody) (k : Node) (u : MotionUnit)
     (c : UnitCfg) (a : Action) (row : Instr),
     k = s.admitted dt x → Heard s dt (unitCode u) x rest b → k.has (unitDuty u) = true → k.unitCfg u = some c →
     motionLength b.args = true → actionOf u b.args = some a → moveRow dt u a = some row →
     let answers (r : Result) : Node := { k with ev := { k.ev with reply := k.owing x b r 0 } }
     let unable : Prop := k.isActive = false ∨ (k.unit u).state = .fault ∨ (needsPosition a = true ∧ (k.unit u).pos = none)
     let blocked : Prop := isExtend a = true ∧ (k.view.travel = true ∨ (u = .awning ∧ k.view.wind = true))
     let mine (st : EntryState) : Entry := ⟨u, a, .command x.source b.tag, st⟩
     let others (l : List Entry) : Prop := ∀ e ∈ l, e.unit ≠ u
     let files (m : Node) : Prop := (m.unit u).dir = actionDir a (k.unit u).pos ∧ (m.unit u).state = (k.unit u).state ∧
       (m.unit u).pos = (k.unit u).pos ∧ m.bank = k.bank
     ∃ m, exec row s = .next (s.ended dt (s.rx.without rest) m) ∧
       (unable → m = answers .refusedState) ∧
       (¬ unable → blocked → m = answers .refusedInterlock) ∧
       (¬ unable → ¬ blocked → m.ev.reply = k.owing x b .accepted 0 ∧
         m = { k with motion := m.motion, claims := m.claims, bank := m.bank, ev := m.ev } ∧
         (others k.motion.list → standsThere c a u k = true →
           m.motion.list = k.motion.list ∧ (m.unit u).outcome = .done ∧ (m.unit u).tag = b.tag ∧ m.claims = k.claims) ∧
         (others k.motion.list → standsThere c a u k = false →
           m.motion.list = k.motion.list ++ [mine .waitingEnergy] ∧ files m ∧
           ((k.claim (slotUnit u)).state = .idle → m.claim (slotUnit u) =
             { state := .waiting, cls := 2, wanted := unitUnits c, stamp := k.now, deadline := some (k.now + 10000) })) ∧
         ∀ front behind, others front → others behind →
           (∀ a' st tag, k.motion.list = front ++ ⟨u, a', .command st tag, .waitingEnergy⟩ :: behind →
             (standsThere c a u k = false → m.motion.list = front ++ mine .waitingEnergy :: behind ∧
               (m.unit u).outcome = .replaced ∧ (m.unit u).tag = tag ∧ files m ∧
               (m.claim (slotUnit u)).stamp = k.now ∧ (m.claim (slotUnit u)).held = 0) ∧
             (standsThere c a u k = true → m.motion.list = front ++ behind ∧ (m.unit u).outcome = .done ∧
               (m.unit u).tag = b.tag ∧ (m.claim (slotUnit u)).state = .idle)) ∧
           (∀ a' st tag, k.motion.list = front ++ ⟨u, a', .command st tag, .active⟩ :: behind →
             (needsPosition a = false →
               m.motion.list = front ++ mine .active :: behind ∧ (m.unit u).outcome = .replaced ∧ (m.unit u).tag = tag ∧
               m.claims = k.claims ∧
               (isDriving (k.unit u) = true → (k.bridge u).state = driveState (k.unit u).dir →
                 (actionDir a none = (k.unit u).dir → m.bank = k.bank ∧ (m.unit u).state = (k.unit u).state) ∧
                 (actionDir a none ≠ (k.unit u).dir → (m.bridge u).state = .coast ∧ (m.unit u).state = .reversing ∧
                   (m.unit u).dir = actionDir a none ∧ (m.unit u).dwellEnd = some (k.now + 500)))) ∧
             (∀ t q, a = .extendTo t → isDriving (k.unit u) = true → (k.bridge u).state = driveState (k.unit u).dir →
               estimate c (k.unit u) k.now = some q →
               (q = t → extStop c k = false → retStop c k = false → m.motion.list = front ++ behind ∧
                 (m.unit u).outcome = .done ∧ (m.unit u).tag = b.tag ∧ (m.unit u).state = .partway ∧
                 (m.unit u).pos = some t ∧ (m.bridge u).state = .brake ∧ (m.claim (slotUnit u)).state = .idle) ∧
               (q ≠ t → m.motion.list = front ++ mine .active :: behind ∧ (m.unit u).outcome = .replaced ∧
                 (m.unit u).tag = tag ∧ m.claims = k.claims ∧
                 (m.unit u).dir = (if t < q then .retract else .extend) ∧
                 ((m.unit u).dir = (k.unit u).dir → m.bank = k.bank ∧ (m.unit u).state = (k.unit u).state) ∧
                 ((m.unit u).dir ≠ (k.unit u).dir → (m.bridge u).state = .coast ∧ (m.unit u).state = .reversing ∧
                   (m.unit u).dwellEnd = some (k.now + 500))))) ∧
           (∀ o middle a' st tag, o = .travel ∨ o = .wind → others middle →
             k.motion.list = front ++ ⟨u, .retract, o, .active⟩ :: middle ++ ⟨u, a', .command st tag, .queued⟩ :: behind →
             m.motion.list = front ++ ⟨u, .retract, o, .active⟩ :: middle ++ mine .queued :: behind ∧
             (m.unit u).outcome = .replaced ∧ (m.unit u).tag = tag ∧ m.claims = k.claims ∧ m.bank = k.bank) ∧
           (∀ o, o = .travel ∨ o = .wind → k.motion.list = front ++ ⟨u, .retract, o, .active⟩ :: behind →
             m.motion = { k.motion with list := k.motion.list ++ [mine .queued] } ∧ m.claims = k.claims ∧
             m.bank = k.bank))) ∧
  (∀ (t : Nat) (p : Option Nat), actionDir .extend p = .extend ∧ actionDir .retract p = .retract ∧
     ∀ q, p = some q → actionDir (.extendTo t) p = if t < q then .retract else .extend) ∧
  (∀ (n : Node) (u : MotionUnit) (c : UnitCfg) (o : Origin) (front behind : List Entry),
     n.unitCfg u = some c → o = .travel ∨ o = .wind →
     (∀ e ∈ front, e.unit ≠ u) → (∀ e ∈ behind, e.unit ≠ u) →
     let safe : Entry := ⟨u, .retract, o, .active⟩
     let withdraws (m : Node) : Prop :=
       (∃ l r, front ++ behind = l ++ r ∧ m.motion.list = l ++ safe :: r ∧ (∀ e ∈ l, isCommand e = false) ∧
         ∀ e ∈ r.head?, isCommand e = true) ∧
       (m.unit u).dir = .retract ∧ (m.claim (slotUnit u)).state = .holding ∧ (m.claim (slotUnit u)).cls = 4 ∧
       (m.claim (slotUnit u)).held = unitUnits c
     let m := safetyRequest u o n
     ((n.unit u).state = .fault → n.motion.list = front ++ behind →
       (u = .awning → m = n) ∧
       (u = .step → hasFlag .stepNotStowed m = true ∧ m = { n with cmd := { n.cmd with flags := m.cmd.flags } }) ∧
       interlockUnit o u n = (if stopsKnown c n = true then m else n)) ∧
     ((n.unit u).state ≠ .fault →
       (∀ o', o' = .travel ∨ o' = .wind → n.motion.list = front ++ ⟨u, .retract, o', .active⟩ :: behind → m = n) ∧
       (n.motion.list = front ++ behind → retStop c n = false → (n.claim (slotUnit u)).state = .idle →
         withdraws m ∧ isMoving (m.unit u) = true) ∧
       (∀ a st tag, n.motion.list = front ++ ⟨u, a, .command st tag, .waitingEnergy⟩ :: behind →
         withdraws m ∧ isMoving (m.unit u) = true ∧ (m.unit u).outcome = .replaced ∧ (m.unit u).tag = tag) ∧
       (∀ a st tag, n.motion.list = front ++ ⟨u, a, .command st tag, .active⟩ :: behind →
         withdraws m ∧ (m.unit u).outcome = .replaced ∧ (m.unit u).tag = tag ∧
         (isMoving (n.unit u) = true → isMoving (m.unit u) = true) ∧
         (isDriving (n.unit u) = true → (n.bridge u).state = driveState (n.unit u).dir →
           ((n.unit u).dir = .retract → m.bank = n.bank ∧ (m.unit u).state = (n.unit u).state) ∧
           ((n.unit u).dir = .extend → (m.bridge u).state = .coast ∧ (m.unit u).state = .reversing ∧
             (m.unit u).dwellEnd = some (n.now + 500))) ∧
         ((n.unit u).state ≠ .retracted → stopsKnown c n = true → interlockUnit o u n = m)) ∧
       (∀ a st tag w, w = .queued ∨ w = .waitingEnergy → isExtend a = true →
         n.motion.list = front ++ ⟨u, a, .command st tag, w⟩ :: behind →
         (w = .queued → (n.claim (slotUnit u)).state = .idle) →
         let i := interlockUnit o u n
         (i.unit u).outcome = .interlock ∧ (i.unit u).tag = tag ∧
         ((n.unit u).state = .retracted ∨ stopsKnown c n = false →
           i.motion.list = front ++ behind ∧ (i.claim (slotUnit u)).state = .idle ∧ i.bank = n.bank ∧
           (i.unit u).state = (n.unit u).state) ∧
         ((n.unit u).state ≠ .retracted → stopsKnown c n = true → retStop c n = false →
           withdraws i ∧ isMoving (i.unit u) = true)) ∧
       (n.motion.list = front ++ behind → o = .travel → n.view.travel = true → stopsKnown c n = true →
         extStop c n = false → retStop c n = false → (n.claim (slotUnit u)).state = .idle →
         ((n.unit u).state = .retracted → ∀ first, withdraws (endStopChange u first n)) ∧
         ((n.unit u).state = .unknown ∨ (n.unit u).state = .partway → withdraws (endStopChange u true n))))) ∧
  ∀ n : Node,
    (n.view.travel = false → n.ownTravel = true ∨ (∃ p ∈ n.view.peers, p.travel = true) → refreshTravel n =
      interlockUnit .travel .step (interlockUnit .travel .awning
        (tanksTravel true { n with view := { n.view with travel := true } }))) ∧
    (n.view.wind = false → n.ownWind = true ∨ (∃ p ∈ n.view.peers, p.wind = true) → refreshWind n =
      interlockUnit .wind .awning { n with view := { n.view with wind := true } }) ∧
    (n.view.travel = true → n.ownTravel = false → (∀ p ∈ n.view.peers, p.travel = false) → refreshTravel n =
      tanksTravel false { n with view := { n.view with travel := false } }) ∧
    (n.view.wind = true → n.ownWind = false → (∀ p ∈ n.view.peers, p.wind = false) → refreshWind n =
      { n with view := { n.view with wind := false } })

/-- AWNING_STOP and STEP_STOP (R136, R138) heard at a node with the duty, whatever the list holds for the other unit: a
move under way is braked and its entry ends STOPPED; a waiting entry ends STOPPED with its claim released; a safety move
refuses the STOP, with the command entry behind it left as it is; a FAULT is cleared, the unit takes its state from its
end stops, and gets a safety RETRACT when a view asks for one; with nothing to stop it is DONE. That this RETRACT carries
TRAVEL when both views ask for it is the model's choice (log entry 60, DESIGN CHOICE). -/
def Obligations.StopRequests : Prop :=
  ∀ (s : State) (dt : Nat) (x : RxFrame) (rest : List RxFrame) (b : CommandBody) (k : Node) (u : MotionUnit)
    (c : UnitCfg) (front behind : List Entry),
    k = s.admitted dt x → Heard s dt (unitCode u) x rest b → k.has (unitDuty u) = true → k.unitCfg u = some c →
    b.args = [3] → (∀ e ∈ front, e.unit ≠ u) → (∀ e ∈ behind, e.unit ≠ u) →
    let answers (r : Result) : Node := { k with ev := { k.ev with reply := k.owing x b r 0 } }
    ∃ m, exec (stopRow dt u) s = .next (s.ended dt (s.rx.without rest) m) ∧
      (∀ a st tag, k.motion.list = front ++ ⟨u, a, .command st tag, .active⟩ :: behind → (k.bridge u).state ≠ .fault →
        m.ev.reply = k.owing x b .done 0 ∧ (m.bridge u).state = .brake ∧ m.motion.list = front ++ behind ∧
        (m.claim (slotUnit u)).state = .idle ∧ (m.unit u).outcome = .stopped ∧ (m.unit u).tag = tag ∧
        (m.unit u).run = none ∧ (m.unit u).jam = none ∧
        m = { k with motion := m.motion, claims := m.claims, bank := m.bank, ev := m.ev } ∧
        (extStop c k = false → retStop c k = false → (m.unit u).pos = estimate c (k.unit u) k.now ∧
          (m.unit u).state = if (estimate c (k.unit u) k.now).isSome then .partway else .unknown) ∧
        (extStop c k = false → retStop c k = true → (m.unit u).state = .retracted ∧ (m.unit u).pos = some 0) ∧
        (extStop c k = true → retStop c k = false → (m.unit u).state = .extended ∧ (m.unit u).pos = some 1000)) ∧
      (∀ a st tag, k.motion.list = front ++ ⟨u, a, .command st tag, .waitingEnergy⟩ :: behind →
        m.ev.reply = k.owing x b .done 0 ∧ m.motion.list = front ++ behind ∧ (m.claim (slotUnit u)).state = .idle ∧
        (m.unit u).outcome = .stopped ∧ (m.unit u).tag = tag ∧ (m.unit u).state = (k.unit u).state ∧
        m = { k with motion := m.motion, claims := m.claims, ev := m.ev }) ∧
      (∀ a o, o = .travel ∨ o = .wind → ⟨u, a, o, .active⟩ ∈ k.motion.list →
        (∀ e ∈ k.motion.list, e.unit = u → isCommand e = true → e.state = .queued) → m = answers .refusedInterlock) ∧
      (k.motion.list = front ++ behind → (k.unit u).state ≠ .fault → m = answers .done) ∧
      (k.motion.list = front ++ behind → (k.unit u).state = .fault →
        let rests : Prop :=
          m = { k with motion := m.motion, ev := m.ev } ∧ m.motion.list = k.motion.list ∧ (m.unit u).run = none ∧
          (extStop c k = true → retStop c k = true →
            (m.unit u).state = .fault ∧ (m.unit u).cause = .endStopConflict ∧ (m.unit u).pos = (k.unit u).pos) ∧
          (¬ (extStop c k = true ∧ retStop c k = true) → (m.unit u).cause = .none ∧
            (m.unit u).state = (if extStop c k then .extended else if retStop c k then .retracted
              else if (k.unit u).pos.isSome then .partway else .unknown) ∧
            (m.unit u).pos = (if extStop c k then some 1000 else if retStop c k then some 0 else (k.unit u).pos))
        let withdraws (o : Origin) : Prop :=
          (∃ l r, front ++ behind = l ++ r ∧ m.motion.list = l ++ ⟨u, .retract, o, .active⟩ :: r) ∧
          (m.unit u).dir = .retract ∧ isMoving (m.unit u) = true ∧ (m.claim (slotUnit u)).cls = 4 ∧
          (m.claim (slotUnit u)).held = unitUnits c ∧ (m.bridge u).state ≠ .fault
        m.ev.reply = k.owing x b .done 0 ∧
        ((extStop c k = true ∧ retStop c k = true) ∨ retStop c k = true ∨
          (k.view.travel = false ∧ (u = .step ∨ k.view.wind = false)) → rests) ∧
        (retStop c k = false → (k.claim (slotUnit u)).state = .idle →
          (k.view.travel = true → withdraws .travel) ∧
          (k.view.travel = false → u = .awning → k.view.wind = true → withdraws .wind)))

/-- The moments of a move (R141, R143, R144): the end of the coast dwell starts the drive, a target ends the move
with BRAKE, a jam of 300 ms and the timeout of half again the travel time fault the unit and end every entry of
it. The bridges (R144, R179, R180): a current reading, every 10 ms while the bridge drives, runs the jam clock of a
driven unit; above 30 A the bridge is in BRIDGE_FAULT whatever it did, any pending drive is dropped, and a move under way
ends in FAULT; a pending drive begins when the bridge has stood 500 ms in COAST. That the first reading comes 10 ms after
the drive began is log entry 41, and that a unit at rest keeps its state at the bridge's fault log entry 31 (both the
model's choice). -/
def Obligations.MotionEvents : Prop :=
  (∀ (s : State) (dt : Nat) (n : Node) (u : MotionUnit) (c : UnitCfg) (p : Nat),
     n = s.found dt → n.up = true → n.unitCfg u = some c →
     let faulted (m : Node) (cause : FaultCause) : Prop :=
       (m.unit u).state = .fault ∧ (m.unit u).cause = cause ∧ (m.unit u).pos = estimate c (n.unit u) n.now ∧
       (m.unit u).run = none ∧ (m.unit u).jam = none ∧ (m.claim (slotUnit u)).state = .idle ∧
       (∀ e ∈ m.motion.list, e.unit ≠ u) ∧ (∀ e ∈ n.motion.list, e.unit ≠ u → e ∈ m.motion.list) ∧
       ((n.bridge u).state ≠ .fault → (m.bridge u).state = .coast) ∧
       m = { n with motion := m.motion, claims := m.claims, bank := m.bank, ev := m.ev, cmd := m.cmd }
     ((n.unit u).state = .reversing → (n.unit u).dwellEnd = some p → p ≤ n.now →
       ∃ m, exec (.dwellEnd dt u) s = .next (s.ended dt s.rx m) ∧
         m = { n with motion := m.motion, bank := m.bank } ∧ m.motion.list = n.motion.list ∧
         (m.unit u).state = (if (n.unit u).dir = .extend then .extending else .retracting) ∧
         (m.unit u).run = some n.now ∧ (m.unit u).segStart = n.now ∧ (m.unit u).segPos = (n.unit u).pos ∧
         (∀ t, (n.bridge u).state = .coast → (n.bridge u).coastSince = some t → t + 500 ≤ n.now →
           (m.bridge u).state = driveState (n.unit u).dir ∧ (m.bridge u).last = some (n.unit u).dir)) ∧
     (∀ t q st tag, n.motion.list = [⟨u, .extendTo t, .command st tag, .active⟩] → 1 ≤ t → t ≤ 999 →
       isDriving (n.unit u) = true → estimate c (n.unit u) n.now = some q →
       ((n.unit u).dir = .extend → t ≤ q) → ((n.unit u).dir = .retract → q ≤ t) → (n.bridge u).state ≠ .fault →
       ∃ m, exec (.targetReached dt u) s = .next (s.ended dt s.rx m) ∧ (m.bridge u).state = .brake ∧
         (m.unit u).state = .partway ∧ (m.unit u).pos = some t ∧ (m.unit u).outcome = .done ∧ (m.unit u).tag = tag ∧
         (m.claim (slotUnit u)).state = .idle ∧ m.motion.list = [] ∧
         m = { n with motion := m.motion, claims := m.claims, bank := m.bank, ev := m.ev }) ∧
     (isDriving (n.unit u) = true → (n.unit u).jam = some p → p + 300 ≤ n.now →
       ∃ m, exec (.jam dt u) s = .next (s.ended dt s.rx m) ∧ faulted m .jam ∧ hasFlag .motionJam m = true ∧
         counter .jams m = min (counter .jams n + 1) 65535) ∧
     (isDriving (n.unit u) = true → (n.unit u).run = some p → p + c.travel * 3 / 2 ≤ n.now →
       ∃ m, exec (.motionTimeout dt u) s = .next (s.ended dt s.rx m) ∧ faulted m .timeout ∧
         hasFlag .motionTimeout m = true ∧ counter .jams m = counter .jams n)) ∧
  (∀ (s : State) (dt : Nat) (n : Node) (u : MotionUnit) (mA : Nat), n = s.found dt → n.up = true →
     (∀ c d, n.unitCfg u = some c → (n.bridge u).state = .forward ∨ (n.bridge u).state = .reverse →
       (n.bridge u).due = some d →
       (d ≤ n.now → exec (.bridgeCurrentReading dt u mA) s = .next (s.ended dt s.rx
         ((n.setBridge u { n.bridge u with due := some (d + 10) }).setUnit u { n.unit u with
           jam := if c.jam < mA ∧ isDriving (n.unit u) = true then some ((n.unit u).jam.getD n.now) else none }))) ∧
       (n.now < d → exec (.bridgeCurrentReading dt u mA) s = .next { s with node := advance dt s.node })) ∧
     (∀ c, n.unitCfg u = some c → (n.bridge u).state ≠ .fault → 30000 < mA →
       ∃ m, exec (.bridgeOvercurrent dt u mA) s = .next (s.ended dt s.rx m) ∧
         m.bridge u = { state := .fault, last := (n.bridge u).last, coastSince := some n.now } ∧
         hasFlag .bridgeFault m = true ∧
         m = { n with motion := m.motion, claims := m.claims, bank := m.bank, ev := m.ev, cmd := m.cmd } ∧
         (isMoving (n.unit u) = true ∨ (n.bridge u).state = .forward ∨ (n.bridge u).state = .reverse →
           (m.unit u).state = .fault ∧ (m.unit u).cause = .jam ∧ (m.claim (slotUnit u)).state = .idle ∧
           (∀ e ∈ m.motion.list, e.unit ≠ u) ∧ hasFlag .motionJam m = true ∧
           counter .jams m = min (counter .jams n + 1) 65535) ∧
         (isMoving (n.unit u) = false → (n.bridge u).state = .brake ∨ (n.bridge u).state = .coast →
           m.motion = n.motion ∧ m.claims = n.claims ∧ counter .jams m = counter .jams n) ∧
         (∀ a st tag, isMoving (n.unit u) = true → n.motion.list = [⟨u, a, .command st tag, .active⟩] →
           (m.unit u).outcome = .bridgeFault ∧ (m.unit u).tag = tag)) ∧
     (∀ d t, (n.bridge u).state = .coast → (n.bridge u).pending = some d → (n.bridge u).coastSince = some t →
       t + 500 ≤ n.now → exec (.bridgeDwellComplete dt u) s = .next (s.ended dt s.rx (n.setBridge u
         { state := driveState d, last := some d, coastSince := none, pending := none, due := some (n.now + 10) }))))

/-- The wind (R149, R150, R172): a quarter-second count is handed over and a new one starts; an evaluation takes the
speed from the last eight counts, and thirteen in a row at the limit or above begin a lockout of 600 s; its end is the
end of the node's own flag. -/
def Obligations.WindRows : Prop :=
  ∀ (s : State) (dt : Nat) (n : Node) (c : WindCfg) (d : Nat),
    n = s.found dt → n.up = true → n.windCfg = some c → d ≤ n.now →
    (n.role c.channel = .pulse → (n.chan c.channel).due = some d →
      ∃ m, exec (.pulseCountPeriod dt c.channel) s = .next (s.ended dt s.rx m) ∧
        m = { n with bank := m.bank, wind := m.wind } ∧
        m.chan c.channel = { n.chan c.channel with count := 0, due := some (d + 250) } ∧
        (∀ ch, ch ≠ c.channel → m.chan ch = n.chan ch) ∧
        (n.wind.counts.length ≤ 7 → m.wind = { n.wind with counts := n.wind.counts ++ [(n.chan c.channel).count] }) ∧
        (n.wind.counts.length = 8 →
          m.wind = { n.wind with counts := n.wind.counts.drop 1 ++ [(n.chan c.channel).count] })) ∧
    (∀ ch, ch ≠ c.channel → n.role ch = .pulse → (n.chan ch).due = some d →
      exec (.pulseCountPeriod dt ch) s =
        .next (s.ended dt s.rx (n.setChan ch { n.chan ch with count := 0, due := some (d + 250) }))) ∧
    (n.wind.due = some d → n.has .wind = true →
      let speed := min (n.wind.counts.sum * c.factor / 20) 65535
      let gust := if c.limit ≤ speed then n.wind.gust + 1 else 0
      ∃ m, exec (.windEvaluation dt) s = .next (s.ended dt s.rx m) ∧
        m.wind = { counts := n.wind.counts, speed := speed, gust := gust, due := some (d + 250)
                   lockoutEnd := if 13 ≤ gust then some (n.now + 600000) else n.wind.lockoutEnd } ∧
        m.view.wind = (m.wind.lockoutEnd.isSome || n.view.peers.any (·.wind)) ∧
        m.view.peers = n.view.peers ∧ m.tx = n.tx ∧ m.battery = n.battery ∧
        (gust < 13 → n.view.wind = (n.wind.lockoutEnd.isSome || n.view.peers.any (·.wind)) →
          m = { n with wind := m.wind })) ∧
    (n.wind.lockoutEnd = some d → ∃ m, exec (.windLockoutEnd dt) s = .next (s.ended dt s.rx m) ∧
      m.wind = { n.wind with lockoutEnd := none } ∧ m.view.wind = n.view.peers.any (·.wind) ∧
      (n.view.wind = true → m = { n with wind := m.wind, view := { n.view with wind := m.view.wind } }))

/-! ## Lights (chapter 8) -/

/-- LIGHT_LEVEL, SCENE and LIGHTS_ALL_OFF (R160) heard at a node with the duty: each names channels and gives them a
target; a target above 0 is also the last one, and a command ends a ramp under way. -/
def Obligations.LightCommands : Prop :=
  ∀ (s : State) (dt : Nat) (x : RxFrame) (rest : List RxFrame) (b : CommandBody) (k : Node),
    k = s.admitted dt x → k.has .lights = true →
    let answers (r : Result) : Node := { k with ev := { k.ev with reply := k.owing x b r 0 } }
    let aimed (l : Light) (t : Nat) : Light := { l with
      target := t, last := if 0 < t then some t else l.last
      press := if l.press = .ramping then .spent else l.press
      rampUp := if l.press = .ramping then !l.rampUp else l.rampUp }
    (∀ mask level : Byte, Heard s dt 0x01 x rest b → b.args = [mask, level] →
      ∃ m, exec (.lightLevel dt) s = .next (s.ended dt (s.rx.without rest) m) ∧
        ((∀ i, i < k.lamps.length → mask.toNat.testBit i = false) → m = answers .refusedRange) ∧
        ((∃ i, i < k.lamps.length ∧ mask.toNat.testBit i = true) →
          m.ev.reply = (if 100 < level.toNat then k.owing x b .doneClamped 100 else k.owing x b .done 0) ∧
          m = { k with lights := { k.lights with channels := m.lights.channels }, ev := m.ev } ∧
          ∀ (i : Nat) (c : LightCfg) (l : Light), k.lamps[i]? = some (c, l) → m.lights.channels[i]? =
            some (if mask.toNat.testBit i then aimed l (min level.toNat 100) else l))) ∧
    (∀ scene : Byte, Heard s dt 0x02 x rest b → b.args = [scene] →
      ∃ m, exec (.scene dt) s = .next (s.ended dt (s.rx.without rest) m) ∧
        (scene.toNat = 0 ∨ 6 < scene.toNat → m = answers .refusedRange) ∧
        (1 ≤ scene.toNat → scene.toNat ≤ 6 → m.ev.reply = k.owing x b .done 0 ∧
          m = { k with lights := { k.lights with channels := m.lights.channels }, ev := m.ev } ∧
          ∀ (i : Nat) (c : LightCfg) (l : Light), k.lamps[i]? = some (c, l) → ∀ t, c.scenes[scene.toNat - 1]? = some t →
            m.lights.channels[i]? = some (aimed l t))) ∧
    (Heard s dt 0x03 x rest b → b.args = [] →
      ∃ m, exec (.lightsAllOff dt) s = .next (s.ended dt (s.rx.without rest) m) ∧
        m.ev.reply = k.owing x b .done 0 ∧
        m = { k with lights := { k.lights with channels := m.lights.channels }, ev := m.ev } ∧
        ∀ (i : Nat) (c : LightCfg) (l : Light), k.lamps[i]? = some (c, l) → m.lights.channels[i]? = some (aimed l 0))

/-- The lights' clocks (R159, R162, R163): one step of a fade, the beginning of a long press's ramp, and the end of the
courtesy hold. And the lights as every event leaves them: each channel's aim with CAPPED and SHED (R155, R164, R165), a
shed channel dark; the claim of each class at the draw of the larger of level and aim (R156); the budget of the held
amount shared in channel order, with DEGRADED (R157, R158); and a fade begun at a new goal (R159). That the present
draw of the later rising channels is set aside before a channel's share, so that a class within its held amount stays
within it (R50, R158), where R157's charges so far name the earlier channels alone, is the model's choice (log entry 57,
DESIGN CHOICE). -/
def Obligations.LightClocks : Prop :=
  (∀ (s : State) (dt : Nat) (n : Node), n = s.found dt → n.up = true →
    (∀ (i : Fin 8) (c : LightCfg) (l : Light), n.lamps[i.val]? = some (c, l) → l.level ≠ l.goal →
      l.fadeStart + (l.fadeSteps + 1) * 1000 / c.fade ≤ n.now →
      let level := if l.level < l.goal then l.level + 1 else l.level - 1
      ∃ m, exec (.fadeStep dt i) s = .next (s.ended dt s.rx m) ∧
        m = { n with bank := m.bank, lights := { n.lights with channels := m.lights.channels }
                     ev := { n.ev with lights := n.ev.lights || level == l.goal } } ∧
        m.lights.channels[i.val]? = some { l with level := level, fadeSteps := l.fadeSteps + 1 } ∧
        (m.chan c.output).commanded = level ∧ (∀ ch, ch ≠ c.output → m.chan ch = n.chan ch) ∧
        ∀ (j : Nat) (c' : LightCfg) (l' : Light), j ≠ i.val → n.lamps[j]? = some (c', l') → m.lights.channels[j]? = some l') ∧
    (∀ (i : Fin 8) (c : LightCfg) (l : Light) (since : Nat), n.lamps[i.val]? = some (c, l) → l.press = .down since →
      since + 500 ≤ n.now →
      ∃ m, exec (.longPress dt i) s = .next (s.ended dt s.rx m) ∧
        m = { n with lights := { n.lights with channels := m.lights.channels } } ∧
        m.lights.channels[i.val]? = some { l with
          press := .ramping, prePress := l.target, target := if l.rampUp then 100 else 0 } ∧
        ∀ (j : Nat) (c' : LightCfg) (l' : Light), j ≠ i.val → n.lamps[j]? = some (c', l') → m.lights.channels[j]? = some l') ∧
    (∀ t, n.lights.courtesy = .hold t → t ≤ n.now → exec (.courtesyHoldExpiry dt) s =
      .next (s.ended dt s.rx { n with lights := { n.lights with courtesy := .off } }))) ∧
  ∀ (s : State) (dt : Nat) (rx : Receiver) (m : Node) (set : LightsCfg),
    m.ev.restart = false → m.ev.reset = false → m.cmd.restart = none → m.lightsCfg = some set →
    let t := (s.ended dt rx m).node
    (∀ (i : Nat) (c : LightCfg) (l : Light), t.lamps[i]? = some (c, l) →
      let lit := if c.courtesy = true ∧ t.lights.courtesy ≠ .off then max l.target set.courtesyLevel else l.target
      let capped : Prop := c.main = true ∧ t.view.band = some 1 ∧ set.cap < lit
      let shed : Prop := if c.main then 2 ≤ t.view.shed else 1 ≤ t.view.shed
      (l.capped = true ↔ capped) ∧ (l.shed = true ↔ shed) ∧ (shed ∨ l.heldOff = true → l.aim = 0) ∧
      (¬ shed → l.heldOff = false → (capped → l.aim = set.cap) ∧ (¬ capped → l.aim = lit)) ∧
      (shed → l.level = 0) ∧ (l.degraded = true ↔ l.goal < l.aim ∨ l.heldOff = true) ∧
      ∀ l' : Light, m.lamps[i]? = some (c, l') →
        l.target = l'.target ∧ l.last = l'.last ∧ l.press = l'.press ∧ l.heldOff = l'.heldOff ∧
        (¬ shed → l.level = l'.level) ∧ (shed → 0 < l'.level → (t.chan c.output).commanded = 0) ∧
        (l.goal = l'.goal → l.fadeStart = l'.fadeStart ∧ l.fadeSteps = l'.fadeSteps) ∧
        (l.goal ≠ l'.goal → l.level ≠ l.goal → l.fadeStart = m.now ∧ l.fadeSteps = 0)) ∧
    ∀ main : Bool,
      let draw (f : Light → Nat) : Nat :=
        (t.lamps.map fun x => if x.1.main = main then f x.2 * x.1.current else 0).sum
      let want := (draw (fun l => max l.level l.aim) + 9999) / 10000
      let claim := t.claim (if main then 1 else 0)
      ((claim.state = .idle ∧ (want = 0 ∨ m.isActive = false)) ∨
        (claim.state ≠ .idle ∧ 0 < want ∧ claim.wanted = want ∧
          ((m.claim (if main then 1 else 0)).state = .idle →
            claim.cls = (if main then 1 else 0) ∧ claim.degradable = true ∧ claim.deadline = none))) ∧
      (draw (·.level) ≤ claim.held * 10000 → draw (fun l => max l.level l.limit) ≤ claim.held * 10000) ∧
      ((∀ x ∈ t.lamps, 0 < x.1.current) →
        ∀ (i : Nat) (c : LightCfg) (l : Light), t.lamps[i]? = some (c, l) → c.main = main →
        let used := draw (fun l => if l.aim ≤ l.level then l.level else 0) +
          ((t.lamps.take i).map fun x =>
            if x.1.main = main ∧ x.2.level < x.2.aim then x.2.limit * x.1.current else 0).sum +
          ((t.lamps.drop (i + 1)).map fun x =>
            if x.1.main = main ∧ x.2.level < x.2.aim then x.2.level * x.1.current else 0).sum
        (l.aim ≤ l.level → l.limit = l.level ∧ l.goal = l.aim) ∧
        (l.level < l.aim → l.goal = l.limit ∧ l.level ≤ l.limit ∧ l.limit ≤ l.aim ∧
          (l.level < l.limit → used + l.limit * c.current ≤ claim.held * 10000) ∧
          ∀ k, l.level ≤ k → k ≤ l.aim → used + k * c.current ≤ claim.held * 10000 → k ≤ l.limit))

/-! ## Channel bank (chapter 9) -/

/-- The inputs (R171, R172): a new pin level (an open pin without a pull device reads as a free value, log entry 5), an
accepted state and its delivery to the owner: the pump (R89), the frost monitor (R104), a motion unit (at rest R133, in a
move R143; what the first delivery of a stop does beside, R153, is in MoveRequests), the lights
(R161, R162), the own travel flag (R44); a pulse, a conversion. That a wall switch whose first accepted state is active
begins a press at that delivery is the model's choice (log entry 48, DESIGN CHOICE). -/
def Obligations.InputRows : Prop :=
  ∀ (s : State) (dt : Nat) (n : Node) (ch : Fin 16), n = s.found dt → n.up = true →
    let cfg := n.chanCfg ch
    let old := n.chan ch
    let taken : Node := n.setChan ch { old with filter := none, accepted := some old.instant }
    (∀ level, n.role ch = .inp ∨ n.role ch = .pulse → level ≠ .floating ∨ cfg.pull ≠ .none →
      let reads := xor (level == .high || (level == .floating && cfg.pull == .up)) cfg.activeLow
      (reads = old.instant → exec (.inputChange dt ch level) s = .next (s.ended dt s.rx n)) ∧
      (reads ≠ old.instant → exec (.inputChange dt ch level) s = .next (s.ended dt s.rx (n.setChan ch { old with
        instant := reads, filter := if n.role ch = .inp then some n.now else old.filter })))) ∧
    (n.role ch = .inp ∨ n.role ch = .pulse → cfg.pull = .none →
      let k : Node := { n with free := n.free + 1 }
      ∃ reads : Bool,
        (reads = old.instant → exec (.inputChange dt ch .floating) s = .next (s.ended dt s.rx k)) ∧
        (reads ≠ old.instant → exec (.inputChange dt ch .floating) s = .next (s.ended dt s.rx (k.setChan ch { old with
          instant := reads, filter := if n.role ch = .inp then some n.now else old.filter })))) ∧
    (∀ f, n.role ch = .inp → old.filter = some f → f + cfg.time ≤ n.now →
      ∃ m, exec (.inputAccepted dt ch) s = .next (s.ended dt s.rx m) ∧
        (m.chan ch).accepted = some old.instant ∧ (m.chan ch).filter = none ∧
        m.now = n.now ∧ m.cfg = n.cfg ∧ m.state = n.state ∧ m.tx = n.tx ∧ m.pub = n.pub ∧ m.battery = n.battery ∧
        m.wind = n.wind ∧ m.heater = n.heater ∧ m.bank.temps = n.bank.temps ∧ m.bank.aux = n.bank.aux ∧
        (old.accepted = some old.instant ∨ n.owner ch = none ∨ n.owner ch = some .aux → m = taken) ∧
        (∀ c, n.owner ch = some .pump → n.pumpCfg = some c → c.switch = ch → old.accepted ≠ some old.instant →
          pumpInhibit c n = none →
          (old.instant = true → n.pump.state = .idle → n.pump.modeOn = true → n.isActive = true →
            (n.claim slotPump).state = .idle → m.pump.state = .waiting ∧ (m.claim slotPump).state = .waiting) ∧
          (old.instant = false → n.pump.state = .running → m.pump.state = .idle ∧ (m.claim slotPump).state = .idle ∧
            (m.chan c.output).commanded = 0)) ∧
        (∀ c, n.owner ch = some .frost → n.frostCfg = some c → c.contact = ch → old.accepted = some true →
          old.instant = false → n.frost.state = .armed ∨ n.frost.state = .countdown ∨ n.frost.state = .disarmed →
          m = { taken with frost := { n.frost with state := .drained, countdown := none, moveEnd := none } }) ∧
        (∀ u c, n.owner ch = some (unitDuty u) → n.unitCfg u = some c → c.ext = ch ∨ c.ret = ch →
          old.accepted ≠ some old.instant → m = endStopChange u old.accepted.isNone taken ∧
          (stopsKnown c taken = true → isMoving (n.unit u) = false → (n.unit u).state ≠ .fault →
            interlocked u n = false →
            (((m.unit u).state, (m.unit u).pos) = match extStop c taken, retStop c taken with
              | false, true => (.retracted, some 0)
              | true, false => (.extended, some 1000)
              | true, true => (.fault, (m.unit u).pos)
              | false, false =>
                if (n.unit u).state = .retracted ∨ (n.unit u).state = .extended then (.partway, none)
                else ((n.unit u).state, (n.unit u).pos)) ∧
            (extStop c taken = true → retStop c taken = true → (m.unit u).cause = .endStopConflict))) ∧
        (∀ u c a st tag, n.owner ch = some (unitDuty u) → n.unitCfg u = some c → c.ext = ch → c.ret ≠ ch →
          old.instant = true → old.accepted = some false → retStop c n = false → (n.unit u).state = .extending →
          (n.unit u).dir = .extend → n.motion.list = [⟨u, a, .command st tag, .active⟩] → (n.bridge u).state ≠ .fault →
          (m.unit u).state = .extended ∧ (m.unit u).pos = some 1000 ∧ (m.unit u).outcome = .done ∧
            (m.unit u).tag = tag ∧ (m.bridge u).state = .coast ∧ m.motion.list = [] ∧
            (m.claim (slotUnit u)).state = .idle) ∧
        (∀ (i : Nat) (c : LightCfg) (l : Light), n.owner ch = some .lights → n.lamps[i]? = some (c, l) →
          c.switch = some ch → old.instant = true → old.accepted ≠ some true →
          m.lights.channels[i]? = some { l with press := .down n.now }) ∧
        (n.owner ch = some .travel → n.has .travel = true → n.cfg.bind (·.travel) = some ch →
          old.accepted ≠ some old.instant → m.view.travel = (old.instant || n.view.peers.any (·.travel)))) ∧
    (∀ us, n.role ch = .pulse → exec (.pulseCounted dt ch us) s = .next (s.ended dt s.rx (n.setChan ch { old with
      instant := false, count := if 1000 ≤ us then old.count + 1 else old.count }))) ∧
    (∀ (d : Nat) (value : Int), n.role ch = .ain → old.due = some d → d ≤ n.now →
      exec (.ainConversion dt ch value) s = .next (s.ended dt s.rx (n.setChan ch { old with
        reading := some (min value.toNat (if cfg.volt then 5000 else 1000)), due := some (d + 100) })))

/-- TEMP_READING (R181; the element's characteristic is the operand, log entry 7), and what the readings do to the heater:
those of the exhaust (R115, R123, R124, R126, R131), and those of the cabin in STANDBY, where a start or a vent is
evaluated (R113, R128), and in RUN, where the satisfied clock and the thermostat are (R118, R121, R122). What R113
leaves open of the last stop reason is the model's: of several conditions that are missing it shows SHED, then SENSOR, then
CHANNEL (log entry 45, DESIGN CHOICE); before the first exhaust reading it stays as it was (log entry 26, DEDUCED); while a
start claim is pending it stays as it was (log entry 59, DESIGN CHOICE). The reading that enters RUN starts no flame-loss
clock (log entry 47, DESIGN CHOICE). -/
def Obligations.TempReadings : Prop :=
  (∀ (ohms : Nat) (t : Int),
    (100 ≤ ohms → ohms ≤ 1000000 → tempValue .ntc ohms t = some (max (-400) (min 850 t))) ∧
    (ohms < 100 ∨ 1000000 < ohms → tempValue .ntc ohms t = none) ∧
    (500 ≤ ohms → ohms ≤ 5000 → tempValue .high ohms t = some (max 0 (min 4500 t))) ∧
    (ohms < 500 ∨ 5000 < ohms → tempValue .high ohms t = none)) ∧
  (∀ (k : Node) (c : HeaterCfg), k.heater.state = .standby →
    let m := standbyCheck c k
    let cold : Prop := k.heater.restart = true ∨ cabinReading c k = none ∨
      ∃ t, cabinReading c k = some t ∧ t ≤ effectiveSetpoint k.heater - 10
    let asks : Prop := cold ∧ (k.claim slotHeater).state = .idle ∧ k.isActive = true
    let off (ch : Fin 16) : Prop := isHeldOff (k.chan ch) = true
    let shows (r : StopReason) : Node := { k with heater := { k.heater with reason := r } }
    let filed (mA : Nat) : Claim :=
      { state := .waiting, cls := 3, wanted := units mA, stamp := k.now, deadline := some (k.now + 60000) }
    let files (mA : Nat) : Node :=
      { k with ev := { k.ev with wait := true }, claims := k.claims.set slotHeater (filed mA) }
    (k.heater.mode = .heat ∨ k.heater.mode = .frost →
      (¬ asks → m = k) ∧
      (asks → 4 ≤ k.view.shed → m = shows .shed) ∧
      (asks → k.view.shed < 4 → k.validTemp c.exhaust = none →
        m = if k.heater.exhaustSeen then shows .sensor else k) ∧
      (asks → k.view.shed < 4 → k.validTemp c.exhaust ≠ none → off c.glow ∨ off c.fan ∨ off c.fuel →
        m = shows .channel) ∧
      (asks → k.view.shed < 4 → k.validTemp c.exhaust ≠ none → ¬ off c.glow → ¬ off c.fan → ¬ off c.fuel →
        m = files c.start)) ∧
    (k.heater.mode = .vent →
      let may : Prop := k.isActive = true ∧ k.view.shed < 4 ∧ ¬ off c.fan ∧ (k.claim slotHeater).state = .idle
      (may → m = files c.vent) ∧ (¬ may → m = k)) ∧
    (k.heater.mode = .off → m = k)) ∧
  (∀ (k : Node) (c : HeaterCfg), k.heater.state = .run →
    let m := thermostat c (satisfiedClock c k)
    let goal := effectiveSetpoint k.heater
    let level := k.heater.level
    let want := match cabinReading c k with
      | none => 2
      | some t => if 30 ≤ goal - t then 4 else if 20 ≤ goal - t then 3 else if 10 ≤ goal - t then 2 else 1
    let hold : Prop := ∃ e, k.heater.holdEnd = some e ∧ k.now < e
    let clock := match cabinReading c k with
      | none => none
      | some t => if goal + 10 ≤ t then some (k.heater.satisfied.getD k.now) else none
    let still : Node := { k with heater := { k.heater with satisfied := clock } }
    m.heater.satisfied = clock ∧
    (k.heater.raise = none → want = level ∨ hold → m = still) ∧
    (k.heater.raise = none → ¬ hold → want < level → m.heater.level = want ∧ m.heater.rate = levelRate want ∧
      m.heater.rateStart = k.now ∧ m.heater.holdEnd = some (k.now + 60000) ∧
      (m.chan c.fan).commanded = levelDuty c want) ∧
    (k.heater.raise = none → ¬ hold → level < want → (k.claim slotHeater).held < levelUnits c want →
      m.heater = { still.heater with raise := some want, holdEnd := some (k.now + 60000) } ∧ m.bank = k.bank) ∧
    ∀ r, k.heater.raise = some r →
      (level < want → m = still) ∧
      (want ≤ level → m.heater.raise = none ∧ (want = level ∨ hold → m.heater.level = level ∧ m.bank = k.bank) ∧
        (want < level → ¬ hold → m.heater.level = want))) ∧
  ∀ (s : State) (dt : Nat) (n : Node) (i : Fin 4) (ohms : Nat) (temp : Int) (d : Nat),
    n = s.found dt → n.up = true → tempTypeOf i n ≠ .unused → (n.bank.temps[i]).due = some d → d ≤ n.now →
    let v := tempValue (tempTypeOf i n) ohms temp
    ∃ m, exec (.tempReading dt i ohms temp) s = .next (s.ended dt s.rx m) ∧
      m.bank.temps[i] = { reading := some v, due := some (d + 500) } ∧
      (∀ j : Fin 4, j ≠ i → m.bank.temps[j] = n.bank.temps[j]) ∧
      (v = none → hasFlag .sensorFault m = true) ∧
      m = { n with bank := m.bank, frost := m.frost, heater := m.heater, claims := m.claims, ev := m.ev
                   cmd := { n.cmd with flags := m.cmd.flags } } ∧
      (n.frostCfg = none → n.heaterCfg = none → m = { n with
        bank := { n.bank with temps := m.bank.temps }, cmd := { n.cmd with flags := m.cmd.flags } }) ∧
      let k : Node := { n with
        bank := { n.bank with temps := n.bank.temps.set i { reading := some v, due := some (d + 500) } }
        cmd := { n.cmd with flags := m.cmd.flags } }
      (∀ c, n.frostCfg.any (·.temp == some i) = false → n.heaterCfg = some c → c.cabin = some i → c.exhaust ≠ i →
        cabinReading c k = v ∧
        (n.heater.state = .standby → m = standbyCheck c k) ∧
        (n.heater.state = .run → m = thermostat c (satisfiedClock c k)) ∧
        (n.heater.state ≠ .standby → n.heater.state ≠ .run → m = k)) ∧
      (∀ c, n.frostCfg.any (·.temp == some i) = false → n.heaterCfg = some c → c.exhaust = i → c.cabin ≠ some i →
        (v = none → n.heater.state = .run → m.heater =
          { n.heater with exhaustSeen := true, loss := some (n.heater.loss.getD n.now) }) ∧
        (v = none ∨ (n.heater.exhaustSeen = true ∧ ∃ t, v = some t ∧ t < 3500) → n.heater.state = .standby →
          m = standbyCheck c { k with heater := { n.heater with exhaustSeen := true } })) ∧
      ∀ c t, n.frostCfg.any (·.temp == some i) = false → n.heaterCfg = some c → c.exhaust = i → c.cabin ≠ some i →
        v = some t → m.heater.exhaustSeen = true ∧
        (3500 ≤ t → n.heater.state ≠ .cooldown → m.heater.state = .cooldown ∧ m.heater.lockout = true ∧
          m.heater.reason = .overheat ∧ m.heater.phaseEnd = some (n.now + 180000)) ∧
        (3500 ≤ t → n.heater.state = .cooldown →
          m.heater = { n.heater with exhaustSeen := true, lockout := true, reason := .overheat }) ∧
        (t < 3500 → 600 ≤ t → n.heater.exhaustSeen = false → m.heater.state = .cooldown) ∧
        (t < 3500 → n.heater.exhaustSeen = true →
          (∀ z, n.heater.state = .ignite → n.heater.baseline = some z →
            (t < z + 300 → m.heater = n.heater) ∧
            (z + 300 ≤ t → m.heater.state = .run ∧ m.heater.level = 1 ∧ m.heater.attempts = 0 ∧ m.heater.rate = 10 ∧
              m.heater.rateStart = n.now ∧ m.heater.holdEnd = some (n.now + 60000) ∧
              (m.chan c.fan).commanded = levelDuty c 1 ∧ (c.glow ≠ c.fan → (m.chan c.glow).commanded = 0))) ∧
          (n.heater.state = .run → t < c.flameLost →
            m.heater = { n.heater with loss := some (n.heater.loss.getD n.now) }) ∧
          (n.heater.state = .run → c.flameLost ≤ t → m.heater = { n.heater with loss := none }) ∧
          (n.heater.state = .cooldown → t < 600 → m.heater.state ≠ .cooldown ∧ (m.chan c.fan).commanded = 0))

/-- The outputs (R174 to R176): a trip by current or by read-back, the clocks that lead to it, the backfed mark, the retry
and the end of the trip count. What the owner does at a trip and at a retry: the pump stops, and files again when demand
is there (R92); the lights put the channel to 0, and let it rise (R166); an AUX output becomes off and stays off (R177);
the heater's attempt fails at a glow trip in GLOW or IGNITE (R116), its other trips stop it by its state (R125), and in
STANDBY it evaluates the start or the vent afresh (R113, R128). That a trip or a retry changes the bank alone for an output
that no duty, the tank scanner or the frost monitor owns is the model's choice (log entry 25, DEDUCED). -/
def Obligations.OutputRows : Prop :=
  ∀ (s : State) (dt : Nat) (n : Node) (ch : Fin 16) (p : Nat),
    n = s.found dt → n.up = true → n.role ch = .out →
    let old := n.chan ch
    let trips (m : Node) : Prop :=
      (m.chan ch).trips = old.trips + 1 ∧ isOn (m.chan ch) = false ∧
      (old.trips < 3 → (m.chan ch).protection = .tripped ∧ (m.chan ch).retry = some (n.now + 5000)) ∧
      (3 ≤ old.trips → (m.chan ch).protection = .latchedOff ∧ (m.chan ch).retry = none) ∧
      hasFlag .channelTrip m = true ∧ counter .trips m = min (counter .trips n + 1) 65535 ∧
      m = { n with bank := m.bank, cmd := m.cmd, claims := m.claims, pump := m.pump, heater := m.heater
                   lights := m.lights, ev := m.ev } ∧
      (n.owner ch = none ∨ n.owner ch = some .tanks ∨ n.owner ch = some .frost →
        m = { n with bank := m.bank, cmd := m.cmd }) ∧
      (∀ c, n.owner ch = some .pump → n.pumpCfg = some c → c.output = ch → n.pump.state = .running →
        m.pump.state = .inhibited ∧ (m.claim slotPump).state = .idle ∧ (m.chan ch).commanded = 0 ∧
        (frostInhibit n = false → greyInhibit n = false → (∀ low, usedFresh n ≠ some (true, low)) →
          m.pump.reason = some .channel)) ∧
      (n.owner ch = some .aux → m.auxState ch = .off ∧ (∀ j, j ≠ ch → m.auxState j = n.auxState j) ∧
        (n.auxState ch = .on → (m.chan ch).commanded = 0) ∧
        (n.auxState ch ≠ .off → (n.claim slotAux).state ≠ .idle → auxWant m ≤ (n.claim slotAux).wanted →
          (0 < auxWant m → (m.claim slotAux).wanted = auxWant m) ∧
          (auxWant m = 0 → (m.claim slotAux).state = .idle))) ∧
      (∀ c, n.owner ch = some .heater → n.heaterCfg = some c → ch = c.glow ∨ ch = c.fan ∨ ch = c.fuel →
        let st := n.heater.state
        let cools : Prop := m.heater.state = .cooldown ∧ m.heater.reason = .channel ∧ m.heater.level = 0 ∧
          m.heater.phaseEnd = some (n.now + 180000) ∧ m.heater.rate = 0 ∧ (m.chan c.fan).commanded = 100 ∧
          (m.claim slotHeater).cls = 4 ∧ (m.claim slotHeater).held = units c.cooldown
        let stops : Prop := m.heater.state = .standby ∧ m.heater.attempts = n.heater.attempts ∧
          (m.claim slotHeater).state = .idle ∧ (m.chan c.glow).commanded = 0 ∧ (m.chan c.fan).commanded = 0 ∧
          (m.chan c.fuel).commanded = 0 ∧ (n.view.shed < 4 → n.validTemp c.exhaust ≠ none → m.heater.reason = .channel)
        (ch = c.glow → st = .glow ∨ st = .ignite →
          cools ∧ m.heater.attempts = n.heater.attempts + 1 ∧
          counter .ignitions m = min (counter .ignitions n + 1) 65535 ∧
          (n.heater.attempts = 0 → m.heater.restart = true ∧ m.heater.lockout = n.heater.lockout) ∧
          (1 ≤ n.heater.attempts → m.heater.lockout = true ∧ m.heater.restart = n.heater.restart)) ∧
        (ch ≠ c.glow → st = .purge ∨ st = .glow → n.heater.mode ≠ .vent → stops) ∧
        (ch ≠ c.glow → st = .ignite ∨ st = .run →
          cools ∧ m.heater.lockout = true ∧ m.heater.attempts = n.heater.attempts ∧
          m.heater.restart = n.heater.restart) ∧
        (ch = c.fan → st = .venting → stops) ∧
        (st = .standby → m.heater.state = .standby) ∧
        (st = .off ∨ st = .cooldown ∨ st = .lockout ∨ (ch = c.glow ∧ (st = .purge ∨ st = .run)) ∨
          (ch ≠ c.fan ∧ st = .venting) → m.heater = n.heater ∧ m.claims = n.claims)) ∧
      (∀ (i : Nat) (c : LightCfg) (l : Light), n.owner ch = some .lights → n.lamps[i]? = some (c, l) → c.output = ch →
        m.lights.channels[i]? = some { l with level := 0, heldOff := true })
    (isOn old = true → old.tripClock = some p → p + 10 ≤ n.now →
      ∃ m, exec (.outputTrip dt ch) s = .next (s.ended dt s.rx m) ∧ trips m) ∧
    (isOn old = true → old.lowOn = some p → p + (n.chanCfg ch).time ≤ n.now →
      ∃ m, exec (.readbackTrip dt ch) s = .next (s.ended dt s.rx m) ∧ trips m) ∧
    (∀ mA, isOn old = true → exec (.outputCurrentChange dt ch mA) s = .next (s.ended dt s.rx (n.setChan ch { old with
      tripClock := if (n.chanCfg ch).trip < mA then some (old.tripClock.getD n.now) else none }))) ∧
    (∀ high, exec (.outputPinReadChange dt ch high) s = .next (s.ended dt s.rx (n.setChan ch { old with
      pinHigh := high
      lowOn := if isOn old then (if high then none else some (old.lowOn.getD n.now)) else old.lowOn
      highOff := if isOn old then old.highOff else if high then some (old.highOff.getD n.now) else none
      lowOff := if isOn old then old.lowOff else if high then none else some (old.lowOff.getD n.now) }))) ∧
    (isOn old = false → old.highOff = some p → p + (n.chanCfg ch).time ≤ n.now →
      exec (.backfedMarkSet dt ch) s = .next (s.ended dt s.rx (n.setChan ch { old with backfed := true }))) ∧
    (isOn old = false → old.lowOff = some p → p + (n.chanCfg ch).time ≤ n.now →
      exec (.backfedMarkClear dt ch) s = .next (s.ended dt s.rx (n.setChan ch { old with backfed := false }))) ∧
    (old.protection = .tripped → old.retry = some p → p ≤ n.now →
      ∃ m, exec (.retry dt ch) s = .next (s.ended dt s.rx m) ∧ (m.chan ch).protection = .normal ∧
        (m.chan ch).retry = none ∧ (m.chan ch).trips = old.trips ∧
        m = { n with bank := m.bank, claims := m.claims, pump := m.pump, heater := m.heater, lights := m.lights
                     ev := m.ev } ∧
        (n.owner ch ≠ some .pump → m.pump = n.pump ∧ (m.chan ch).commanded = old.commanded) ∧
        (n.owner ch = none ∨ n.owner ch = some .tanks ∨ n.owner ch = some .frost ∨ n.owner ch = some .aux →
          m = { n with bank := m.bank } ∧ ∀ j, m.auxState j = n.auxState j) ∧
        (∀ c, n.owner ch = some .pump → n.pumpCfg = some c → c.output = ch → n.pump.state = .inhibited →
          n.pump.toldShed = false → n.pump.toldNoEnergy = false → frostInhibit n = false → greyInhibit n = false →
          (∀ low, usedFresh n ≠ some (true, low)) → (m.chan ch).commanded = old.commanded ∧
          (n.isActive = true → n.pump.modeOn = true → demand c n = true → (n.claim slotPump).state = .idle →
            m.pump.state = .waiting ∧ m.claim slotPump =
              { state := .waiting, cls := 1, wanted := units c.draw, stamp := n.now, deadline := some (n.now + 3000) }) ∧
          (n.isActive = false ∨ n.pump.modeOn = false ∨ demand c n = false →
            m.pump.state = .idle ∧ m.pump.reason = none ∧ m.claims = n.claims)) ∧
        (∀ c, n.owner ch = some .heater → n.heaterCfg = some c → ch = c.glow ∨ ch = c.fan ∨ ch = c.fuel →
          m = (if n.heater.state = .standby then standbyCheck c { n with bank := m.bank }
            else { n with bank := m.bank })) ∧
        (n.owner ch = some .lights → m = { n with bank := m.bank, lights := { n.lights with
            channels := m.lights.channels } } ∧
          ∀ (i : Nat) (c : LightCfg) (l : Light), n.lamps[i]? = some (c, l) → m.lights.channels[i]? =
            some (if c.output = ch then { l with heldOff := false } else l))) ∧
    (30000 ≤ old.onTotal + (n.now - old.onSince.getD n.now) →
      exec (.tripCountClear dt ch) s = .next (s.ended dt s.rx (n.setChan ch { old with trips := 0 })))

/-- CHANNEL_RESET (R175) and AUX_OUTPUT (R178) heard. -/
def Obligations.BankCommands : Prop :=
  ∀ (s : State) (dt : Nat) (x : RxFrame) (rest : List RxFrame) (b : CommandBody) (k : Node),
    k = s.admitted dt x →
    let answers (r : Result) : Node := { k with ev := { k.ev with reply := k.owing x b r 0 } }
    (∀ a : Byte, Heard s dt 0x31 x rest b → b.args = [a] →
      ∃ m, exec (.channelReset dt) s = .next (s.ended dt (s.rx.without rest) m) ∧
        m = { k with bank := m.bank, claims := m.claims, pump := m.pump, heater := m.heater, lights := m.lights
                     ev := m.ev } ∧
        (17 ≤ a.toNat → m = answers .refusedRange) ∧
        (∀ ch : Fin 16, a.toNat = ch.val → k.role ch ≠ .out → m = answers .refusedState) ∧
        (∀ ch : Fin 16, a.toNat = ch.val → k.role ch = .out → m.ev.reply = k.owing x b .done 0 ∧
          (m.chan ch).trips = 0 ∧ (m.chan ch).protection = .normal ∧
          (isHeldOff (k.chan ch) = false → m.chan ch = { k.chan ch with trips := 0 } ∧
            m = { k with bank := m.bank, ev := { k.ev with reply := m.ev.reply } })) ∧
        (a.toNat = 16 → m.ev.reply = k.owing x b .done 0 ∧
          ∀ ch, k.role ch = .out → (m.chan ch).trips = 0 ∧ (m.chan ch).protection = .normal)) ∧
    (∀ a v : Byte, Heard s dt 0x30 x rest b → b.args = [a, v] → k.has .aux = true →
      ∃ m, exec (.auxOutput dt) s = .next (s.ended dt (s.rx.without rest) m) ∧
        m = { k with bank := m.bank, claims := m.claims, ev := m.ev } ∧
        (16 ≤ a.toNat ∨ 2 ≤ v.toNat → m = answers .refusedRange) ∧
        ∀ ch : Fin 16, a.toNat = ch.val → v.toNat ≤ 1 →
          (isAuxOut k ch = false → m = answers .refusedRange) ∧
          (isAuxOut k ch = true → v = 0 → m.ev.reply = k.owing x b .done 0 ∧ m.auxState ch = .off ∧
            (k.auxState ch = .off → m = answers .done) ∧
            (k.auxState ch = .on → (m.chan ch).commanded = 0) ∧
            ∀ j, j ≠ ch → m.auxState j = k.auxState j) ∧
          (isAuxOut k ch = true → v = 1 → k.auxState ch ≠ .off → m = answers .done) ∧
          (isAuxOut k ch = true → v = 1 → k.auxState ch = .off → k.isActive = false ∨ isHeldOff (k.chan ch) = true →
            m = answers .refusedState) ∧
          (isAuxOut k ch = true → v = 1 → k.auxState ch = .off → k.isActive = true → isHeldOff (k.chan ch) = false →
            m.ev.reply = k.owing x b .accepted 0 ∧ m.auxState ch = .pending ∧ m.bank.chans = k.bank.chans ∧
            (∀ j, j ≠ ch → m.auxState j = k.auxState j) ∧
            ((k.claim slotAux).state = .idle → (∀ j, k.auxState j = .off) → 0 < (k.chanCfg ch).draw →
              m.claim slotAux = { state := .waiting, cls := 1, wanted := units (k.chanCfg ch).draw, stamp := k.now,
                                  deadline := some (k.now + 3000) })))

/-! ## Habitation link (chapter 10) -/

/-- The receiver's rows (R183, R185, R186): a frame takes a buffer or, with none free, is dropped; a faulty, broken or
bad frame gives its buffer back; a good one joins the end of the arrival list with its arrival time stamp. -/
def Obligations.ReceiveRows : Prop :=
  (∀ (index : Nat) (c : BitVec 11), characterFault index c = true ↔
    c.getLsbD 10 = false ∨ ((List.range 9).countP fun j => c.getLsbD (j + 1)) % 2 = 1 ∨
    (index = 0 ∧ c.extractLsb' 1 8 ≠ 0xC3#8) ∨ (index = 3 ∧ 28 < (c.extractLsb' 1 8).toNat)) ∧
  ∀ (s : State) (dt : Nat) (n : Node), n = s.found dt → n.up = true →
    let rx := s.rx
    let idle : Receiver := { rx with phase := .idle }
    (∀ bits, 16 ≤ bits → n.tx.attempt = .none →
      let k := if rx.phase = .filling then bump .broken n else n
      (rx.arrival.length < 8 →
        exec (.frameBegin dt bits) s = .next (s.ended dt { rx with phase := .filling } k)) ∧
      (8 ≤ rx.arrival.length →
        exec (.frameBegin dt bits) s = .next (s.ended dt { rx with phase := .dropping } (bump .noBuffer k)))) ∧
    (∀ index c, characterFault index c = true →
      (rx.phase = .filling → exec (.frameCharacterFault dt index c) s = .next (s.ended dt idle (bump .bad n))) ∧
      (rx.phase = .dropping → exec (.frameCharacterFault dt index c) s = .next (s.ended dt idle n))) ∧
    (∀ us, 900 < us →
      (rx.phase = .filling → exec (.frameBroken dt us) s = .next (s.ended dt idle (bump .broken n))) ∧
      (rx.phase = .dropping → exec (.frameBroken dt us) s = .next (s.ended dt idle n))) ∧
    (∀ bytes,
      (∀ source f, rx.phase = .filling → readFrame bytes = some (source, f) →
        exec (.frameComplete dt bytes) s = .next (s.ended dt
          { arrival := rx.arrival ++ [{ stamp := n.now, source := source, frame := f }], phase := .idle }
          (bump .good n))) ∧
      (rx.phase = .filling → readFrame bytes = none →
        exec (.frameComplete dt bytes) s = .next (s.ended dt idle (bump .bad n))) ∧
      (rx.phase = .dropping → exec (.frameComplete dt bytes) s = .next (s.ended dt idle n)))

/-- The transmitter's rows (R188 to R191): an attempt begins after the station's own idle time, counted from no earlier
than the moment the transmitter was enabled (R193; that the end of a jabber recovery is such a moment is log entry 43,
DEDUCED), and while a frame is being received the transmitter defers to it (log entry 9, DEDUCED); a recessive bit read
back dominant jams it; a failed attempt is counted, and the eighth gives the frame up; a newer frame of the same periodic
kind behind it takes its place (log entry 40, DESIGN CHOICE); a sent frame leaves the queue and starts the settle windows
of the claims its DRAW carried (R53, R54); the jabber guard. -/
def Obligations.TransmitRows : Prop :=
  ∀ (s : State) (dt : Nat) (n : Node), n = s.found dt → n.up = true →
    let tx := n.tx
    let carried (e : TxEntry) (i : Fin 8) : Prop := kindOf e.frame = .draw ∧ (n.claim i).state = .asking ∧
      (n.claim i).settle = none ∧ (n.claim i).carrier = some e.id
    let back (c : Claim) : Claim := { c with state := .waiting, asked := 0, carrier := none, settle := none }
    let waits : Host.Outcome State Fault Refusal := .next { s with node := advance dt s.node }
    let newer (e : TxEntry) (x : TxEntry) : Prop := isPeriodic (kindOf e.frame) = true ∧ kindOf x.frame = kindOf e.frame
    (∀ bits number t, tx.queue ≠ [] → tx.attempt = .none → tx.jabber = false → n.station = some number →
      n.isActive = true ∨ n.state = some .listening ∨ n.state = some .listenOnly → tx.since = some t →
      (s.rx.phase = .idle → 16 + 4 * number ≤ bits → 16 + 4 * number ≤ (n.now - t) * 384 / 10 →
        exec (.attemptStart dt bits) s = .next (s.ended dt s.rx { n with tx := { tx with attempt := .sending } })) ∧
      (s.rx.phase ≠ .idle ∨ bits < 16 + 4 * number ∨ (n.now - t) * 384 / 10 < 16 + 4 * number →
        exec (.attemptStart dt bits) s = waits)) ∧
    (∀ k e rest, tx.attempt = .sending → tx.queue = e :: rest →
      (sentBit (frameBytes n.rankNumber e.frame) k = some true → exec (.collision dt k false) s =
        .next (s.ended dt s.rx { n with tx := { tx with attempt := .jamming } })) ∧
      (sentBit (frameBytes n.rankNumber e.frame) k ≠ some true → exec (.collision dt k false) s = waits) ∧
      exec (.collision dt k true) s = waits) ∧
    (∀ bits e rest, tx.attempt = .jamming → 22 ≤ bits → tx.queue = e :: rest → n.state ≠ some .silent →
      ∃ m, exec (.jamEnd dt bits) s = .next (s.ended dt s.rx m) ∧
        m = { n with tx := m.tx, claims := m.claims, cmd := { n.cmd with counters := m.cmd.counters } } ∧
        counter .collisions m = min (counter .collisions n + 1) 65535 ∧
        (e.attempts < 7 → (∀ x ∈ rest, ¬ newer e x) →
          m.tx = { tx with queue := { e with attempts := e.attempts + 1 } :: rest, attempt := .none } ∧
          m.claims = n.claims ∧ counter .giveUps m = counter .giveUps n) ∧
        (∀ x front behind, e.attempts < 7 → rest = front ++ x :: behind → newer e x → (∀ y ∈ front, ¬ newer e y) →
          (∀ y ∈ front ++ behind, y.id ≠ x.id) →
          m.tx = { tx with queue := { e with frame := x.frame, attempts := e.attempts + 1 } :: (front ++ behind)
                           attempt := .none } ∧ counter .giveUps m = counter .giveUps n ∧
          ∀ i, (carried x i → m.claim i = { n.claim i with carrier := some e.id }) ∧
            (¬ carried x i → kindOf x.frame = .draw → m.claim i = n.claim i)) ∧
        (7 ≤ e.attempts → m.tx = { tx with queue := rest, attempt := .none } ∧
          counter .giveUps m = min (counter .giveUps n + 1) 65535 ∧
          ∀ i, (carried e i → m.claim i = back (n.claim i)) ∧ (¬ carried e i → m.claim i = n.claim i))) ∧
    (∀ e rest, tx.attempt = .sending → tx.queue = e :: rest → n.state ≠ some .silent →
      ∃ m, exec (.frameSent dt) s = .next (s.ended dt s.rx m) ∧
        m = { n with tx := { tx with queue := rest, attempt := .none }, claims := m.claims
                     cmd := { n.cmd with counters := m.cmd.counters } } ∧
        counter .good m = min (counter .good n + 1) 65535 ∧
        ∀ i, (carried e i → m.claim i = { n.claim i with settle := some (n.now + 80) }) ∧
          (¬ carried e i → m.claim i = n.claim i)) ∧
    (∀ us, tx.jabber = false → 20000 ≤ us →
      ∃ m, exec (.jabberCut dt us) s = .next (s.ended dt s.rx m) ∧ m.tx.jabber = true ∧ m.tx.attempt = .none ∧
        m = { n with tx := m.tx, claims := m.claims
                     cmd := { n.cmd with counters := m.cmd.counters, flags := m.cmd.flags } } ∧
        hasFlag .jabber m = true ∧ counter .jabber m = min (counter .jabber n + 1) 65535 ∧
        (tx.attempt = .none → m.tx.queue = tx.queue) ∧
        (∀ e rest, tx.attempt ≠ .none → tx.queue = e :: rest → n.state ≠ some .silent → e.attempts < 7 →
          (∀ x ∈ rest, ¬ newer e x) → m.tx.queue = { e with attempts := e.attempts + 1 } :: rest)) ∧
    (∀ ms, tx.jabber = true → 1000 ≤ ms →
      exec (.jabberRecoveryEnd dt ms) s =
        .next (s.ended dt s.rx { n with tx := { tx with jabber := false, since := some n.now } }))

/-- R184: the characters of a frame whose fields fit its payload: SYNC, SOURCE, KIND, LENGTH, the payload and CHECK, 5 to
33 in number; CHECK makes the sum from SOURCE on equal 0x5C modulo 256. R183: the 11 bits of a character as it is sent: a
dominant start bit, the data least significant bit first, the even parity bit, a recessive stop bit; the receiver finds
no error in it and reads its byte. -/
def Obligations.CheckMakesTheSum : Prop :=
  (∀ (source : Nat) (f : Frame), 1 ≤ source → source ≤ 14 → fitsPayload f = true →
    let sum := (source + kindCode (kindOf f) + (payload f).length + ((payload f).map BitVec.toNat).sum) % 256
    let check := (0x5C + 256 - sum) % 256
    (payload f).length ≤ 28 ∧ (frameBytes source f).length = (payload f).length + 5 ∧
    (frameBytes source f).map BitVec.toNat = [0xC3, source, kindCode (kindOf f), (payload f).length] ++
      (payload f).map BitVec.toNat ++ [check] ∧
    (((frameBytes source f).drop 1).map BitVec.toNat).sum % 256 = 0x5C) ∧
  frameBytes 3 (.draw []) = [0xC3#8, 0x03#8, 0x12#8, 0x01#8, 0x00#8, 0x46#8] ∧ 33 * 11 = 363 ∧
  (∀ b : Byte, (sentChar b).getLsbD 0 = false ∧ (∀ j, j < 8 → (sentChar b).getLsbD (j + 1) = b.getLsbD j) ∧
    ((List.range 9).countP fun j => (sentChar b).getLsbD (j + 1)) % 2 = 0 ∧ (sentChar b).getLsbD 10 = true ∧
    charByte (sentChar b) = b ∧ framingError (sentChar b) = false ∧ parityError (sentChar b) = false) ∧
  ∀ (bytes : List Byte) (i j : Nat), j < 11 →
    (∀ b, bytes[i]? = some b → sentBit bytes (11 * i + j) = some ((sentChar b).getLsbD j)) ∧
    (bytes.length ≤ i → sentBit bytes (11 * i + j) = none)

/-- Every frame that the payloads can carry is read back from its characters as it was, with the sender's number. And
which runs of characters are a good frame (R185): SYNC, SOURCE, KIND, LENGTH, as many bytes as LENGTH says, 28 at most, and
a CHECK that makes the sum 0x5C, with a KIND of section 12.3 and a LENGTH that the kind, the counts and the presence bits
of the payload allow; no other is. -/
def Obligations.FramesReadBack : Prop :=
  (∀ (source : Nat) (f : Frame), 1 ≤ source → source ≤ 14 → fitsPayload f = true →
    readFrame (frameBytes source f) = some (source, f)) ∧
  ∀ bytes : List Byte,
    let part (n : Byte) (size : Nat) : Nat := if n.toNat.testBit 7 then size else 0
    let first (d : List Byte) (p : Byte → Prop) : Prop := ∃ n, d.head? = some n ∧ p n
    let allowed (kind : Nat) (d : List Byte) : Prop :=
      (kind = 0x11 ∧ d.length = 8) ∨
      (kind = 0x12 ∧ first d fun n => n.toNat ≤ 8 ∧ d.length = 1 + 3 * n.toNat) ∨
      (kind = 0x13 ∧ d.length = 15) ∨
      (kind = 0x14 ∧ first d fun n => d.length = 1 + 3 * (n.toNat % 4) + part n 3) ∨
      (kind = 0x15 ∧ d.length = 11) ∨
      (kind = 0x16 ∧ first d fun n => n.toNat % 4 ≤ 2 ∧ d.length = 1 + 6 * (n.toNat % 4) + part n 2) ∨
      (kind = 0x17 ∧ first d fun n => n.toNat ≤ 8 ∧ d.length = 1 + 2 * n.toNat) ∨
      (kind = 0x21 ∧ 3 ≤ d.length ∧ d.length ≤ 11) ∨
      (kind = 0x22 ∧ d.length = 6) ∨
      (kind = 0x23 ∧ ∃ count : Byte, d[2]? = some count ∧ first d fun n =>
        (n = 0 ∧ d.length = 3 + 4 * count.toNat) ∨ (n = 1 ∧ d.length = 27 ∧ count = 12) ∨
        (n = 2 ∧ d.length = 5 ∧ count = 16))
    ((readFrame bytes).isSome = true ↔ ∃ (source kind length : Byte) (data : List Byte) (check : Byte),
      bytes = [0xC3, source, kind, length] ++ data ++ [check] ∧ data.length = length.toNat ∧ length.toNat ≤ 28 ∧
      ((bytes.drop 1).map BitVec.toNat).sum % 256 = 0x5C ∧ allowed kind.toNat data)

/-- R187: where a frame is placed. A periodic frame takes the place of a queued one of its kind; else it is appended; in
a full queue it pushes out the youngest queued REPLY or REPORT, or is dropped. A REPLY or REPORT is appended, or dropped
from a full queue. -/
def Obligations.FramesArePlaced : Prop :=
  ∀ (n : Node) (f : Frame), queueFits n = true →
    let tx := n.tx
    let queued := if tx.attempt = .none then tx.queue else tx.queue.drop 1
    let fresh : TxEntry := { id := tx.nextId, frame := f }
    (∀ e, (queued.filter fun y => kindOf y.frame == kindOf f) = [e] →
      placePeriodic f n = ({ n with tx := { tx with
        queue := tx.queue.map fun y => if y = e then { e with frame := f } else y } }, some e.id)) ∧
    ((∀ y ∈ queued, kindOf y.frame ≠ kindOf f) → tx.queue.length < 6 →
      placePeriodic f n = ({ n with tx := { tx with queue := tx.queue ++ [fresh], nextId := tx.nextId + 1 } },
        some tx.nextId)) ∧
    (∀ older e younger, (∀ y ∈ queued, kindOf y.frame ≠ kindOf f) → tx.queue.length = 6 →
      queued = older ++ e :: younger → kindOf e.frame = .reply ∨ kindOf e.frame = .report →
      (∀ y ∈ younger, kindOf y.frame ≠ .reply ∧ kindOf y.frame ≠ .report) →
      (placePeriodic f n).2 = some tx.nextId ∧ (placePeriodic f n).1.tx.queue = tx.queue.erase e ++ [fresh] ∧
      counter .queueDrops (placePeriodic f n).1 = min (counter .queueDrops n + 1) 65535) ∧
    ((∀ y ∈ queued, kindOf y.frame ≠ kindOf f ∧ kindOf y.frame ≠ .reply ∧ kindOf y.frame ≠ .report) →
      tx.queue.length = 6 → placePeriodic f n = (bump .queueDrops n, none)) ∧
    (tx.queue.length < 6 → placeAnswer f n =
      ({ n with tx := { tx with queue := tx.queue ++ [fresh], nextId := tx.nextId + 1 } }, some tx.nextId)) ∧
    (tx.queue.length = 6 → placeAnswer f n = (bump .queueDrops n, none))

/-! ## Commands, reports and counters (chapter 11) -/

/-- How the command rows check a COMMAND that is heard (R194, R195): an addressed one of a wrong length is refused with
REFUSED_RANGE and one whose duty the node does not hold with REFUSED_NO_DUTY, and a broadcast one is ignored in either
case; a query or RESTART is ignored when broadcast. A query is refused with REFUSED_BUSY while the transmit queue has no
room for its REPLY and REPORT, and ignored at a node that is not ACTIVE. An AWNING or STEP command has three argument
bytes with the action EXTEND_TO and one otherwise (section 12.3); after its duty its action is checked, and an unknown
one, a target above 1 000 and EXTEND_TO on the step give REFUSED_RANGE (R136, checks 1 and 2). Which row takes a COMMAND
of an unknown action is the model's choice (log entry 8, DESIGN CHOICE). -/
def Obligations.CommandsAreChecked : Prop :=
  ∀ (s : State) (dt : Nat) (x : RxFrame) (rest : List RxFrame) (b : CommandBody) (k : Node), k = s.admitted dt x →
    let answers (r : Result) : Node := { k with ev := { k.ev with
      reply := some ⟨x.source, b.tag, b.code, resultCode r, 0⟩ } }
    let ends (m : Node) : Host.Outcome State Fault Refusal := .next (s.ended dt (s.rx.without rest) m)
    (∀ row ∈ checkedRows dt, Heard s dt row.2.1 x rest b →
      (k.station = some b.target → b.args.length ≠ row.2.2.2 → exec row.1 s = ends (answers .refusedRange)) ∧
      (k.station = some b.target → b.args.length = row.2.2.2 → ∀ d, row.2.2.1 = some d → k.has d = false →
        exec row.1 s = ends (answers .refusedNoDuty)) ∧
      (b.target = 0 → b.args.length ≠ row.2.2.2 ∨ (∃ d, row.2.2.1 = some d ∧ k.has d = false) →
        exec row.1 s = ends k)) ∧
    (∀ row ∈ [(Instr.queryReport dt, 0x39, 2), (.queryCounters dt, 0x3A, 0), (.queryFlags dt, 0x3B, 0)],
      Heard s dt row.2.1 x rest b →
      (k.isActive = false → exec row.1 s = ends k) ∧
      (k.station = some b.target → k.isActive = true → b.args.length = row.2.2 → 4 < k.tx.queue.length →
        exec row.1 s = ends (answers .refusedBusy))) ∧
    (∀ row ∈ [(Instr.queryReport dt, 0x39, 2), (.queryCounters dt, 0x3A, 0), (.queryFlags dt, 0x3B, 0),
        (.restart dt, 0x3F, 0)], Heard s dt row.2.1 x rest b →
      (b.target = 0 → exec row.1 s = ends k) ∧
      (k.station = some b.target → k.isActive = true → b.args.length ≠ row.2.2 →
        exec row.1 s = ends (answers .refusedRange))) ∧
    ∀ row ∈ [(Instr.awningExtend dt, MotionUnit.awning, fun a => decide (a ∉ [2, 3, 4])),
        (.awningRetract dt, .awning, fun a => a == 2), (.awningExtendTo dt, .awning, fun a => a == 4),
        (.awningStop dt, .awning, fun a => a == 3), (.stepExtend dt, .step, fun a => decide (a ∉ [2, 3])),
        (.stepRetract dt, .step, fun a => a == 2), (.stepStop dt, .step, fun a => a == 3)],
      Heard s dt (unitCode row.2.1) x rest b → row.2.2 (byteAt b.args 0) = true →
      let action := byteAt b.args 0
      let length := if action = 4 then 3 else 1
      let duty := unitDuty row.2.1
      let unknown : Prop := action ∉ [1, 2, 3, 4] ∨ (action = 4 ∧ (row.2.1 = .step ∨ 1000 < wordAt b.args 1))
      (k.station = some b.target →
        (b.args.length ≠ length → exec row.1 s = ends (answers .refusedRange)) ∧
        (b.args.length = length → k.has duty = false → exec row.1 s = ends (answers .refusedNoDuty)) ∧
        (b.args.length = length → k.has duty = true → k.unitCfg row.2.1 ≠ none → unknown →
          exec row.1 s = ends (answers .refusedRange))) ∧
      (b.target = 0 → b.args.length ≠ length ∨ k.has duty = false ∨ (k.unitCfg row.2.1 ≠ none ∧ unknown) →
        exec row.1 s = ends k)

/-- REPORT_SELECT, the queries and UNKNOWN_COMMAND (R195 to R199) addressed to an ACTIVE node with nothing queued: what
is reported, what a query clears, and that the REPLY and the REPORT are queued. And the tables: the quantities of R196,
where what has no value to report is not available (selector 4 from the live counter is log entry 35, DEDUCED; selectors
5 and 6 before the first sample and 21 without a channel or a conversion are log entry 50, DESIGN CHOICE), and the
standing conditions of R199 (STEP_NOT_STOWED with the STEP duty alone is log entry 55, DEDUCED). -/
def Obligations.CommandUnitRows : Prop :=
  (∀ (s : State) (dt : Nat) (x : RxFrame) (rest : List RxFrame) (b : CommandBody) (k : Node),
    k = s.admitted dt x → k.isActive = true → k.calm = true → k.tx.queue = [] → k.station = some b.target →
    let reply (r : Result) (detail : Int) : ReplyBody := ⟨x.source, b.tag, b.code, resultCode r, detail⟩
    let places := (List.range 12).map fun i => (longAt b.args 0 + 4294967296 * longAt b.args 4) / 32 ^ i % 32
    let map := places.takeWhile (· != 31)
    (Heard s dt 0x38 x rest b → b.args.length = 8 → ∃ t, exec (.reportSelect dt) s = .next t ∧
      (map ≠ [] → (∀ q ∈ map, q ≤ 23) → t = s.ended dt (s.rx.without rest) { k with
        cmd := { k.cmd with map := map }, ev := { k.ev with reply := some (reply .done map.length) } } ∧
        t.node.cmd.map = map ∧ t.queued (.reply (reply .done map.length))) ∧
      (map = [] ∨ (∃ q ∈ map, 23 < q) → t = s.ended dt (s.rx.without rest) { k with
        ev := { k.ev with reply := some (reply .refusedRange 0) } })) ∧
    (∀ start count : Byte, Heard s dt 0x39 x rest b → b.args = [start, count] →
      ∃ t, exec (.queryReport dt) s = .next t ∧
      (start.toNat < k.cmd.map.length → 0 < count.toNat →
        let c := min count.toNat 6
        let values := (List.range c).map fun i =>
          quantity (k.cmd.map.getD ((start.toNat + i) % k.cmd.map.length) 0) k
        t.queued (.report (.quantities start.toNat c values)) ∧
        t.queued (.reply (if 6 < count.toNat then reply .doneClamped 6 else reply .done 0)) ∧ t.node.cmd.map = k.cmd.map) ∧
      (k.cmd.map.length ≤ start.toNat ∨ count = 0 → t = s.ended dt (s.rx.without rest) { k with
        ev := { k.ev with reply := some (reply .refusedRange 0) } })) ∧
    (Heard s dt 0x3A x rest b → b.args = [] → ∃ t, exec (.queryCounters dt) s = .next t ∧
      t.queued (.report (.counters 0 12 k.cmd.counters.toList)) ∧ t.queued (.reply (reply .done 0)) ∧
      ∀ c, c ≠ .queueDrops → counter c t.node = 0) ∧
    (Heard s dt 0x3B x rest b → b.args = [] → ∃ t, exec (.queryFlags dt) s = .next t ∧
      t.queued (.report (.flags 0 16 k.cmd.flags)) ∧ t.queued (.reply (reply .done 0)) ∧
      ∀ f, hasFlag f t.node = standing f k) ∧
    (b.code ∉ commandCodes → Heard s dt b.code x rest b → ∃ t, exec (.unknownCommand dt) s = .next t ∧
      t = s.ended dt (s.rx.without rest) { k with ev := { k.ev with reply := some (reply .unknownCommand 0) } } ∧
      t.queued (.reply (reply .unknownCommand 0)))) ∧
  (∀ n : Node,
    let absent : Int := -2147483648
    let number (v : Option Nat) : Int := (v.map fun k => (k : Int)).getD absent
    let held (d : Duty) (v : Int) : Int := if n.has d then v else absent
    let auxAin (i : Fin 16) : Prop := n.role i = .ain ∧ n.owner i = some .aux
    quantity 0 n = n.view.allowance ∧ quantity 1 n = n.view.shed ∧ quantity 3 n = n.view.peers.length ∧
    quantity 2 n = (((List.finRange 8).map fun i => (n.claim i).held).sum +
      (n.view.peers.map fun p => ((p.claims.getD []).map (·.held)).sum).sum : Nat) ∧
    quantity 4 n = number (n.batteryCfg.map fun c => n.battery.q * 1000 / (c.capacityAh * 3600000)) ∧
    quantity 5 n = (n.battery.last.map (·.current)).getD absent ∧
    quantity 6 n = number (n.battery.last.map (·.voltage)) ∧
    quantity 7 n = held .battery (n.battery.q / 1000 : Nat) ∧ quantity 8 n = held .battery n.battery.step ∧
    (∀ k : Fin 3, quantity (9 + k) n = number (n.tanks.records[k.val]?.bind (·.level))) ∧
    quantity 12 n = held .pump (16 * (match n.pump.state with
        | .idle => 0 | .waiting => 1 | .running => 2 | .inhibited => 3 | .dryFault => 4) +
      match n.pump.reason with
        | none => 0 | some .frost => 1 | some .greyFull => 2 | some .freshEmpty => 3 | some .channel => 4
        | some .shed => 5 | some .noEnergy => 6) ∧
    quantity 13 n = held .pump n.pump.dryCount ∧
    quantity 14 n = held .frost (match n.frost.state with
      | .armed => 0 | .countdown => 1 | .dumping => 2 | .drained => 3 | .closing => 4 | .valveFault => 5
      | .disarmed => 6) ∧
    quantity 15 n = (n.frostCfg.bind fun c => tempUsed c n).getD absent ∧
    quantity 16 n = held .heater n.heater.level ∧
    quantity 17 n = (n.heaterCfg.bind fun c => c.cabin.bind fun i => (n.bank.temps[i]).reading.join).getD absent ∧
    quantity 18 n = (n.heaterCfg.bind fun c => (n.bank.temps[c.exhaust]).reading.join).getD absent ∧
    quantity 19 n = held .wind n.wind.speed ∧
    quantity 20 n =
      held .aux (((List.finRange 16).map fun i => if n.bank.aux[i] = .on then 2 ^ i.val else 0).sum : Nat) ∧
    (∀ i, auxAin i → (∀ j, j < i → ¬ auxAin j) → quantity 21 n = number (n.chan i).reading) ∧
    ((∀ i, ¬ auxAin i) → quantity 21 n = absent) ∧
    quantity 22 n = (((List.finRange 16).map fun i => if (n.chan i).backfed then 2 ^ i.val else 0).sum : Nat) ∧
    quantity 23 n = (n.now % 4294967296 / 1000 : Nat)) ∧
  ∀ n : Node,
    (standing .jabber n = true ↔ n.tx.jabber = true) ∧ (standing .orphaned n = true ↔ n.view.orphaned = true) ∧
    (standing .channelTrip n = true ↔
      ∃ i, n.role i = .out ∧ ((n.chan i).protection = .tripped ∨ (n.chan i).protection = .latchedOff)) ∧
    (standing .bridgeFault n = true ↔ ∃ u, (n.bridge u).state = .fault) ∧
    (standing .probeFault n = true ↔ ∃ t ∈ n.tanks.records, t.probeFault = true) ∧
    (standing .senderFault n = true ↔ ∃ t ∈ n.tanks.records, t.senderFault = true) ∧
    (standing .dryFault n = true ↔ n.pump.state = .dryFault) ∧
    (standing .valveFault n = true ↔ n.frost.state = .valveFault) ∧
    (standing .heaterLockout n = true ↔ n.heater.state = .lockout) ∧
    (standing .motionJam n = true ↔ ∃ u, (n.unit u).state = .fault ∧ (n.unit u).cause = .jam) ∧
    (standing .motionTimeout n = true ↔ ∃ u, (n.unit u).state = .fault ∧ (n.unit u).cause = .timeout) ∧
    (standing .stepNotStowed n = true ↔
      n.has .step = true ∧ n.view.travel = true ∧ n.motion.step.state ≠ .retracted) ∧
    (standing .sensorFault n = true ↔ ∃ (c : Image) (t : Fin 4), n.cfg = some c ∧ c.temps[t] ≠ .unused ∧
      (n.bank.temps[t]).reading = some none) ∧
    standing .duplicateSeen n = false ∧ standing .frostDumped n = false ∧ standing .flameLost n = false

/-- RESTART (R200): at an ACTIVE node the REPLY is queued and the reset waits for it, 200 ms at most; the sending of that
REPLY or the deadline resets the node with cause 4, and the hold ends at once (R202). At a node that queues no REPLY the
reset takes place at once. A second RESTART while one waits is executed afresh (R194): its REPLY is waited for beside the
first, whose latest moment stays (log entry 30, DEDUCED). A REPLY waited for that has left the queue in any way resets
the node. -/
def Obligations.RestartResets : Prop :=
  ∀ (s : State) (dt : Nat),
    let restarted : State :=
      { State.reset with pending := s.pending, node := { State.reset.node with cause := 4, held := false } }
    (∀ (x : RxFrame) (rest : List RxFrame) (b : CommandBody) (k : Node), k = s.admitted dt x →
      Heard s dt 0x3F x rest b → b.args = [] → k.station = some b.target → k.calm = true →
      (k.isActive = true → k.tx.queue = [] → ∃ t e, exec (.restart dt) s = .next t ∧ e ∈ t.node.tx.queue ∧
        e.frame = .reply ⟨x.source, b.tag, b.code, 0, 0⟩ ∧ t.node.cmd.restart = some (e.id, k.now + 200) ∧
        t.node.state = some .active ∧ t.node.cause = s.node.cause) ∧
      (k.isActive = false → exec (.restart dt) s = .next restarted)) ∧
    (∀ (x : RxFrame) (rest : List RxFrame) (b : CommandBody) (k : Node) (waiting : TxEntry) (at_ : Nat),
      k = s.admitted dt x → Heard s dt 0x3F x rest b → b.args = [] → k.station = some b.target → k.ev = {} →
      k.isActive = true → k.tx.queue = [waiting] → k.cmd.restart = some (waiting.id, at_) → k.cmd.restartAgain = [] →
      ∃ t e, exec (.restart dt) s = .next t ∧ e ∈ t.node.tx.queue ∧ e.frame = .reply ⟨x.source, b.tag, b.code, 0, 0⟩ ∧
        t.node.cmd.restart = some (waiting.id, at_) ∧ t.node.cmd.restartAgain = [e.id] ∧
        t.node.state = some .active ∧ t.node.cause = s.node.cause) ∧
    (∀ (n : Node) (id at_ : Nat), n.cmd.restart = some (id, at_) →
      ((∃ a ∈ id :: n.cmd.restartAgain, ∀ e ∈ n.tx.queue, e.id ≠ a) →
        restartCheck n = { n with ev := { n.ev with reset := true } }) ∧
      ((∀ a ∈ id :: n.cmd.restartAgain, ∃ e ∈ n.tx.queue, e.id = a) → restartCheck n = n)) ∧
    (∀ n, n = s.found dt → n.up = true → ∀ id at_, n.cmd.restart = some (id, at_) →
      (at_ ≤ n.now → exec (.restartDeadline dt) s = .next restarted) ∧
      (∀ e rest, s.sound = true → n.tx.queue = e :: rest → e.id ∈ id :: n.cmd.restartAgain → n.tx.attempt = .sending →
        exec (.frameSent dt) s = .next restarted))

end
end

