-- ==== Sys2Proof/Laws/State.lean ====
section
/-! SUPPORT. What each update of the node's records does to each field: one lemma per field per update. -/

namespace Sys2Proof.Machine

variable (n : Node)

@[simp] theorem Node.setBattery_now (v : Battery) : (n.setBattery v).now = n.now := rfl
@[simp] theorem Node.setBattery_held (v : Battery) : (n.setBattery v).held = n.held := rfl
@[simp] theorem Node.setBattery_cause (v : Battery) : (n.setBattery v).cause = n.cause := rfl
@[simp] theorem Node.setBattery_checked (v : Battery) : (n.setBattery v).checked = n.checked := rfl
@[simp] theorem Node.setBattery_station (v : Battery) : (n.setBattery v).station = n.station := rfl
@[simp] theorem Node.setBattery_state (v : Battery) : (n.setBattery v).state = n.state := rfl
@[simp] theorem Node.setBattery_faultPin (v : Battery) : (n.setBattery v).faultPin = n.faultPin := rfl
@[simp] theorem Node.setBattery_cfg (v : Battery) : (n.setBattery v).cfg = n.cfg := rfl
@[simp] theorem Node.setBattery_battery (v : Battery) : (n.setBattery v).battery = v := rfl
@[simp] theorem Node.setBattery_view (v : Battery) : (n.setBattery v).view = n.view := rfl
@[simp] theorem Node.setBattery_claims (v : Battery) : (n.setBattery v).claims = n.claims := rfl
@[simp] theorem Node.setBattery_tanks (v : Battery) : (n.setBattery v).tanks = n.tanks := rfl
@[simp] theorem Node.setBattery_pump (v : Battery) : (n.setBattery v).pump = n.pump := rfl
@[simp] theorem Node.setBattery_frost (v : Battery) : (n.setBattery v).frost = n.frost := rfl
@[simp] theorem Node.setBattery_heater (v : Battery) : (n.setBattery v).heater = n.heater := rfl
@[simp] theorem Node.setBattery_motion (v : Battery) : (n.setBattery v).motion = n.motion := rfl
@[simp] theorem Node.setBattery_wind (v : Battery) : (n.setBattery v).wind = n.wind := rfl
@[simp] theorem Node.setBattery_lights (v : Battery) : (n.setBattery v).lights = n.lights := rfl
@[simp] theorem Node.setBattery_bank (v : Battery) : (n.setBattery v).bank = n.bank := rfl
@[simp] theorem Node.setBattery_tx (v : Battery) : (n.setBattery v).tx = n.tx := rfl
@[simp] theorem Node.setBattery_cmd (v : Battery) : (n.setBattery v).cmd = n.cmd := rfl
@[simp] theorem Node.setBattery_pub (v : Battery) : (n.setBattery v).pub = n.pub := rfl
@[simp] theorem Node.setBattery_ev (v : Battery) : (n.setBattery v).ev = n.ev := rfl
@[simp] theorem Node.setBattery_free (v : Battery) : (n.setBattery v).free = n.free := rfl

@[simp] theorem Node.setView_now (v : View) : (n.setView v).now = n.now := rfl
@[simp] theorem Node.setView_held (v : View) : (n.setView v).held = n.held := rfl
@[simp] theorem Node.setView_cause (v : View) : (n.setView v).cause = n.cause := rfl
@[simp] theorem Node.setView_checked (v : View) : (n.setView v).checked = n.checked := rfl
@[simp] theorem Node.setView_station (v : View) : (n.setView v).station = n.station := rfl
@[simp] theorem Node.setView_state (v : View) : (n.setView v).state = n.state := rfl
@[simp] theorem Node.setView_faultPin (v : View) : (n.setView v).faultPin = n.faultPin := rfl
@[simp] theorem Node.setView_cfg (v : View) : (n.setView v).cfg = n.cfg := rfl
@[simp] theorem Node.setView_battery (v : View) : (n.setView v).battery = n.battery := rfl
@[simp] theorem Node.setView_view (v : View) : (n.setView v).view = v := rfl
@[simp] theorem Node.setView_claims (v : View) : (n.setView v).claims = n.claims := rfl
@[simp] theorem Node.setView_tanks (v : View) : (n.setView v).tanks = n.tanks := rfl
@[simp] theorem Node.setView_pump (v : View) : (n.setView v).pump = n.pump := rfl
@[simp] theorem Node.setView_frost (v : View) : (n.setView v).frost = n.frost := rfl
@[simp] theorem Node.setView_heater (v : View) : (n.setView v).heater = n.heater := rfl
@[simp] theorem Node.setView_motion (v : View) : (n.setView v).motion = n.motion := rfl
@[simp] theorem Node.setView_wind (v : View) : (n.setView v).wind = n.wind := rfl
@[simp] theorem Node.setView_lights (v : View) : (n.setView v).lights = n.lights := rfl
@[simp] theorem Node.setView_bank (v : View) : (n.setView v).bank = n.bank := rfl
@[simp] theorem Node.setView_tx (v : View) : (n.setView v).tx = n.tx := rfl
@[simp] theorem Node.setView_cmd (v : View) : (n.setView v).cmd = n.cmd := rfl
@[simp] theorem Node.setView_pub (v : View) : (n.setView v).pub = n.pub := rfl
@[simp] theorem Node.setView_ev (v : View) : (n.setView v).ev = n.ev := rfl
@[simp] theorem Node.setView_free (v : View) : (n.setView v).free = n.free := rfl

@[simp] theorem Node.setTanks_now (v : Tanks) : (n.setTanks v).now = n.now := rfl
@[simp] theorem Node.setTanks_held (v : Tanks) : (n.setTanks v).held = n.held := rfl
@[simp] theorem Node.setTanks_cause (v : Tanks) : (n.setTanks v).cause = n.cause := rfl
@[simp] theorem Node.setTanks_checked (v : Tanks) : (n.setTanks v).checked = n.checked := rfl
@[simp] theorem Node.setTanks_station (v : Tanks) : (n.setTanks v).station = n.station := rfl
@[simp] theorem Node.setTanks_state (v : Tanks) : (n.setTanks v).state = n.state := rfl
@[simp] theorem Node.setTanks_faultPin (v : Tanks) : (n.setTanks v).faultPin = n.faultPin := rfl
@[simp] theorem Node.setTanks_cfg (v : Tanks) : (n.setTanks v).cfg = n.cfg := rfl
@[simp] theorem Node.setTanks_battery (v : Tanks) : (n.setTanks v).battery = n.battery := rfl
@[simp] theorem Node.setTanks_view (v : Tanks) : (n.setTanks v).view = n.view := rfl
@[simp] theorem Node.setTanks_claims (v : Tanks) : (n.setTanks v).claims = n.claims := rfl
@[simp] theorem Node.setTanks_tanks (v : Tanks) : (n.setTanks v).tanks = v := rfl
@[simp] theorem Node.setTanks_pump (v : Tanks) : (n.setTanks v).pump = n.pump := rfl
@[simp] theorem Node.setTanks_frost (v : Tanks) : (n.setTanks v).frost = n.frost := rfl
@[simp] theorem Node.setTanks_heater (v : Tanks) : (n.setTanks v).heater = n.heater := rfl
@[simp] theorem Node.setTanks_motion (v : Tanks) : (n.setTanks v).motion = n.motion := rfl
@[simp] theorem Node.setTanks_wind (v : Tanks) : (n.setTanks v).wind = n.wind := rfl
@[simp] theorem Node.setTanks_lights (v : Tanks) : (n.setTanks v).lights = n.lights := rfl
@[simp] theorem Node.setTanks_bank (v : Tanks) : (n.setTanks v).bank = n.bank := rfl
@[simp] theorem Node.setTanks_tx (v : Tanks) : (n.setTanks v).tx = n.tx := rfl
@[simp] theorem Node.setTanks_cmd (v : Tanks) : (n.setTanks v).cmd = n.cmd := rfl
@[simp] theorem Node.setTanks_pub (v : Tanks) : (n.setTanks v).pub = n.pub := rfl
@[simp] theorem Node.setTanks_ev (v : Tanks) : (n.setTanks v).ev = n.ev := rfl
@[simp] theorem Node.setTanks_free (v : Tanks) : (n.setTanks v).free = n.free := rfl

@[simp] theorem Node.setPump_now (v : Pump) : (n.setPump v).now = n.now := rfl
@[simp] theorem Node.setPump_held (v : Pump) : (n.setPump v).held = n.held := rfl
@[simp] theorem Node.setPump_cause (v : Pump) : (n.setPump v).cause = n.cause := rfl
@[simp] theorem Node.setPump_checked (v : Pump) : (n.setPump v).checked = n.checked := rfl
@[simp] theorem Node.setPump_station (v : Pump) : (n.setPump v).station = n.station := rfl
@[simp] theorem Node.setPump_state (v : Pump) : (n.setPump v).state = n.state := rfl
@[simp] theorem Node.setPump_faultPin (v : Pump) : (n.setPump v).faultPin = n.faultPin := rfl
@[simp] theorem Node.setPump_cfg (v : Pump) : (n.setPump v).cfg = n.cfg := rfl
@[simp] theorem Node.setPump_battery (v : Pump) : (n.setPump v).battery = n.battery := rfl
@[simp] theorem Node.setPump_view (v : Pump) : (n.setPump v).view = n.view := rfl
@[simp] theorem Node.setPump_claims (v : Pump) : (n.setPump v).claims = n.claims := rfl
@[simp] theorem Node.setPump_tanks (v : Pump) : (n.setPump v).tanks = n.tanks := rfl
@[simp] theorem Node.setPump_pump (v : Pump) : (n.setPump v).pump = v := rfl
@[simp] theorem Node.setPump_frost (v : Pump) : (n.setPump v).frost = n.frost := rfl
@[simp] theorem Node.setPump_heater (v : Pump) : (n.setPump v).heater = n.heater := rfl
@[simp] theorem Node.setPump_motion (v : Pump) : (n.setPump v).motion = n.motion := rfl
@[simp] theorem Node.setPump_wind (v : Pump) : (n.setPump v).wind = n.wind := rfl
@[simp] theorem Node.setPump_lights (v : Pump) : (n.setPump v).lights = n.lights := rfl
@[simp] theorem Node.setPump_bank (v : Pump) : (n.setPump v).bank = n.bank := rfl
@[simp] theorem Node.setPump_tx (v : Pump) : (n.setPump v).tx = n.tx := rfl
@[simp] theorem Node.setPump_cmd (v : Pump) : (n.setPump v).cmd = n.cmd := rfl
@[simp] theorem Node.setPump_pub (v : Pump) : (n.setPump v).pub = n.pub := rfl
@[simp] theorem Node.setPump_ev (v : Pump) : (n.setPump v).ev = n.ev := rfl
@[simp] theorem Node.setPump_free (v : Pump) : (n.setPump v).free = n.free := rfl

@[simp] theorem Node.setFrost_now (v : Frost) : (n.setFrost v).now = n.now := rfl
@[simp] theorem Node.setFrost_held (v : Frost) : (n.setFrost v).held = n.held := rfl
@[simp] theorem Node.setFrost_cause (v : Frost) : (n.setFrost v).cause = n.cause := rfl
@[simp] theorem Node.setFrost_checked (v : Frost) : (n.setFrost v).checked = n.checked := rfl
@[simp] theorem Node.setFrost_station (v : Frost) : (n.setFrost v).station = n.station := rfl
@[simp] theorem Node.setFrost_state (v : Frost) : (n.setFrost v).state = n.state := rfl
@[simp] theorem Node.setFrost_faultPin (v : Frost) : (n.setFrost v).faultPin = n.faultPin := rfl
@[simp] theorem Node.setFrost_cfg (v : Frost) : (n.setFrost v).cfg = n.cfg := rfl
@[simp] theorem Node.setFrost_battery (v : Frost) : (n.setFrost v).battery = n.battery := rfl
@[simp] theorem Node.setFrost_view (v : Frost) : (n.setFrost v).view = n.view := rfl
@[simp] theorem Node.setFrost_claims (v : Frost) : (n.setFrost v).claims = n.claims := rfl
@[simp] theorem Node.setFrost_tanks (v : Frost) : (n.setFrost v).tanks = n.tanks := rfl
@[simp] theorem Node.setFrost_pump (v : Frost) : (n.setFrost v).pump = n.pump := rfl
@[simp] theorem Node.setFrost_frost (v : Frost) : (n.setFrost v).frost = v := rfl
@[simp] theorem Node.setFrost_heater (v : Frost) : (n.setFrost v).heater = n.heater := rfl
@[simp] theorem Node.setFrost_motion (v : Frost) : (n.setFrost v).motion = n.motion := rfl
@[simp] theorem Node.setFrost_wind (v : Frost) : (n.setFrost v).wind = n.wind := rfl
@[simp] theorem Node.setFrost_lights (v : Frost) : (n.setFrost v).lights = n.lights := rfl
@[simp] theorem Node.setFrost_bank (v : Frost) : (n.setFrost v).bank = n.bank := rfl
@[simp] theorem Node.setFrost_tx (v : Frost) : (n.setFrost v).tx = n.tx := rfl
@[simp] theorem Node.setFrost_cmd (v : Frost) : (n.setFrost v).cmd = n.cmd := rfl
@[simp] theorem Node.setFrost_pub (v : Frost) : (n.setFrost v).pub = n.pub := rfl
@[simp] theorem Node.setFrost_ev (v : Frost) : (n.setFrost v).ev = n.ev := rfl
@[simp] theorem Node.setFrost_free (v : Frost) : (n.setFrost v).free = n.free := rfl

@[simp] theorem Node.setHeater_now (v : Heater) : (n.setHeater v).now = n.now := rfl
@[simp] theorem Node.setHeater_held (v : Heater) : (n.setHeater v).held = n.held := rfl
@[simp] theorem Node.setHeater_cause (v : Heater) : (n.setHeater v).cause = n.cause := rfl
@[simp] theorem Node.setHeater_checked (v : Heater) : (n.setHeater v).checked = n.checked := rfl
@[simp] theorem Node.setHeater_station (v : Heater) : (n.setHeater v).station = n.station := rfl
@[simp] theorem Node.setHeater_state (v : Heater) : (n.setHeater v).state = n.state := rfl
@[simp] theorem Node.setHeater_faultPin (v : Heater) : (n.setHeater v).faultPin = n.faultPin := rfl
@[simp] theorem Node.setHeater_cfg (v : Heater) : (n.setHeater v).cfg = n.cfg := rfl
@[simp] theorem Node.setHeater_battery (v : Heater) : (n.setHeater v).battery = n.battery := rfl
@[simp] theorem Node.setHeater_view (v : Heater) : (n.setHeater v).view = n.view := rfl
@[simp] theorem Node.setHeater_claims (v : Heater) : (n.setHeater v).claims = n.claims := rfl
@[simp] theorem Node.setHeater_tanks (v : Heater) : (n.setHeater v).tanks = n.tanks := rfl
@[simp] theorem Node.setHeater_pump (v : Heater) : (n.setHeater v).pump = n.pump := rfl
@[simp] theorem Node.setHeater_frost (v : Heater) : (n.setHeater v).frost = n.frost := rfl
@[simp] theorem Node.setHeater_heater (v : Heater) : (n.setHeater v).heater = v := rfl
@[simp] theorem Node.setHeater_motion (v : Heater) : (n.setHeater v).motion = n.motion := rfl
@[simp] theorem Node.setHeater_wind (v : Heater) : (n.setHeater v).wind = n.wind := rfl
@[simp] theorem Node.setHeater_lights (v : Heater) : (n.setHeater v).lights = n.lights := rfl
@[simp] theorem Node.setHeater_bank (v : Heater) : (n.setHeater v).bank = n.bank := rfl
@[simp] theorem Node.setHeater_tx (v : Heater) : (n.setHeater v).tx = n.tx := rfl
@[simp] theorem Node.setHeater_cmd (v : Heater) : (n.setHeater v).cmd = n.cmd := rfl
@[simp] theorem Node.setHeater_pub (v : Heater) : (n.setHeater v).pub = n.pub := rfl
@[simp] theorem Node.setHeater_ev (v : Heater) : (n.setHeater v).ev = n.ev := rfl
@[simp] theorem Node.setHeater_free (v : Heater) : (n.setHeater v).free = n.free := rfl

@[simp] theorem Node.setMotion_now (v : Motion) : (n.setMotion v).now = n.now := rfl
@[simp] theorem Node.setMotion_held (v : Motion) : (n.setMotion v).held = n.held := rfl
@[simp] theorem Node.setMotion_cause (v : Motion) : (n.setMotion v).cause = n.cause := rfl
@[simp] theorem Node.setMotion_checked (v : Motion) : (n.setMotion v).checked = n.checked := rfl
@[simp] theorem Node.setMotion_station (v : Motion) : (n.setMotion v).station = n.station := rfl
@[simp] theorem Node.setMotion_state (v : Motion) : (n.setMotion v).state = n.state := rfl
@[simp] theorem Node.setMotion_faultPin (v : Motion) : (n.setMotion v).faultPin = n.faultPin := rfl
@[simp] theorem Node.setMotion_cfg (v : Motion) : (n.setMotion v).cfg = n.cfg := rfl
@[simp] theorem Node.setMotion_battery (v : Motion) : (n.setMotion v).battery = n.battery := rfl
@[simp] theorem Node.setMotion_view (v : Motion) : (n.setMotion v).view = n.view := rfl
@[simp] theorem Node.setMotion_claims (v : Motion) : (n.setMotion v).claims = n.claims := rfl
@[simp] theorem Node.setMotion_tanks (v : Motion) : (n.setMotion v).tanks = n.tanks := rfl
@[simp] theorem Node.setMotion_pump (v : Motion) : (n.setMotion v).pump = n.pump := rfl
@[simp] theorem Node.setMotion_frost (v : Motion) : (n.setMotion v).frost = n.frost := rfl
@[simp] theorem Node.setMotion_heater (v : Motion) : (n.setMotion v).heater = n.heater := rfl
@[simp] theorem Node.setMotion_motion (v : Motion) : (n.setMotion v).motion = v := rfl
@[simp] theorem Node.setMotion_wind (v : Motion) : (n.setMotion v).wind = n.wind := rfl
@[simp] theorem Node.setMotion_lights (v : Motion) : (n.setMotion v).lights = n.lights := rfl
@[simp] theorem Node.setMotion_bank (v : Motion) : (n.setMotion v).bank = n.bank := rfl
@[simp] theorem Node.setMotion_tx (v : Motion) : (n.setMotion v).tx = n.tx := rfl
@[simp] theorem Node.setMotion_cmd (v : Motion) : (n.setMotion v).cmd = n.cmd := rfl
@[simp] theorem Node.setMotion_pub (v : Motion) : (n.setMotion v).pub = n.pub := rfl
@[simp] theorem Node.setMotion_ev (v : Motion) : (n.setMotion v).ev = n.ev := rfl
@[simp] theorem Node.setMotion_free (v : Motion) : (n.setMotion v).free = n.free := rfl

@[simp] theorem Node.setWind_now (v : Wind) : (n.setWind v).now = n.now := rfl
@[simp] theorem Node.setWind_held (v : Wind) : (n.setWind v).held = n.held := rfl
@[simp] theorem Node.setWind_cause (v : Wind) : (n.setWind v).cause = n.cause := rfl
@[simp] theorem Node.setWind_checked (v : Wind) : (n.setWind v).checked = n.checked := rfl
@[simp] theorem Node.setWind_station (v : Wind) : (n.setWind v).station = n.station := rfl
@[simp] theorem Node.setWind_state (v : Wind) : (n.setWind v).state = n.state := rfl
@[simp] theorem Node.setWind_faultPin (v : Wind) : (n.setWind v).faultPin = n.faultPin := rfl
@[simp] theorem Node.setWind_cfg (v : Wind) : (n.setWind v).cfg = n.cfg := rfl
@[simp] theorem Node.setWind_battery (v : Wind) : (n.setWind v).battery = n.battery := rfl
@[simp] theorem Node.setWind_view (v : Wind) : (n.setWind v).view = n.view := rfl
@[simp] theorem Node.setWind_claims (v : Wind) : (n.setWind v).claims = n.claims := rfl
@[simp] theorem Node.setWind_tanks (v : Wind) : (n.setWind v).tanks = n.tanks := rfl
@[simp] theorem Node.setWind_pump (v : Wind) : (n.setWind v).pump = n.pump := rfl
@[simp] theorem Node.setWind_frost (v : Wind) : (n.setWind v).frost = n.frost := rfl
@[simp] theorem Node.setWind_heater (v : Wind) : (n.setWind v).heater = n.heater := rfl
@[simp] theorem Node.setWind_motion (v : Wind) : (n.setWind v).motion = n.motion := rfl
@[simp] theorem Node.setWind_wind (v : Wind) : (n.setWind v).wind = v := rfl
@[simp] theorem Node.setWind_lights (v : Wind) : (n.setWind v).lights = n.lights := rfl
@[simp] theorem Node.setWind_bank (v : Wind) : (n.setWind v).bank = n.bank := rfl
@[simp] theorem Node.setWind_tx (v : Wind) : (n.setWind v).tx = n.tx := rfl
@[simp] theorem Node.setWind_cmd (v : Wind) : (n.setWind v).cmd = n.cmd := rfl
@[simp] theorem Node.setWind_pub (v : Wind) : (n.setWind v).pub = n.pub := rfl
@[simp] theorem Node.setWind_ev (v : Wind) : (n.setWind v).ev = n.ev := rfl
@[simp] theorem Node.setWind_free (v : Wind) : (n.setWind v).free = n.free := rfl

@[simp] theorem Node.setLights_now (v : Lights) : (n.setLights v).now = n.now := rfl
@[simp] theorem Node.setLights_held (v : Lights) : (n.setLights v).held = n.held := rfl
@[simp] theorem Node.setLights_cause (v : Lights) : (n.setLights v).cause = n.cause := rfl
@[simp] theorem Node.setLights_checked (v : Lights) : (n.setLights v).checked = n.checked := rfl
@[simp] theorem Node.setLights_station (v : Lights) : (n.setLights v).station = n.station := rfl
@[simp] theorem Node.setLights_state (v : Lights) : (n.setLights v).state = n.state := rfl
@[simp] theorem Node.setLights_faultPin (v : Lights) : (n.setLights v).faultPin = n.faultPin := rfl
@[simp] theorem Node.setLights_cfg (v : Lights) : (n.setLights v).cfg = n.cfg := rfl
@[simp] theorem Node.setLights_battery (v : Lights) : (n.setLights v).battery = n.battery := rfl
@[simp] theorem Node.setLights_view (v : Lights) : (n.setLights v).view = n.view := rfl
@[simp] theorem Node.setLights_claims (v : Lights) : (n.setLights v).claims = n.claims := rfl
@[simp] theorem Node.setLights_tanks (v : Lights) : (n.setLights v).tanks = n.tanks := rfl
@[simp] theorem Node.setLights_pump (v : Lights) : (n.setLights v).pump = n.pump := rfl
@[simp] theorem Node.setLights_frost (v : Lights) : (n.setLights v).frost = n.frost := rfl
@[simp] theorem Node.setLights_heater (v : Lights) : (n.setLights v).heater = n.heater := rfl
@[simp] theorem Node.setLights_motion (v : Lights) : (n.setLights v).motion = n.motion := rfl
@[simp] theorem Node.setLights_wind (v : Lights) : (n.setLights v).wind = n.wind := rfl
@[simp] theorem Node.setLights_lights (v : Lights) : (n.setLights v).lights = v := rfl
@[simp] theorem Node.setLights_bank (v : Lights) : (n.setLights v).bank = n.bank := rfl
@[simp] theorem Node.setLights_tx (v : Lights) : (n.setLights v).tx = n.tx := rfl
@[simp] theorem Node.setLights_cmd (v : Lights) : (n.setLights v).cmd = n.cmd := rfl
@[simp] theorem Node.setLights_pub (v : Lights) : (n.setLights v).pub = n.pub := rfl
@[simp] theorem Node.setLights_ev (v : Lights) : (n.setLights v).ev = n.ev := rfl
@[simp] theorem Node.setLights_free (v : Lights) : (n.setLights v).free = n.free := rfl

@[simp] theorem Node.setBank_now (v : Bank) : (n.setBank v).now = n.now := rfl
@[simp] theorem Node.setBank_held (v : Bank) : (n.setBank v).held = n.held := rfl
@[simp] theorem Node.setBank_cause (v : Bank) : (n.setBank v).cause = n.cause := rfl
@[simp] theorem Node.setBank_checked (v : Bank) : (n.setBank v).checked = n.checked := rfl
@[simp] theorem Node.setBank_station (v : Bank) : (n.setBank v).station = n.station := rfl
@[simp] theorem Node.setBank_state (v : Bank) : (n.setBank v).state = n.state := rfl
@[simp] theorem Node.setBank_faultPin (v : Bank) : (n.setBank v).faultPin = n.faultPin := rfl
@[simp] theorem Node.setBank_cfg (v : Bank) : (n.setBank v).cfg = n.cfg := rfl
@[simp] theorem Node.setBank_battery (v : Bank) : (n.setBank v).battery = n.battery := rfl
@[simp] theorem Node.setBank_view (v : Bank) : (n.setBank v).view = n.view := rfl
@[simp] theorem Node.setBank_claims (v : Bank) : (n.setBank v).claims = n.claims := rfl
@[simp] theorem Node.setBank_tanks (v : Bank) : (n.setBank v).tanks = n.tanks := rfl
@[simp] theorem Node.setBank_pump (v : Bank) : (n.setBank v).pump = n.pump := rfl
@[simp] theorem Node.setBank_frost (v : Bank) : (n.setBank v).frost = n.frost := rfl
@[simp] theorem Node.setBank_heater (v : Bank) : (n.setBank v).heater = n.heater := rfl
@[simp] theorem Node.setBank_motion (v : Bank) : (n.setBank v).motion = n.motion := rfl
@[simp] theorem Node.setBank_wind (v : Bank) : (n.setBank v).wind = n.wind := rfl
@[simp] theorem Node.setBank_lights (v : Bank) : (n.setBank v).lights = n.lights := rfl
@[simp] theorem Node.setBank_bank (v : Bank) : (n.setBank v).bank = v := rfl
@[simp] theorem Node.setBank_tx (v : Bank) : (n.setBank v).tx = n.tx := rfl
@[simp] theorem Node.setBank_cmd (v : Bank) : (n.setBank v).cmd = n.cmd := rfl
@[simp] theorem Node.setBank_pub (v : Bank) : (n.setBank v).pub = n.pub := rfl
@[simp] theorem Node.setBank_ev (v : Bank) : (n.setBank v).ev = n.ev := rfl
@[simp] theorem Node.setBank_free (v : Bank) : (n.setBank v).free = n.free := rfl

@[simp] theorem Node.setTx_now (v : Transmitter) : (n.setTx v).now = n.now := rfl
@[simp] theorem Node.setTx_held (v : Transmitter) : (n.setTx v).held = n.held := rfl
@[simp] theorem Node.setTx_cause (v : Transmitter) : (n.setTx v).cause = n.cause := rfl
@[simp] theorem Node.setTx_checked (v : Transmitter) : (n.setTx v).checked = n.checked := rfl
@[simp] theorem Node.setTx_station (v : Transmitter) : (n.setTx v).station = n.station := rfl
@[simp] theorem Node.setTx_state (v : Transmitter) : (n.setTx v).state = n.state := rfl
@[simp] theorem Node.setTx_faultPin (v : Transmitter) : (n.setTx v).faultPin = n.faultPin := rfl
@[simp] theorem Node.setTx_cfg (v : Transmitter) : (n.setTx v).cfg = n.cfg := rfl
@[simp] theorem Node.setTx_battery (v : Transmitter) : (n.setTx v).battery = n.battery := rfl
@[simp] theorem Node.setTx_view (v : Transmitter) : (n.setTx v).view = n.view := rfl
@[simp] theorem Node.setTx_claims (v : Transmitter) : (n.setTx v).claims = n.claims := rfl
@[simp] theorem Node.setTx_tanks (v : Transmitter) : (n.setTx v).tanks = n.tanks := rfl
@[simp] theorem Node.setTx_pump (v : Transmitter) : (n.setTx v).pump = n.pump := rfl
@[simp] theorem Node.setTx_frost (v : Transmitter) : (n.setTx v).frost = n.frost := rfl
@[simp] theorem Node.setTx_heater (v : Transmitter) : (n.setTx v).heater = n.heater := rfl
@[simp] theorem Node.setTx_motion (v : Transmitter) : (n.setTx v).motion = n.motion := rfl
@[simp] theorem Node.setTx_wind (v : Transmitter) : (n.setTx v).wind = n.wind := rfl
@[simp] theorem Node.setTx_lights (v : Transmitter) : (n.setTx v).lights = n.lights := rfl
@[simp] theorem Node.setTx_bank (v : Transmitter) : (n.setTx v).bank = n.bank := rfl
@[simp] theorem Node.setTx_tx (v : Transmitter) : (n.setTx v).tx = v := rfl
@[simp] theorem Node.setTx_cmd (v : Transmitter) : (n.setTx v).cmd = n.cmd := rfl
@[simp] theorem Node.setTx_pub (v : Transmitter) : (n.setTx v).pub = n.pub := rfl
@[simp] theorem Node.setTx_ev (v : Transmitter) : (n.setTx v).ev = n.ev := rfl
@[simp] theorem Node.setTx_free (v : Transmitter) : (n.setTx v).free = n.free := rfl

@[simp] theorem Node.setCmd_now (v : CommandUnit) : (n.setCmd v).now = n.now := rfl
@[simp] theorem Node.setCmd_held (v : CommandUnit) : (n.setCmd v).held = n.held := rfl
@[simp] theorem Node.setCmd_cause (v : CommandUnit) : (n.setCmd v).cause = n.cause := rfl
@[simp] theorem Node.setCmd_checked (v : CommandUnit) : (n.setCmd v).checked = n.checked := rfl
@[simp] theorem Node.setCmd_station (v : CommandUnit) : (n.setCmd v).station = n.station := rfl
@[simp] theorem Node.setCmd_state (v : CommandUnit) : (n.setCmd v).state = n.state := rfl
@[simp] theorem Node.setCmd_faultPin (v : CommandUnit) : (n.setCmd v).faultPin = n.faultPin := rfl
@[simp] theorem Node.setCmd_cfg (v : CommandUnit) : (n.setCmd v).cfg = n.cfg := rfl
@[simp] theorem Node.setCmd_battery (v : CommandUnit) : (n.setCmd v).battery = n.battery := rfl
@[simp] theorem Node.setCmd_view (v : CommandUnit) : (n.setCmd v).view = n.view := rfl
@[simp] theorem Node.setCmd_claims (v : CommandUnit) : (n.setCmd v).claims = n.claims := rfl
@[simp] theorem Node.setCmd_tanks (v : CommandUnit) : (n.setCmd v).tanks = n.tanks := rfl
@[simp] theorem Node.setCmd_pump (v : CommandUnit) : (n.setCmd v).pump = n.pump := rfl
@[simp] theorem Node.setCmd_frost (v : CommandUnit) : (n.setCmd v).frost = n.frost := rfl
@[simp] theorem Node.setCmd_heater (v : CommandUnit) : (n.setCmd v).heater = n.heater := rfl
@[simp] theorem Node.setCmd_motion (v : CommandUnit) : (n.setCmd v).motion = n.motion := rfl
@[simp] theorem Node.setCmd_wind (v : CommandUnit) : (n.setCmd v).wind = n.wind := rfl
@[simp] theorem Node.setCmd_lights (v : CommandUnit) : (n.setCmd v).lights = n.lights := rfl
@[simp] theorem Node.setCmd_bank (v : CommandUnit) : (n.setCmd v).bank = n.bank := rfl
@[simp] theorem Node.setCmd_tx (v : CommandUnit) : (n.setCmd v).tx = n.tx := rfl
@[simp] theorem Node.setCmd_cmd (v : CommandUnit) : (n.setCmd v).cmd = v := rfl
@[simp] theorem Node.setCmd_pub (v : CommandUnit) : (n.setCmd v).pub = n.pub := rfl
@[simp] theorem Node.setCmd_ev (v : CommandUnit) : (n.setCmd v).ev = n.ev := rfl
@[simp] theorem Node.setCmd_free (v : CommandUnit) : (n.setCmd v).free = n.free := rfl

@[simp] theorem Node.setPub_now (v : Published) : (n.setPub v).now = n.now := rfl
@[simp] theorem Node.setPub_held (v : Published) : (n.setPub v).held = n.held := rfl
@[simp] theorem Node.setPub_cause (v : Published) : (n.setPub v).cause = n.cause := rfl
@[simp] theorem Node.setPub_checked (v : Published) : (n.setPub v).checked = n.checked := rfl
@[simp] theorem Node.setPub_station (v : Published) : (n.setPub v).station = n.station := rfl
@[simp] theorem Node.setPub_state (v : Published) : (n.setPub v).state = n.state := rfl
@[simp] theorem Node.setPub_faultPin (v : Published) : (n.setPub v).faultPin = n.faultPin := rfl
@[simp] theorem Node.setPub_cfg (v : Published) : (n.setPub v).cfg = n.cfg := rfl
@[simp] theorem Node.setPub_battery (v : Published) : (n.setPub v).battery = n.battery := rfl
@[simp] theorem Node.setPub_view (v : Published) : (n.setPub v).view = n.view := rfl
@[simp] theorem Node.setPub_claims (v : Published) : (n.setPub v).claims = n.claims := rfl
@[simp] theorem Node.setPub_tanks (v : Published) : (n.setPub v).tanks = n.tanks := rfl
@[simp] theorem Node.setPub_pump (v : Published) : (n.setPub v).pump = n.pump := rfl
@[simp] theorem Node.setPub_frost (v : Published) : (n.setPub v).frost = n.frost := rfl
@[simp] theorem Node.setPub_heater (v : Published) : (n.setPub v).heater = n.heater := rfl
@[simp] theorem Node.setPub_motion (v : Published) : (n.setPub v).motion = n.motion := rfl
@[simp] theorem Node.setPub_wind (v : Published) : (n.setPub v).wind = n.wind := rfl
@[simp] theorem Node.setPub_lights (v : Published) : (n.setPub v).lights = n.lights := rfl
@[simp] theorem Node.setPub_bank (v : Published) : (n.setPub v).bank = n.bank := rfl
@[simp] theorem Node.setPub_tx (v : Published) : (n.setPub v).tx = n.tx := rfl
@[simp] theorem Node.setPub_cmd (v : Published) : (n.setPub v).cmd = n.cmd := rfl
@[simp] theorem Node.setPub_pub (v : Published) : (n.setPub v).pub = v := rfl
@[simp] theorem Node.setPub_ev (v : Published) : (n.setPub v).ev = n.ev := rfl
@[simp] theorem Node.setPub_free (v : Published) : (n.setPub v).free = n.free := rfl

@[simp] theorem Node.setEv_now (v : Event) : (n.setEv v).now = n.now := rfl
@[simp] theorem Node.setEv_held (v : Event) : (n.setEv v).held = n.held := rfl
@[simp] theorem Node.setEv_cause (v : Event) : (n.setEv v).cause = n.cause := rfl
@[simp] theorem Node.setEv_checked (v : Event) : (n.setEv v).checked = n.checked := rfl
@[simp] theorem Node.setEv_station (v : Event) : (n.setEv v).station = n.station := rfl
@[simp] theorem Node.setEv_state (v : Event) : (n.setEv v).state = n.state := rfl
@[simp] theorem Node.setEv_faultPin (v : Event) : (n.setEv v).faultPin = n.faultPin := rfl
@[simp] theorem Node.setEv_cfg (v : Event) : (n.setEv v).cfg = n.cfg := rfl
@[simp] theorem Node.setEv_battery (v : Event) : (n.setEv v).battery = n.battery := rfl
@[simp] theorem Node.setEv_view (v : Event) : (n.setEv v).view = n.view := rfl
@[simp] theorem Node.setEv_claims (v : Event) : (n.setEv v).claims = n.claims := rfl
@[simp] theorem Node.setEv_tanks (v : Event) : (n.setEv v).tanks = n.tanks := rfl
@[simp] theorem Node.setEv_pump (v : Event) : (n.setEv v).pump = n.pump := rfl
@[simp] theorem Node.setEv_frost (v : Event) : (n.setEv v).frost = n.frost := rfl
@[simp] theorem Node.setEv_heater (v : Event) : (n.setEv v).heater = n.heater := rfl
@[simp] theorem Node.setEv_motion (v : Event) : (n.setEv v).motion = n.motion := rfl
@[simp] theorem Node.setEv_wind (v : Event) : (n.setEv v).wind = n.wind := rfl
@[simp] theorem Node.setEv_lights (v : Event) : (n.setEv v).lights = n.lights := rfl
@[simp] theorem Node.setEv_bank (v : Event) : (n.setEv v).bank = n.bank := rfl
@[simp] theorem Node.setEv_tx (v : Event) : (n.setEv v).tx = n.tx := rfl
@[simp] theorem Node.setEv_cmd (v : Event) : (n.setEv v).cmd = n.cmd := rfl
@[simp] theorem Node.setEv_pub (v : Event) : (n.setEv v).pub = n.pub := rfl
@[simp] theorem Node.setEv_ev (v : Event) : (n.setEv v).ev = v := rfl
@[simp] theorem Node.setEv_free (v : Event) : (n.setEv v).free = n.free := rfl

@[simp] theorem Node.setClaim_now (i : Fin 8) (v : Claim) : (n.setClaim i v).now = n.now := rfl
@[simp] theorem Node.setClaim_held (i : Fin 8) (v : Claim) : (n.setClaim i v).held = n.held := rfl
@[simp] theorem Node.setClaim_cause (i : Fin 8) (v : Claim) : (n.setClaim i v).cause = n.cause := rfl
@[simp] theorem Node.setClaim_checked (i : Fin 8) (v : Claim) : (n.setClaim i v).checked = n.checked := rfl
@[simp] theorem Node.setClaim_station (i : Fin 8) (v : Claim) : (n.setClaim i v).station = n.station := rfl
@[simp] theorem Node.setClaim_state (i : Fin 8) (v : Claim) : (n.setClaim i v).state = n.state := rfl
@[simp] theorem Node.setClaim_faultPin (i : Fin 8) (v : Claim) : (n.setClaim i v).faultPin = n.faultPin := rfl
@[simp] theorem Node.setClaim_cfg (i : Fin 8) (v : Claim) : (n.setClaim i v).cfg = n.cfg := rfl
@[simp] theorem Node.setClaim_battery (i : Fin 8) (v : Claim) : (n.setClaim i v).battery = n.battery := rfl
@[simp] theorem Node.setClaim_view (i : Fin 8) (v : Claim) : (n.setClaim i v).view = n.view := rfl
@[simp] theorem Node.setClaim_claims (i : Fin 8) (v : Claim) : (n.setClaim i v).claims = n.claims.set i v := rfl
@[simp] theorem Node.setClaim_tanks (i : Fin 8) (v : Claim) : (n.setClaim i v).tanks = n.tanks := rfl
@[simp] theorem Node.setClaim_pump (i : Fin 8) (v : Claim) : (n.setClaim i v).pump = n.pump := rfl
@[simp] theorem Node.setClaim_frost (i : Fin 8) (v : Claim) : (n.setClaim i v).frost = n.frost := rfl
@[simp] theorem Node.setClaim_heater (i : Fin 8) (v : Claim) : (n.setClaim i v).heater = n.heater := rfl
@[simp] theorem Node.setClaim_motion (i : Fin 8) (v : Claim) : (n.setClaim i v).motion = n.motion := rfl
@[simp] theorem Node.setClaim_wind (i : Fin 8) (v : Claim) : (n.setClaim i v).wind = n.wind := rfl
@[simp] theorem Node.setClaim_lights (i : Fin 8) (v : Claim) : (n.setClaim i v).lights = n.lights := rfl
@[simp] theorem Node.setClaim_bank (i : Fin 8) (v : Claim) : (n.setClaim i v).bank = n.bank := rfl
@[simp] theorem Node.setClaim_tx (i : Fin 8) (v : Claim) : (n.setClaim i v).tx = n.tx := rfl
@[simp] theorem Node.setClaim_cmd (i : Fin 8) (v : Claim) : (n.setClaim i v).cmd = n.cmd := rfl
@[simp] theorem Node.setClaim_pub (i : Fin 8) (v : Claim) : (n.setClaim i v).pub = n.pub := rfl
@[simp] theorem Node.setClaim_ev (i : Fin 8) (v : Claim) : (n.setClaim i v).ev = n.ev := rfl
@[simp] theorem Node.setClaim_free (i : Fin 8) (v : Claim) : (n.setClaim i v).free = n.free := rfl

@[simp] theorem Node.setChan_now (i : Fin 16) (v : Channel) : (n.setChan i v).now = n.now := rfl
@[simp] theorem Node.setChan_held (i : Fin 16) (v : Channel) : (n.setChan i v).held = n.held := rfl
@[simp] theorem Node.setChan_cause (i : Fin 16) (v : Channel) : (n.setChan i v).cause = n.cause := rfl
@[simp] theorem Node.setChan_checked (i : Fin 16) (v : Channel) : (n.setChan i v).checked = n.checked := rfl
@[simp] theorem Node.setChan_station (i : Fin 16) (v : Channel) : (n.setChan i v).station = n.station := rfl
@[simp] theorem Node.setChan_state (i : Fin 16) (v : Channel) : (n.setChan i v).state = n.state := rfl
@[simp] theorem Node.setChan_faultPin (i : Fin 16) (v : Channel) : (n.setChan i v).faultPin = n.faultPin := rfl
@[simp] theorem Node.setChan_cfg (i : Fin 16) (v : Channel) : (n.setChan i v).cfg = n.cfg := rfl
@[simp] theorem Node.setChan_battery (i : Fin 16) (v : Channel) : (n.setChan i v).battery = n.battery := rfl
@[simp] theorem Node.setChan_view (i : Fin 16) (v : Channel) : (n.setChan i v).view = n.view := rfl
@[simp] theorem Node.setChan_claims (i : Fin 16) (v : Channel) : (n.setChan i v).claims = n.claims := rfl
@[simp] theorem Node.setChan_tanks (i : Fin 16) (v : Channel) : (n.setChan i v).tanks = n.tanks := rfl
@[simp] theorem Node.setChan_pump (i : Fin 16) (v : Channel) : (n.setChan i v).pump = n.pump := rfl
@[simp] theorem Node.setChan_frost (i : Fin 16) (v : Channel) : (n.setChan i v).frost = n.frost := rfl
@[simp] theorem Node.setChan_heater (i : Fin 16) (v : Channel) : (n.setChan i v).heater = n.heater := rfl
@[simp] theorem Node.setChan_motion (i : Fin 16) (v : Channel) : (n.setChan i v).motion = n.motion := rfl
@[simp] theorem Node.setChan_wind (i : Fin 16) (v : Channel) : (n.setChan i v).wind = n.wind := rfl
@[simp] theorem Node.setChan_lights (i : Fin 16) (v : Channel) : (n.setChan i v).lights = n.lights := rfl
@[simp] theorem Node.setChan_bank (i : Fin 16) (v : Channel) : (n.setChan i v).bank = { n.bank with chans := n.bank.chans.set i v } := rfl
@[simp] theorem Node.setChan_tx (i : Fin 16) (v : Channel) : (n.setChan i v).tx = n.tx := rfl
@[simp] theorem Node.setChan_cmd (i : Fin 16) (v : Channel) : (n.setChan i v).cmd = n.cmd := rfl
@[simp] theorem Node.setChan_pub (i : Fin 16) (v : Channel) : (n.setChan i v).pub = n.pub := rfl
@[simp] theorem Node.setChan_ev (i : Fin 16) (v : Channel) : (n.setChan i v).ev = n.ev := rfl
@[simp] theorem Node.setChan_free (i : Fin 16) (v : Channel) : (n.setChan i v).free = n.free := rfl

@[simp] theorem Node.setBridge_now (u : MotionUnit) (v : Bridge) : (n.setBridge u v).now = n.now := by cases u <;> rfl
@[simp] theorem Node.setBridge_held (u : MotionUnit) (v : Bridge) : (n.setBridge u v).held = n.held := by cases u <;> rfl
@[simp] theorem Node.setBridge_cause (u : MotionUnit) (v : Bridge) : (n.setBridge u v).cause = n.cause := by cases u <;> rfl
@[simp] theorem Node.setBridge_checked (u : MotionUnit) (v : Bridge) : (n.setBridge u v).checked = n.checked := by cases u <;> rfl
@[simp] theorem Node.setBridge_station (u : MotionUnit) (v : Bridge) : (n.setBridge u v).station = n.station := by cases u <;> rfl
@[simp] theorem Node.setBridge_state (u : MotionUnit) (v : Bridge) : (n.setBridge u v).state = n.state := by cases u <;> rfl
@[simp] theorem Node.setBridge_faultPin (u : MotionUnit) (v : Bridge) : (n.setBridge u v).faultPin = n.faultPin := by cases u <;> rfl
@[simp] theorem Node.setBridge_cfg (u : MotionUnit) (v : Bridge) : (n.setBridge u v).cfg = n.cfg := by cases u <;> rfl
@[simp] theorem Node.setBridge_battery (u : MotionUnit) (v : Bridge) : (n.setBridge u v).battery = n.battery := by cases u <;> rfl
@[simp] theorem Node.setBridge_view (u : MotionUnit) (v : Bridge) : (n.setBridge u v).view = n.view := by cases u <;> rfl
@[simp] theorem Node.setBridge_claims (u : MotionUnit) (v : Bridge) : (n.setBridge u v).claims = n.claims := by cases u <;> rfl
@[simp] theorem Node.setBridge_tanks (u : MotionUnit) (v : Bridge) : (n.setBridge u v).tanks = n.tanks := by cases u <;> rfl
@[simp] theorem Node.setBridge_pump (u : MotionUnit) (v : Bridge) : (n.setBridge u v).pump = n.pump := by cases u <;> rfl
@[simp] theorem Node.setBridge_frost (u : MotionUnit) (v : Bridge) : (n.setBridge u v).frost = n.frost := by cases u <;> rfl
@[simp] theorem Node.setBridge_heater (u : MotionUnit) (v : Bridge) : (n.setBridge u v).heater = n.heater := by cases u <;> rfl
@[simp] theorem Node.setBridge_motion (u : MotionUnit) (v : Bridge) : (n.setBridge u v).motion = n.motion := by cases u <;> rfl
@[simp] theorem Node.setBridge_wind (u : MotionUnit) (v : Bridge) : (n.setBridge u v).wind = n.wind := by cases u <;> rfl
@[simp] theorem Node.setBridge_lights (u : MotionUnit) (v : Bridge) : (n.setBridge u v).lights = n.lights := by cases u <;> rfl
@[simp] theorem Node.setBridge_tx (u : MotionUnit) (v : Bridge) : (n.setBridge u v).tx = n.tx := by cases u <;> rfl
@[simp] theorem Node.setBridge_cmd (u : MotionUnit) (v : Bridge) : (n.setBridge u v).cmd = n.cmd := by cases u <;> rfl
@[simp] theorem Node.setBridge_pub (u : MotionUnit) (v : Bridge) : (n.setBridge u v).pub = n.pub := by cases u <;> rfl
@[simp] theorem Node.setBridge_ev (u : MotionUnit) (v : Bridge) : (n.setBridge u v).ev = n.ev := by cases u <;> rfl
@[simp] theorem Node.setBridge_free (u : MotionUnit) (v : Bridge) : (n.setBridge u v).free = n.free := by cases u <;> rfl

@[simp] theorem Node.setUnit_now (u : MotionUnit) (v : MoveUnit) : (n.setUnit u v).now = n.now := by cases u <;> rfl
@[simp] theorem Node.setUnit_held (u : MotionUnit) (v : MoveUnit) : (n.setUnit u v).held = n.held := by cases u <;> rfl
@[simp] theorem Node.setUnit_cause (u : MotionUnit) (v : MoveUnit) : (n.setUnit u v).cause = n.cause := by cases u <;> rfl
@[simp] theorem Node.setUnit_checked (u : MotionUnit) (v : MoveUnit) : (n.setUnit u v).checked = n.checked := by cases u <;> rfl
@[simp] theorem Node.setUnit_station (u : MotionUnit) (v : MoveUnit) : (n.setUnit u v).station = n.station := by cases u <;> rfl
@[simp] theorem Node.setUnit_state (u : MotionUnit) (v : MoveUnit) : (n.setUnit u v).state = n.state := by cases u <;> rfl
@[simp] theorem Node.setUnit_faultPin (u : MotionUnit) (v : MoveUnit) : (n.setUnit u v).faultPin = n.faultPin := by cases u <;> rfl
@[simp] theorem Node.setUnit_cfg (u : MotionUnit) (v : MoveUnit) : (n.setUnit u v).cfg = n.cfg := by cases u <;> rfl
@[simp] theorem Node.setUnit_battery (u : MotionUnit) (v : MoveUnit) : (n.setUnit u v).battery = n.battery := by cases u <;> rfl
@[simp] theorem Node.setUnit_view (u : MotionUnit) (v : MoveUnit) : (n.setUnit u v).view = n.view := by cases u <;> rfl
@[simp] theorem Node.setUnit_claims (u : MotionUnit) (v : MoveUnit) : (n.setUnit u v).claims = n.claims := by cases u <;> rfl
@[simp] theorem Node.setUnit_tanks (u : MotionUnit) (v : MoveUnit) : (n.setUnit u v).tanks = n.tanks := by cases u <;> rfl
@[simp] theorem Node.setUnit_pump (u : MotionUnit) (v : MoveUnit) : (n.setUnit u v).pump = n.pump := by cases u <;> rfl
@[simp] theorem Node.setUnit_frost (u : MotionUnit) (v : MoveUnit) : (n.setUnit u v).frost = n.frost := by cases u <;> rfl
@[simp] theorem Node.setUnit_heater (u : MotionUnit) (v : MoveUnit) : (n.setUnit u v).heater = n.heater := by cases u <;> rfl
@[simp] theorem Node.setUnit_wind (u : MotionUnit) (v : MoveUnit) : (n.setUnit u v).wind = n.wind := by cases u <;> rfl
@[simp] theorem Node.setUnit_lights (u : MotionUnit) (v : MoveUnit) : (n.setUnit u v).lights = n.lights := by cases u <;> rfl
@[simp] theorem Node.setUnit_bank (u : MotionUnit) (v : MoveUnit) : (n.setUnit u v).bank = n.bank := by cases u <;> rfl
@[simp] theorem Node.setUnit_tx (u : MotionUnit) (v : MoveUnit) : (n.setUnit u v).tx = n.tx := by cases u <;> rfl
@[simp] theorem Node.setUnit_cmd (u : MotionUnit) (v : MoveUnit) : (n.setUnit u v).cmd = n.cmd := by cases u <;> rfl
@[simp] theorem Node.setUnit_pub (u : MotionUnit) (v : MoveUnit) : (n.setUnit u v).pub = n.pub := by cases u <;> rfl
@[simp] theorem Node.setUnit_ev (u : MotionUnit) (v : MoveUnit) : (n.setUnit u v).ev = n.ev := by cases u <;> rfl
@[simp] theorem Node.setUnit_free (u : MotionUnit) (v : MoveUnit) : (n.setUnit u v).free = n.free := by cases u <;> rfl

@[simp] theorem Node.setList_now (v : List Entry) : (n.setList v).now = n.now := rfl
@[simp] theorem Node.setList_held (v : List Entry) : (n.setList v).held = n.held := rfl
@[simp] theorem Node.setList_cause (v : List Entry) : (n.setList v).cause = n.cause := rfl
@[simp] theorem Node.setList_checked (v : List Entry) : (n.setList v).checked = n.checked := rfl
@[simp] theorem Node.setList_station (v : List Entry) : (n.setList v).station = n.station := rfl
@[simp] theorem Node.setList_state (v : List Entry) : (n.setList v).state = n.state := rfl
@[simp] theorem Node.setList_faultPin (v : List Entry) : (n.setList v).faultPin = n.faultPin := rfl
@[simp] theorem Node.setList_cfg (v : List Entry) : (n.setList v).cfg = n.cfg := rfl
@[simp] theorem Node.setList_battery (v : List Entry) : (n.setList v).battery = n.battery := rfl
@[simp] theorem Node.setList_view (v : List Entry) : (n.setList v).view = n.view := rfl
@[simp] theorem Node.setList_claims (v : List Entry) : (n.setList v).claims = n.claims := rfl
@[simp] theorem Node.setList_tanks (v : List Entry) : (n.setList v).tanks = n.tanks := rfl
@[simp] theorem Node.setList_pump (v : List Entry) : (n.setList v).pump = n.pump := rfl
@[simp] theorem Node.setList_frost (v : List Entry) : (n.setList v).frost = n.frost := rfl
@[simp] theorem Node.setList_heater (v : List Entry) : (n.setList v).heater = n.heater := rfl
@[simp] theorem Node.setList_motion (v : List Entry) : (n.setList v).motion = { n.motion with list := v } := rfl
@[simp] theorem Node.setList_wind (v : List Entry) : (n.setList v).wind = n.wind := rfl
@[simp] theorem Node.setList_lights (v : List Entry) : (n.setList v).lights = n.lights := rfl
@[simp] theorem Node.setList_bank (v : List Entry) : (n.setList v).bank = n.bank := rfl
@[simp] theorem Node.setList_tx (v : List Entry) : (n.setList v).tx = n.tx := rfl
@[simp] theorem Node.setList_cmd (v : List Entry) : (n.setList v).cmd = n.cmd := rfl
@[simp] theorem Node.setList_pub (v : List Entry) : (n.setList v).pub = n.pub := rfl
@[simp] theorem Node.setList_ev (v : List Entry) : (n.setList v).ev = n.ev := rfl
@[simp] theorem Node.setList_free (v : List Entry) : (n.setList v).free = n.free := rfl

@[simp] theorem Node.setLamps_now (v : List Light) : (n.setLamps v).now = n.now := rfl
@[simp] theorem Node.setLamps_held (v : List Light) : (n.setLamps v).held = n.held := rfl
@[simp] theorem Node.setLamps_cause (v : List Light) : (n.setLamps v).cause = n.cause := rfl
@[simp] theorem Node.setLamps_checked (v : List Light) : (n.setLamps v).checked = n.checked := rfl
@[simp] theorem Node.setLamps_station (v : List Light) : (n.setLamps v).station = n.station := rfl
@[simp] theorem Node.setLamps_state (v : List Light) : (n.setLamps v).state = n.state := rfl
@[simp] theorem Node.setLamps_faultPin (v : List Light) : (n.setLamps v).faultPin = n.faultPin := rfl
@[simp] theorem Node.setLamps_cfg (v : List Light) : (n.setLamps v).cfg = n.cfg := rfl
@[simp] theorem Node.setLamps_battery (v : List Light) : (n.setLamps v).battery = n.battery := rfl
@[simp] theorem Node.setLamps_view (v : List Light) : (n.setLamps v).view = n.view := rfl
@[simp] theorem Node.setLamps_claims (v : List Light) : (n.setLamps v).claims = n.claims := rfl
@[simp] theorem Node.setLamps_tanks (v : List Light) : (n.setLamps v).tanks = n.tanks := rfl
@[simp] theorem Node.setLamps_pump (v : List Light) : (n.setLamps v).pump = n.pump := rfl
@[simp] theorem Node.setLamps_frost (v : List Light) : (n.setLamps v).frost = n.frost := rfl
@[simp] theorem Node.setLamps_heater (v : List Light) : (n.setLamps v).heater = n.heater := rfl
@[simp] theorem Node.setLamps_motion (v : List Light) : (n.setLamps v).motion = n.motion := rfl
@[simp] theorem Node.setLamps_wind (v : List Light) : (n.setLamps v).wind = n.wind := rfl
@[simp] theorem Node.setLamps_lights (v : List Light) : (n.setLamps v).lights = { n.lights with channels := v } := rfl
@[simp] theorem Node.setLamps_bank (v : List Light) : (n.setLamps v).bank = n.bank := rfl
@[simp] theorem Node.setLamps_tx (v : List Light) : (n.setLamps v).tx = n.tx := rfl
@[simp] theorem Node.setLamps_cmd (v : List Light) : (n.setLamps v).cmd = n.cmd := rfl
@[simp] theorem Node.setLamps_pub (v : List Light) : (n.setLamps v).pub = n.pub := rfl
@[simp] theorem Node.setLamps_ev (v : List Light) : (n.setLamps v).ev = n.ev := rfl
@[simp] theorem Node.setLamps_free (v : List Light) : (n.setLamps v).free = n.free := rfl

/-! ## The indexed records -/

theorem Node.claim_setClaim (i j : Fin 8) (v : Claim) :
    (n.setClaim i v).claim j = if i = j then v else n.claim j := by
  simp only [Node.claim, Node.setClaim_claims, Fin.getElem_fin, Vector.getElem_set, Fin.ext_iff]

@[simp] theorem Node.claim_setClaim_self (i : Fin 8) (v : Claim) : (n.setClaim i v).claim i = v := by
  simp [Node.claim_setClaim]

@[simp] theorem Node.claim_setClaim_other {i j : Fin 8} (v : Claim) (h : i ≠ j) :
    (n.setClaim i v).claim j = n.claim j := by
  simp [Node.claim_setClaim, h]

theorem Node.chan_setChan (i j : Fin 16) (v : Channel) :
    (n.setChan i v).chan j = if i = j then v else n.chan j := by
  simp only [Node.chan, Node.setChan_bank, Fin.getElem_fin, Vector.getElem_set, Fin.ext_iff]

@[simp] theorem Node.chan_setChan_self (i : Fin 16) (v : Channel) : (n.setChan i v).chan i = v := by
  simp [Node.chan_setChan]

@[simp] theorem Node.chan_setChan_other {i j : Fin 16} (v : Channel) (h : i ≠ j) :
    (n.setChan i v).chan j = n.chan j := by
  simp [Node.chan_setChan, h]

@[simp] theorem Node.bridge_setBridge_self (u : MotionUnit) (v : Bridge) : (n.setBridge u v).bridge u = v := by
  cases u <;> rfl

@[simp] theorem Node.unit_setUnit_self (u : MotionUnit) (v : MoveUnit) : (n.setUnit u v).unit u = v := by
  cases u <;> rfl

@[simp] theorem Node.setUnit_list (u : MotionUnit) (v : MoveUnit) : (n.setUnit u v).motion.list = n.motion.list := by
  cases u <;> rfl

@[simp] theorem Node.setList_unit (u : MotionUnit) (v : List Entry) : (n.setList v).unit u = n.unit u := by
  cases u <;> rfl

/-! ## The accessors under the updates of other records -/

@[simp] theorem Node.setBattery_claim (v : Battery) (i : Fin 8) : (n.setBattery v).claim i = n.claim i := rfl
@[simp] theorem Node.setBattery_chan (v : Battery) (i : Fin 16) : (n.setBattery v).chan i = n.chan i := rfl
@[simp] theorem Node.setBattery_unit (v : Battery) (u : MotionUnit) : (n.setBattery v).unit u = n.unit u := by cases u <;> rfl
@[simp] theorem Node.setBattery_bridge (v : Battery) (u : MotionUnit) : (n.setBattery v).bridge u = n.bridge u := by cases u <;> rfl
@[simp] theorem Node.setBattery_has (v : Battery) (d : Duty) : (n.setBattery v).has d = n.has d := rfl
@[simp] theorem Node.setBattery_isActive (v : Battery) : (n.setBattery v).isActive = n.isActive := rfl
@[simp] theorem Node.setBattery_validTemp (v : Battery) (i : Fin 4) : (n.setBattery v).validTemp i = n.validTemp i := rfl
@[simp] theorem Node.setView_claim (v : View) (i : Fin 8) : (n.setView v).claim i = n.claim i := rfl
@[simp] theorem Node.setView_chan (v : View) (i : Fin 16) : (n.setView v).chan i = n.chan i := rfl
@[simp] theorem Node.setView_unit (v : View) (u : MotionUnit) : (n.setView v).unit u = n.unit u := by cases u <;> rfl
@[simp] theorem Node.setView_bridge (v : View) (u : MotionUnit) : (n.setView v).bridge u = n.bridge u := by cases u <;> rfl
@[simp] theorem Node.setView_has (v : View) (d : Duty) : (n.setView v).has d = n.has d := rfl
@[simp] theorem Node.setView_isActive (v : View) : (n.setView v).isActive = n.isActive := rfl
@[simp] theorem Node.setView_validTemp (v : View) (i : Fin 4) : (n.setView v).validTemp i = n.validTemp i := rfl
@[simp] theorem Node.setTanks_claim (v : Tanks) (i : Fin 8) : (n.setTanks v).claim i = n.claim i := rfl
@[simp] theorem Node.setTanks_chan (v : Tanks) (i : Fin 16) : (n.setTanks v).chan i = n.chan i := rfl
@[simp] theorem Node.setTanks_unit (v : Tanks) (u : MotionUnit) : (n.setTanks v).unit u = n.unit u := by cases u <;> rfl
@[simp] theorem Node.setTanks_bridge (v : Tanks) (u : MotionUnit) : (n.setTanks v).bridge u = n.bridge u := by cases u <;> rfl
@[simp] theorem Node.setTanks_has (v : Tanks) (d : Duty) : (n.setTanks v).has d = n.has d := rfl
@[simp] theorem Node.setTanks_isActive (v : Tanks) : (n.setTanks v).isActive = n.isActive := rfl
@[simp] theorem Node.setTanks_validTemp (v : Tanks) (i : Fin 4) : (n.setTanks v).validTemp i = n.validTemp i := rfl
@[simp] theorem Node.setPump_claim (v : Pump) (i : Fin 8) : (n.setPump v).claim i = n.claim i := rfl
@[simp] theorem Node.setPump_chan (v : Pump) (i : Fin 16) : (n.setPump v).chan i = n.chan i := rfl
@[simp] theorem Node.setPump_unit (v : Pump) (u : MotionUnit) : (n.setPump v).unit u = n.unit u := by cases u <;> rfl
@[simp] theorem Node.setPump_bridge (v : Pump) (u : MotionUnit) : (n.setPump v).bridge u = n.bridge u := by cases u <;> rfl
@[simp] theorem Node.setPump_has (v : Pump) (d : Duty) : (n.setPump v).has d = n.has d := rfl
@[simp] theorem Node.setPump_isActive (v : Pump) : (n.setPump v).isActive = n.isActive := rfl
@[simp] theorem Node.setPump_validTemp (v : Pump) (i : Fin 4) : (n.setPump v).validTemp i = n.validTemp i := rfl
@[simp] theorem Node.setFrost_claim (v : Frost) (i : Fin 8) : (n.setFrost v).claim i = n.claim i := rfl
@[simp] theorem Node.setFrost_chan (v : Frost) (i : Fin 16) : (n.setFrost v).chan i = n.chan i := rfl
@[simp] theorem Node.setFrost_unit (v : Frost) (u : MotionUnit) : (n.setFrost v).unit u = n.unit u := by cases u <;> rfl
@[simp] theorem Node.setFrost_bridge (v : Frost) (u : MotionUnit) : (n.setFrost v).bridge u = n.bridge u := by cases u <;> rfl
@[simp] theorem Node.setFrost_has (v : Frost) (d : Duty) : (n.setFrost v).has d = n.has d := rfl
@[simp] theorem Node.setFrost_isActive (v : Frost) : (n.setFrost v).isActive = n.isActive := rfl
@[simp] theorem Node.setFrost_validTemp (v : Frost) (i : Fin 4) : (n.setFrost v).validTemp i = n.validTemp i := rfl
@[simp] theorem Node.setHeater_claim (v : Heater) (i : Fin 8) : (n.setHeater v).claim i = n.claim i := rfl
@[simp] theorem Node.setHeater_chan (v : Heater) (i : Fin 16) : (n.setHeater v).chan i = n.chan i := rfl
@[simp] theorem Node.setHeater_unit (v : Heater) (u : MotionUnit) : (n.setHeater v).unit u = n.unit u := by cases u <;> rfl
@[simp] theorem Node.setHeater_bridge (v : Heater) (u : MotionUnit) : (n.setHeater v).bridge u = n.bridge u := by cases u <;> rfl
@[simp] theorem Node.setHeater_has (v : Heater) (d : Duty) : (n.setHeater v).has d = n.has d := rfl
@[simp] theorem Node.setHeater_isActive (v : Heater) : (n.setHeater v).isActive = n.isActive := rfl
@[simp] theorem Node.setHeater_validTemp (v : Heater) (i : Fin 4) : (n.setHeater v).validTemp i = n.validTemp i := rfl
@[simp] theorem Node.setMotion_claim (v : Motion) (i : Fin 8) : (n.setMotion v).claim i = n.claim i := rfl
@[simp] theorem Node.setMotion_chan (v : Motion) (i : Fin 16) : (n.setMotion v).chan i = n.chan i := rfl
@[simp] theorem Node.setMotion_bridge (v : Motion) (u : MotionUnit) : (n.setMotion v).bridge u = n.bridge u := by cases u <;> rfl
@[simp] theorem Node.setMotion_has (v : Motion) (d : Duty) : (n.setMotion v).has d = n.has d := rfl
@[simp] theorem Node.setMotion_isActive (v : Motion) : (n.setMotion v).isActive = n.isActive := rfl
@[simp] theorem Node.setMotion_validTemp (v : Motion) (i : Fin 4) : (n.setMotion v).validTemp i = n.validTemp i := rfl
@[simp] theorem Node.setWind_claim (v : Wind) (i : Fin 8) : (n.setWind v).claim i = n.claim i := rfl
@[simp] theorem Node.setWind_chan (v : Wind) (i : Fin 16) : (n.setWind v).chan i = n.chan i := rfl
@[simp] theorem Node.setWind_unit (v : Wind) (u : MotionUnit) : (n.setWind v).unit u = n.unit u := by cases u <;> rfl
@[simp] theorem Node.setWind_bridge (v : Wind) (u : MotionUnit) : (n.setWind v).bridge u = n.bridge u := by cases u <;> rfl
@[simp] theorem Node.setWind_has (v : Wind) (d : Duty) : (n.setWind v).has d = n.has d := rfl
@[simp] theorem Node.setWind_isActive (v : Wind) : (n.setWind v).isActive = n.isActive := rfl
@[simp] theorem Node.setWind_validTemp (v : Wind) (i : Fin 4) : (n.setWind v).validTemp i = n.validTemp i := rfl
@[simp] theorem Node.setLights_claim (v : Lights) (i : Fin 8) : (n.setLights v).claim i = n.claim i := rfl
@[simp] theorem Node.setLights_chan (v : Lights) (i : Fin 16) : (n.setLights v).chan i = n.chan i := rfl
@[simp] theorem Node.setLights_unit (v : Lights) (u : MotionUnit) : (n.setLights v).unit u = n.unit u := by cases u <;> rfl
@[simp] theorem Node.setLights_bridge (v : Lights) (u : MotionUnit) : (n.setLights v).bridge u = n.bridge u := by cases u <;> rfl
@[simp] theorem Node.setLights_has (v : Lights) (d : Duty) : (n.setLights v).has d = n.has d := rfl
@[simp] theorem Node.setLights_isActive (v : Lights) : (n.setLights v).isActive = n.isActive := rfl
@[simp] theorem Node.setLights_validTemp (v : Lights) (i : Fin 4) : (n.setLights v).validTemp i = n.validTemp i := rfl
@[simp] theorem Node.setBank_claim (v : Bank) (i : Fin 8) : (n.setBank v).claim i = n.claim i := rfl
@[simp] theorem Node.setBank_unit (v : Bank) (u : MotionUnit) : (n.setBank v).unit u = n.unit u := by cases u <;> rfl
@[simp] theorem Node.setBank_has (v : Bank) (d : Duty) : (n.setBank v).has d = n.has d := rfl
@[simp] theorem Node.setBank_isActive (v : Bank) : (n.setBank v).isActive = n.isActive := rfl
@[simp] theorem Node.setTx_claim (v : Transmitter) (i : Fin 8) : (n.setTx v).claim i = n.claim i := rfl
@[simp] theorem Node.setTx_chan (v : Transmitter) (i : Fin 16) : (n.setTx v).chan i = n.chan i := rfl
@[simp] theorem Node.setTx_unit (v : Transmitter) (u : MotionUnit) : (n.setTx v).unit u = n.unit u := by cases u <;> rfl
@[simp] theorem Node.setTx_bridge (v : Transmitter) (u : MotionUnit) : (n.setTx v).bridge u = n.bridge u := by cases u <;> rfl
@[simp] theorem Node.setTx_has (v : Transmitter) (d : Duty) : (n.setTx v).has d = n.has d := rfl
@[simp] theorem Node.setTx_isActive (v : Transmitter) : (n.setTx v).isActive = n.isActive := rfl
@[simp] theorem Node.setTx_validTemp (v : Transmitter) (i : Fin 4) : (n.setTx v).validTemp i = n.validTemp i := rfl
@[simp] theorem Node.setCmd_claim (v : CommandUnit) (i : Fin 8) : (n.setCmd v).claim i = n.claim i := rfl
@[simp] theorem Node.setCmd_chan (v : CommandUnit) (i : Fin 16) : (n.setCmd v).chan i = n.chan i := rfl
@[simp] theorem Node.setCmd_unit (v : CommandUnit) (u : MotionUnit) : (n.setCmd v).unit u = n.unit u := by cases u <;> rfl
@[simp] theorem Node.setCmd_bridge (v : CommandUnit) (u : MotionUnit) : (n.setCmd v).bridge u = n.bridge u := by cases u <;> rfl
@[simp] theorem Node.setCmd_has (v : CommandUnit) (d : Duty) : (n.setCmd v).has d = n.has d := rfl
@[simp] theorem Node.setCmd_isActive (v : CommandUnit) : (n.setCmd v).isActive = n.isActive := rfl
@[simp] theorem Node.setCmd_validTemp (v : CommandUnit) (i : Fin 4) : (n.setCmd v).validTemp i = n.validTemp i := rfl
@[simp] theorem Node.setPub_claim (v : Published) (i : Fin 8) : (n.setPub v).claim i = n.claim i := rfl
@[simp] theorem Node.setPub_chan (v : Published) (i : Fin 16) : (n.setPub v).chan i = n.chan i := rfl
@[simp] theorem Node.setPub_unit (v : Published) (u : MotionUnit) : (n.setPub v).unit u = n.unit u := by cases u <;> rfl
@[simp] theorem Node.setPub_bridge (v : Published) (u : MotionUnit) : (n.setPub v).bridge u = n.bridge u := by cases u <;> rfl
@[simp] theorem Node.setPub_has (v : Published) (d : Duty) : (n.setPub v).has d = n.has d := rfl
@[simp] theorem Node.setPub_isActive (v : Published) : (n.setPub v).isActive = n.isActive := rfl
@[simp] theorem Node.setPub_validTemp (v : Published) (i : Fin 4) : (n.setPub v).validTemp i = n.validTemp i := rfl
@[simp] theorem Node.setEv_claim (v : Event) (i : Fin 8) : (n.setEv v).claim i = n.claim i := rfl
@[simp] theorem Node.setEv_chan (v : Event) (i : Fin 16) : (n.setEv v).chan i = n.chan i := rfl
@[simp] theorem Node.setEv_unit (v : Event) (u : MotionUnit) : (n.setEv v).unit u = n.unit u := by cases u <;> rfl
@[simp] theorem Node.setEv_bridge (v : Event) (u : MotionUnit) : (n.setEv v).bridge u = n.bridge u := by cases u <;> rfl
@[simp] theorem Node.setEv_has (v : Event) (d : Duty) : (n.setEv v).has d = n.has d := rfl
@[simp] theorem Node.setEv_isActive (v : Event) : (n.setEv v).isActive = n.isActive := rfl
@[simp] theorem Node.setEv_validTemp (v : Event) (i : Fin 4) : (n.setEv v).validTemp i = n.validTemp i := rfl
@[simp] theorem Node.setClaim_chan (i : Fin 8) (v : Claim) (j : Fin 16) : (n.setClaim i v).chan j = n.chan j := rfl
@[simp] theorem Node.setClaim_unit (i : Fin 8) (v : Claim) (u : MotionUnit) : (n.setClaim i v).unit u = n.unit u := by cases u <;> rfl
@[simp] theorem Node.setClaim_bridge (i : Fin 8) (v : Claim) (u : MotionUnit) : (n.setClaim i v).bridge u = n.bridge u := by cases u <;> rfl
@[simp] theorem Node.setClaim_has (i : Fin 8) (v : Claim) (d : Duty) : (n.setClaim i v).has d = n.has d := rfl
@[simp] theorem Node.setClaim_isActive (i : Fin 8) (v : Claim)  : (n.setClaim i v).isActive = n.isActive := rfl
@[simp] theorem Node.setClaim_validTemp (i : Fin 8) (v : Claim) (j : Fin 4) : (n.setClaim i v).validTemp j = n.validTemp j := rfl
@[simp] theorem Node.setChan_claim (i : Fin 16) (v : Channel) (j : Fin 8) : (n.setChan i v).claim j = n.claim j := rfl
@[simp] theorem Node.setChan_unit (i : Fin 16) (v : Channel) (u : MotionUnit) : (n.setChan i v).unit u = n.unit u := by cases u <;> rfl
@[simp] theorem Node.setChan_bridge (i : Fin 16) (v : Channel) (u : MotionUnit) : (n.setChan i v).bridge u = n.bridge u := by cases u <;> rfl
@[simp] theorem Node.setChan_has (i : Fin 16) (v : Channel) (d : Duty) : (n.setChan i v).has d = n.has d := rfl
@[simp] theorem Node.setChan_isActive (i : Fin 16) (v : Channel)  : (n.setChan i v).isActive = n.isActive := rfl
@[simp] theorem Node.setChan_validTemp (i : Fin 16) (v : Channel) (j : Fin 4) : (n.setChan i v).validTemp j = n.validTemp j := rfl

end Sys2Proof.Machine
end

