-- ==== Sys2Proof/Laws/Keeps.lean ====
section
/-! SUPPORT. What the operations of the jobs leave alone: one lemma per operation of chapters 3 to 9, each saying all
that the operation can do to the parts of the node that are not the jobs' own. -/

namespace Sys2Proof.Machine

/-- A claim keeps the law of sheds under a shed level. -/
def claimLawful (shed : Nat) (c : Claim) : Bool :=
  !forbids shed c.cls || c.state == .idle || (c.state == .waiting && c.held == 0)

theorem DwellKept.refl {now : Nat} {b : Bridge} (h : bridgeFits b = true) : DwellKept now b b where
  drive := fun d e => by
    unfold bridgeFits at h
    cases d <;> simp only [driveState] at e <;> simp [e] at h <;> simp [dwellComplete, h.1.1]
  last := .inl rfl
  coast := .inr (.inr ⟨rfl, rfl⟩)

/-- A bridge that does not drive, its last drive kept. -/
theorem DwellKept.idle {now : Nat} {b b' : Bridge} (s : ∀ d, b'.state ≠ driveState d) (l : b'.last = b.last)
    (c : b'.coastSince = none ∨ b'.coastSince = some now ∨ b'.coastSince = b.coastSince) : DwellKept now b b' where
  drive := fun d e => absurd e (s d)
  last := .inl l
  coast := c.imp_right fun c => c.imp_right fun c => ⟨c, l⟩

/-- A dwell that is complete at `b'` was complete at `b`. -/
theorem DwellKept.dwell {now : Nat} {b b' : Bridge} (h : DwellKept now b b') {d : Dir}
    (k : dwellComplete now b' d = true) : dwellComplete now b d = true := by
  obtain ⟨-, hl, hc⟩ := h
  simp only [dwellComplete, Bool.or_eq_true, beq_iff_eq] at k
  rcases k with (k | k) | k
  · rcases hl with hl | ⟨d', hl, -⟩
    · simp [dwellComplete, ← hl, k]
    · rw [k] at hl; cases hl
  · rcases hl with hl | ⟨d', hl, hd⟩
    · simp [dwellComplete, ← hl, k]
    · rw [k] at hl; cases hl; exact hd
  · rcases hc with hc | hc | ⟨hc, -⟩
    · simp [hc] at k
    · simp [hc, coastDwell] at k
    · rw [hc] at k
      simp only [dwellComplete, Bool.or_eq_true]
      exact .inr k

theorem DwellKept.trans {now : Nat} {b c d : Bridge} (h : DwellKept now b c) (k : DwellKept now c d) :
    DwellKept now b d where
  drive := fun x e => h.dwell (k.drive x e)
  last := by
    rcases k.last with e | ⟨x, e, y⟩
    · rw [e]; exact h.last
    · exact .inr ⟨x, e, h.dwell y⟩
  coast := by
    rcases k.coast with e | e | ⟨e, l⟩
    · exact .inl e
    · exact .inr (.inl e)
    · rw [e, l]; exact h.coast

theorem shedLaw_iff (n : Node) :
    n.shedLaw = true ↔ ∀ i, claimLawful n.view.shed (n.claim i) = true ∧ (n.state.isSome = true ∨ n.claim i = {}) := by
  have all : ∀ i : Fin 8, i ∈ slots := by decide
  constructor
  · intro h i
    have := List.all_eq_true.mp h i (all i)
    simpa [claimLawful, Bool.and_eq_true] using this
  · intro h
    apply List.all_eq_true.mpr
    intro i _
    have := h i
    simpa [claimLawful, Bool.and_eq_true] using this

/-- The entries of one unit may stand. -/
def unitFits (u : MotionUnit) (n : Node) : Prop := ∀ e ∈ n.motion.list, e.unit = u → mayStand n e = true

theorem listFits_iff (n : Node) : listFits n = true ↔ ∀ u, unitFits u n :=
  List.all_eq_true.trans ⟨fun h _ e he _ => h e he, fun h e he => h e.unit e he rfl⟩

/-- `m` comes from `n` by what a job may do: it changes claims, tanks, pump, frost monitor, heater, motion, lights, the
bank's channels and bridges, flags, counters and the marks of the event, and nothing else; the counters stay within
their range, and the law of sheds, the dwell of the bridges and the interlocks of the request list are kept. -/
structure JobKeeps (n m : Node) : Prop where
  now : m.now = n.now
  held : m.held = n.held
  cause : m.cause = n.cause
  checked : m.checked = n.checked
  station : m.station = n.station
  state : m.state = n.state
  faultPin : m.faultPin = n.faultPin
  cfg : m.cfg = n.cfg
  battery : m.battery = n.battery
  view : m.view = n.view
  wind : m.wind = n.wind
  tx : m.tx = n.tx
  pub : m.pub = n.pub
  free : m.free = n.free
  temps : m.bank.temps = n.bank.temps
  map : m.cmd.map = n.cmd.map
  restart : m.cmd.restart = n.cmd.restart
  reply : m.ev.reply = n.ev.reply
  report : m.ev.report = n.ev.report
  evRestart : m.ev.restart = n.ev.restart
  evReset : m.ev.reset = n.ev.reset
  counters : countersFit n = true → countersFit m = true
  law : n.state.isSome = true → n.shedLaw = true → m.shedLaw = true
  bridges : ∀ u, bridgeFits (n.bridge u) = true →
    bridgeFits (m.bridge u) = true ∧ DwellKept n.now (n.bridge u) (m.bridge u)
  list : ∀ u, unitFits u n → unitFits u m

namespace JobKeeps

theorem refl (n : Node) : JobKeeps n n :=
  ⟨rfl, rfl, rfl, rfl, rfl, rfl, rfl, rfl, rfl, rfl, rfl, rfl, rfl, rfl, rfl, rfl, rfl, rfl, rfl, rfl, rfl, id,
    fun _ => id, fun _ h => ⟨h, .refl h⟩, fun _ => id⟩

theorem trans {a n m : Node} (h : JobKeeps a n) (k : JobKeeps n m) : JobKeeps a m where
  now := k.now.trans h.now
  held := k.held.trans h.held
  cause := k.cause.trans h.cause
  checked := k.checked.trans h.checked
  station := k.station.trans h.station
  state := k.state.trans h.state
  faultPin := k.faultPin.trans h.faultPin
  cfg := k.cfg.trans h.cfg
  battery := k.battery.trans h.battery
  view := k.view.trans h.view
  wind := k.wind.trans h.wind
  tx := k.tx.trans h.tx
  pub := k.pub.trans h.pub
  free := k.free.trans h.free
  temps := k.temps.trans h.temps
  map := k.map.trans h.map
  restart := k.restart.trans h.restart
  reply := k.reply.trans h.reply
  report := k.report.trans h.report
  evRestart := k.evRestart.trans h.evRestart
  evReset := k.evReset.trans h.evReset
  counters := fun c => k.counters (h.counters c)
  law := fun s c => k.law (by rw [h.state]; exact s) (h.law s c)
  bridges := fun u f =>
    have x := h.bridges u f
    have y := k.bridges u x.1
    ⟨y.1, x.2.trans (h.now ▸ y.2)⟩
  list := fun u l => k.list u (h.list u l)

variable {a n : Node}

theorem ite {c : Prop} [Decidable c] {x y : Node} (h : JobKeeps a x) (k : JobKeeps a y) :
    JobKeeps a (if c then x else y) := by split <;> assumption

theorem foldl {α : Type} (f : Node → α → Node) (hf : ∀ m x, JobKeeps a m → JobKeeps a (f m x)) (l : List α) :
    ∀ n, JobKeeps a n → JobKeeps a (l.foldl f n) := by
  induction l with
  | nil => exact fun _ h => h
  | cons x _ ih => exact fun n h => ih (f n x) (hf n x h)

/-! ## The records of the jobs -/

theorem setTanks {v} (h : JobKeeps a n) : JobKeeps a (n.setTanks v) :=
  h.trans ⟨rfl, rfl, rfl, rfl, rfl, rfl, rfl, rfl, rfl, rfl, rfl, rfl, rfl, rfl, rfl, rfl, rfl, rfl, rfl, rfl, rfl, id,
    fun _ => id, fun _ h => ⟨h, .refl h⟩, fun _ => id⟩
theorem setPump {v} (h : JobKeeps a n) : JobKeeps a (n.setPump v) :=
  h.trans ⟨rfl, rfl, rfl, rfl, rfl, rfl, rfl, rfl, rfl, rfl, rfl, rfl, rfl, rfl, rfl, rfl, rfl, rfl, rfl, rfl, rfl, id,
    fun _ => id, fun _ h => ⟨h, .refl h⟩, fun _ => id⟩
theorem setFrost {v} (h : JobKeeps a n) : JobKeeps a (n.setFrost v) :=
  h.trans ⟨rfl, rfl, rfl, rfl, rfl, rfl, rfl, rfl, rfl, rfl, rfl, rfl, rfl, rfl, rfl, rfl, rfl, rfl, rfl, rfl, rfl, id,
    fun _ => id, fun _ h => ⟨h, .refl h⟩, fun _ => id⟩
theorem setHeater {v} (h : JobKeeps a n) : JobKeeps a (n.setHeater v) :=
  h.trans ⟨rfl, rfl, rfl, rfl, rfl, rfl, rfl, rfl, rfl, rfl, rfl, rfl, rfl, rfl, rfl, rfl, rfl, rfl, rfl, rfl, rfl, id,
    fun _ => id, fun _ h => ⟨h, .refl h⟩, fun _ => id⟩
theorem setMotion {v} (hv : ∀ u, unitFits u n → unitFits u (n.setMotion v)) (h : JobKeeps a n) :
    JobKeeps a (n.setMotion v) :=
  h.trans ⟨rfl, rfl, rfl, rfl, rfl, rfl, rfl, rfl, rfl, rfl, rfl, rfl, rfl, rfl, rfl, rfl, rfl, rfl, rfl, rfl, rfl, id,
    fun _ => id, fun _ h => ⟨h, .refl h⟩, hv⟩
theorem setLights {v} (h : JobKeeps a n) : JobKeeps a (n.setLights v) :=
  h.trans ⟨rfl, rfl, rfl, rfl, rfl, rfl, rfl, rfl, rfl, rfl, rfl, rfl, rfl, rfl, rfl, rfl, rfl, rfl, rfl, rfl, rfl, id,
    fun _ => id, fun _ h => ⟨h, .refl h⟩, fun _ => id⟩
theorem setLamps {v} (h : JobKeeps a n) : JobKeeps a (n.setLamps v) := h.setLights
/-- A list whose entries are old ones or may stand. -/
theorem setList {l} (hl : ∀ e ∈ l, e ∈ n.motion.list ∨ mayStand n e = true) (h : JobKeeps a n) :
    JobKeeps a (n.setList l) :=
  h.setMotion fun _ f e he hu => (hl e he).elim (fun m => f e m hu) id
theorem setUnit {u v} (h : JobKeeps a n) : JobKeeps a (n.setUnit u v) := by cases u <;> exact h.setMotion fun _ => id
theorem setChan {i v} (h : JobKeeps a n) : JobKeeps a (n.setChan i v) :=
  h.trans ⟨rfl, rfl, rfl, rfl, rfl, rfl, rfl, rfl, rfl, rfl, rfl, rfl, rfl, rfl, rfl, rfl, rfl, rfl, rfl, rfl, rfl, id,
    fun _ => id, fun _ h => ⟨h, .refl h⟩, fun _ => id⟩
theorem setAux {i v} (h : JobKeeps a n) : JobKeeps a (n.setAux i v) :=
  h.trans ⟨rfl, rfl, rfl, rfl, rfl, rfl, rfl, rfl, rfl, rfl, rfl, rfl, rfl, rfl, rfl, rfl, rfl, rfl, rfl, rfl, rfl, id,
    fun _ => id, fun _ h => ⟨h, .refl h⟩, fun _ => id⟩
theorem setBridge {u v} (hv : bridgeFits (n.bridge u) = true → bridgeFits v = true ∧ DwellKept n.now (n.bridge u) v)
    (h : JobKeeps a n) : JobKeeps a (n.setBridge u v) := by
  refine h.trans ⟨?_, ?_, ?_, ?_, ?_, ?_, ?_, ?_, ?_, ?_, ?_, ?_, ?_, ?_, ?_, ?_, ?_, ?_, ?_, ?_, ?_, ?_, ?_, ?_, ?_⟩
  case refine_24 =>
    intro w f
    by_cases e : u = w
    · subst e; simpa using hv f
    · have : (n.setBridge u v).bridge w = n.bridge w := by
        cases u <;> cases w <;> first | rfl | exact absurd rfl e
      rw [this]; exact ⟨f, .refl f⟩
  all_goals cases u <;> first | rfl | exact id | exact fun _ => id

/-- The marks of the event that ask for a pass of the wait service or for a frame. -/
theorem setMarks {w p d al t c mo l} (h : JobKeeps a n) :
    JobKeeps a (n.setEv { n.ev with wait := w, presence := p, draw := d, allowance := al, tanks := t, climate := c, motion := mo, lights := l }) :=
  h.trans ⟨rfl, rfl, rfl, rfl, rfl, rfl, rfl, rfl, rfl, rfl, rfl, rfl, rfl, rfl, rfl, rfl, rfl, rfl, rfl, rfl, rfl, id,
    fun _ => id, fun _ h => ⟨h, .refl h⟩, fun _ => id⟩
theorem wantWait (h : JobKeeps a n) : JobKeeps a n.wantWait :=
  h.trans ⟨rfl, rfl, rfl, rfl, rfl, rfl, rfl, rfl, rfl, rfl, rfl, rfl, rfl, rfl, rfl, rfl, rfl, rfl, rfl, rfl, rfl, id,
    fun _ => id, fun _ h => ⟨h, .refl h⟩, fun _ => id⟩
theorem setFlag {f} (h : JobKeeps a n) : JobKeeps a (setFlag f n) :=
  h.trans ⟨rfl, rfl, rfl, rfl, rfl, rfl, rfl, rfl, rfl, rfl, rfl, rfl, rfl, rfl, rfl, rfl, rfl, rfl, rfl, rfl, rfl, id,
    fun _ => id, fun _ h => ⟨h, .refl h⟩, fun _ => id⟩

theorem countersFit_bump {c : Counter} (h : countersFit n = true) : countersFit (Machine.bump c n) = true := by
  simp only [countersFit, Machine.bump, List.all_eq_true, decide_eq_true_eq, Vector.mem_toList_iff] at h ⊢
  intro x hx
  obtain ⟨i, hi, rfl⟩ := Vector.getElem_of_mem hx
  rw [Vector.getElem_set]
  split
  · exact Nat.min_le_right _ _
  · exact h _ (Vector.getElem_mem _)

theorem bump {c} (h : JobKeeps a n) : JobKeeps a (bump c n) :=
  h.trans ⟨rfl, rfl, rfl, rfl, rfl, rfl, rfl, rfl, rfl, rfl, rfl, rfl, rfl, rfl, rfl, rfl, rfl, rfl, rfl, rfl, rfl,
    countersFit_bump, fun _ => id, fun _ h => ⟨h, .refl h⟩, fun _ => id⟩

/-! ## The claim table -/

/-- A claim may take a place in the table when it keeps the law wherever the old one did. -/
theorem setClaim {i c} (h : JobKeeps a n)
    (hc : claimLawful n.view.shed (n.claim i) = true → claimLawful n.view.shed c = true) :
    JobKeeps a (n.setClaim i c) :=
  h.trans ⟨rfl, rfl, rfl, rfl, rfl, rfl, rfl, rfl, rfl, rfl, rfl, rfl, rfl, rfl, rfl, rfl, rfl, rfl, rfl, rfl, rfl, id,
    fun s l => by
      rw [shedLaw_iff] at l ⊢
      intro j
      refine ⟨?_, .inl s⟩
      by_cases e : i = j
      · subst e; simpa using hc (l i).1
      · have := (l j).1
        simpa [Node.claim, Node.setClaim, e, Vector.getElem_set, Fin.val_inj] using this,
    fun _ h => ⟨h, .refl h⟩, fun _ => id⟩

theorem lawful_empty (shed : Nat) : claimLawful shed {} = true := by simp [claimLawful]

theorem lawful_class4 (shed : Nat) (c : Claim) (h : c.cls = 4) : claimLawful shed c = true := by
  simp [claimLawful, forbids, h]

theorem fileClaim {i k w d} (h : JobKeeps a n) : JobKeeps a (fileClaim i k w d n) := by
  unfold Machine.fileClaim
  split
  · exact h
  · split
    · exact h.setClaim fun _ => lawful_class4 _ _ rfl
    · exact (h.setClaim fun _ => by simp [claimLawful]).wantWait

theorem releaseClaim {i} (h : JobKeeps a n) : JobKeeps a (releaseClaim i n) := by
  unfold Machine.releaseClaim
  split
  · exact h
  · exact (h.setClaim fun _ => lawful_empty _).wantWait

theorem raiseClaim {i w d} (h : JobKeeps a n) : JobKeeps a (raiseClaim i w d n) := by
  simp only [Machine.raiseClaim]
  repeat' split
  all_goals first
    | exact h
    | exact (h.setClaim fun l => by simp_all [claimLawful, forbids]).wantWait

theorem reduceClaim {i r} (h : JobKeeps a n) : JobKeeps a (reduceClaim i r n) := by
  simp only [Machine.reduceClaim]
  repeat' split
  · exact h
  · exact h.releaseClaim
  · rename_i e r0 le
    refine (h.setClaim fun l => ?_).wantWait
    simp only [claimLawful, Bool.or_eq_true, Bool.and_eq_true, beq_iff_eq] at l ⊢
    rcases l with (l | l) | l
    · exact .inl (.inl l)
    · exact absurd l (fun x => e (.inl x))
    · omega
  · exact (h.setClaim fun l => by simpa [claimLawful] using l).wantWait

theorem convertClaim {i k} (h : JobKeeps a n) : JobKeeps a (convertClaim i k n) := by
  simp only [Machine.convertClaim]
  split
  · exact h.fileClaim
  · exact (h.setClaim fun _ => lawful_class4 _ _ rfl).wantWait

theorem askFor {i k} (hf : forbids n.view.shed (n.claim i).cls = false) (h : JobKeeps a n) :
    JobKeeps a (askFor i k n) := h.setClaim fun _ => by simp [claimLawful, hf]

theorem backToWaiting_lawful {shed : Nat} {c : Claim} (h : claimLawful shed c = true) (hs : c.state ≠ .idle) :
    claimLawful shed (backToWaiting c) = true := by
  simp only [claimLawful, backToWaiting, Bool.or_eq_true, Bool.and_eq_true, beq_iff_eq] at h ⊢
  rcases h with (h | h) | h
  · exact .inl (.inl h)
  · exact absurd h hs
  · exact .inr ⟨trivial, h.2⟩

theorem waitTurn {i} (p : Node × List (Fin 8)) (h : JobKeeps a p.1) : JobKeeps a (waitTurn p i).1 := by
  simp only [Machine.waitTurn]
  repeat' split
  all_goals first
    | exact h
    | (rename_i hf _ _; exact h.askFor (Bool.eq_false_iff.mpr hf))

theorem foldl_pair {α β : Type} (f : Node × β → α → Node × β) (hf : ∀ p x, JobKeeps a p.1 → JobKeeps a (f p x).1)
    (l : List α) : ∀ p, JobKeeps a p.1 → JobKeeps a (l.foldl f p).1 := by
  induction l with
  | nil => exact fun _ h => h
  | cons x _ ih => exact fun p h => ih (f p x) (hf p x h)

theorem waitService (h : JobKeeps a n) : JobKeeps a (waitService n) := by
  simp only [Machine.waitService]
  split
  · split
    · exact foldl_pair _ (fun p _ => waitTurn p) _ _ h
    · exact (foldl_pair _ (fun p _ => waitTurn p) _ _ h).setMarks
  · exact h

theorem settleTurn {i} (p : Node × List (Fin 8)) (h : JobKeeps a p.1 ∧ (p.1.claim i).state ≠ .idle) :
    JobKeeps a (settleTurn p i).1 := by
  obtain ⟨h, hs⟩ := h
  simp only [Machine.settleTurn]
  have back : JobKeeps a (p.1.setClaim i (backToWaiting (p.1.claim i))) :=
    h.setClaim fun l => backToWaiting_lawful l hs
  split
  · exact back
  · rename_i hf
    have grant : ∀ k, JobKeeps a (p.1.setClaim i (grantTo k (p.1.claim i))) := fun k =>
      h.setClaim fun _ => by
        have hc : (grantTo k (p.1.claim i)).cls = (p.1.claim i).cls := by unfold grantTo backToWaiting; split <;> rfl
        simp [claimLawful, hc, hf]
    split
    · exact grant _
    · split
      · exact grant _
      · exact back

theorem fallBack {i} (hs : (n.claim i).state ≠ .idle) (h : JobKeeps a n) : JobKeeps a (fallBack i n) := by
  simp only [Machine.fallBack]
  split
  · exact (h.setClaim fun _ => lawful_empty _).wantWait
  · rename_i hh
    exact (h.setClaim fun l => by simp_all [claimLawful]).wantWait

theorem settleClaims (h : JobKeeps a n) : JobKeeps a (settleClaims n).1 := by
  have key : ∀ (l : List (Fin 8)) (p : Node × List (Fin 8)),
      JobKeeps a p.1 → (∀ j ∈ l, (p.1.claim j).state ≠ .idle) → JobKeeps a (l.foldl Machine.settleTurn p).1 := by
    intro l
    induction l with
    | nil => exact fun _ h _ => h
    | cons i rest ih =>
      intro p h hs
      refine ih _ (settleTurn p ⟨h, hs i (by simp)⟩) fun j hj => ?_
      have hij := hs j (by simp [hj])
      simp only [Machine.settleTurn, grantTo, backToWaiting]
      repeat' split
      all_goals
        simp only [Node.claim_setClaim]
        split <;> simp [hij]
  refine (key _ _ h fun j hj => ?_).wantWait
  have sub : ∀ (f : Fin 8 → Fin 8 → Bool) (l : List (Fin 8)), j ∈ sortBy f l → j ∈ l := by
    intro f l
    have ins : ∀ (x : Fin 8) (l : List (Fin 8)), j ∈ insertBy f x l → j = x ∨ j ∈ l := by
      intro x l
      induction l with
      | nil => simp [insertBy]
      | cons y ys ih =>
        simp only [insertBy]
        split
        · simp
        · simp only [List.mem_cons]
          rintro (h | h)
          · exact .inr (.inl h)
          · rcases ih h with h | h
            · exact .inl h
            · exact .inr (.inr h)
    induction l with
    | nil => simp [sortBy]
    | cons x xs ih =>
      intro h
      rcases ins _ _ h with h | h
      · simp [h]
      · simp [ih h]
  have := sub _ _ hj
  simp only [List.mem_filter, decide_eq_true_eq] at this
  rw [this.2.1]
  decide

theorem endClaims {l} (h : JobKeeps a n) : JobKeeps a (endClaims l n) :=
  foldl _ (fun _ _ k => k.setClaim fun _ => lawful_empty _) _ _ h

theorem carrierGivenUp {e} (h : JobKeeps a n) : JobKeeps a (carrierGivenUp e n) :=
  foldl _ (fun m i k => by
    dsimp only
    split
    · rename_i c
      exact k.setClaim fun l => backToWaiting_lawful l (by rw [c.1]; decide)
    · exact k) _ _ h

theorem carrierMoved {e k} (h : JobKeeps a n) : JobKeeps a (carrierMoved e k n) :=
  foldl _ (fun m i k => by
    dsimp only
    split
    · exact k.setClaim fun l => by simpa [claimLawful] using l
    · exact k) _ _ h

theorem carriedBy {e} (h : JobKeeps a n) : JobKeeps a (carriedBy e n) :=
  foldl _ (fun m i k => by
    dsimp only
    split
    · exact k.setClaim fun l => by simpa [claimLawful] using l
    · exact k) _ _ h

theorem carrierSent {e} (h : JobKeeps a n) : JobKeeps a (carrierSent e n) :=
  foldl _ (fun m i k => by
    dsimp only
    split
    · exact k.setClaim fun l => by simpa [claimLawful] using l
    · exact k) _ _ h

/-! ## The jobs' operations -/

theorem putOutput {i c} (h : JobKeeps a n) : JobKeeps a (n.putOutput i c) := by
  unfold Machine.Node.putOutput
  repeat' first
    | with_reducible exact h
    | with_reducible apply JobKeeps.setChan

theorem ask {i l} (h : JobKeeps a n) : JobKeeps a (ask i l n) := by
  unfold Machine.ask
  repeat' first
    | with_reducible exact h
    | with_reducible apply JobKeeps.putOutput

theorem releaseOutput {i} (h : JobKeeps a n) : JobKeeps a (releaseOutput i n) := by
  unfold Machine.releaseOutput
  repeat' first
    | with_reducible exact h
    | with_reducible apply JobKeeps.putOutput

theorem bridgeCoast {u} (h : JobKeeps a n) : JobKeeps a (bridgeCoast u n) := by
  unfold Machine.bridgeCoast
  dsimp only
  split
  · exact h
  · rename_i e
    exact h.setBridge fun f => ⟨by simp_all [bridgeFits],
      .idle (fun d => by simp only [e]; cases d <;> nofun) rfl (.inr (.inr rfl))⟩
  · exact h.setBridge fun f => ⟨by simp [bridgeFits], .idle (fun d => by cases d <;> nofun) rfl (.inr (.inl rfl))⟩

theorem bridgeBrake {u} (h : JobKeeps a n) : JobKeeps a (bridgeBrake u n) := by
  unfold Machine.bridgeBrake
  exact h.ite (h.setBridge fun f => ⟨by simp [bridgeFits], .idle (fun d => by cases d <;> nofun) rfl (.inl rfl)⟩)

/-- A bridge that drives a direction for which its dwell is complete. -/
theorem driving_kept {now : Nat} {b : Bridge} {d : Dir} (h : dwellComplete now b d = true) :
    bridgeFits (driving now b d) = true ∧ DwellKept now b (driving now b d) := by
  refine ⟨by cases d <;> simp [bridgeFits, driving, driveState], ⟨fun x k => ?_, .inr ⟨d, rfl, h⟩, .inl rfl⟩⟩
  have : d = x := by cases d <;> cases x <;> first | rfl | cases k
  exact this ▸ h

theorem bridgeDrive {u d} (h : JobKeeps a n) : JobKeeps a (bridgeDrive u d n) := by
  unfold Machine.bridgeDrive
  dsimp only
  split
  · exact h
  · split
    · exact h.setBridge fun _ => driving_kept ‹_›
    · split
      · rename_i e
        exact h.setBridge fun f => ⟨by simp_all [bridgeFits],
          .idle (fun d => by simp only [e]; cases d <;> nofun) rfl (.inr (.inr rfl))⟩
      · exact h.setBridge fun f => ⟨by simp [bridgeFits],
          .idle (fun d => by cases d <;> nofun) rfl (.inr (.inl rfl))⟩

theorem bridgeClear {u} (h : JobKeeps a n) : JobKeeps a (bridgeClear u n) := by
  unfold Machine.bridgeClear
  dsimp only
  split
  · rename_i e
    exact h.setBridge fun f => ⟨by simp_all [bridgeFits],
      .idle (fun d => by cases d <;> nofun) rfl (.inr (.inr rfl))⟩
  · exact h

theorem excite {l} (h : JobKeeps a n) : JobKeeps a (excite l n) :=
  foldl _ (fun m c k => by
    split
    · exact k.ask
    · exact k) _ _ h

theorem scanFlags {r t} (h : JobKeeps a n) : JobKeeps a (scanFlags r t n) := by
  unfold Machine.scanFlags
  repeat' split
  all_goals first | exact h | exact h.setFlag

theorem finishScan (h : JobKeeps a n) : JobKeeps a (finishScan n) := by
  simp only [Machine.finishScan]
  split
  · exact h.excite.setTanks
  · exact foldl _ (fun m x k => k.scanFlags) _ _ h.excite.setTanks

theorem tanksTravel {t} (h : JobKeeps a n) : JobKeeps a (tanksTravel t n) := by
  unfold Machine.tanksTravel
  repeat' first
    | with_reducible exact h
    | with_reducible apply JobKeeps.setTanks
    | with_reducible apply JobKeeps.ite

theorem pumpTo {s r} (h : JobKeeps a n) : JobKeeps a (pumpTo s r n) := by
  unfold Machine.pumpTo
  repeat' first
    | with_reducible exact h
    | with_reducible apply JobKeeps.setPump

theorem pumpStop {c} (h : JobKeeps a n) : JobKeeps a (pumpStop c n) := by
  unfold Machine.pumpStop
  dsimp only
  repeat' first
    | with_reducible exact h
    | with_reducible apply JobKeeps.releaseClaim
    | with_reducible apply JobKeeps.ask
    | with_reducible apply JobKeeps.ite

theorem pumpFile {c} (h : JobKeeps a n) : JobKeeps a (pumpFile c n) := by
  unfold Machine.pumpFile
  repeat' first
    | with_reducible exact h
    | with_reducible apply JobKeeps.fileClaim
    | with_reducible apply JobKeeps.pumpTo
    | with_reducible apply JobKeeps.ite

theorem pumpBegin {c} (h : JobKeeps a n) : JobKeeps a (pumpBegin c n) := by
  unfold Machine.pumpBegin
  repeat' first
    | with_reducible exact h
    | with_reducible apply JobKeeps.pumpTo
    | with_reducible apply JobKeeps.pumpFile
    | with_reducible apply JobKeeps.ite
    | split

theorem pumpLow (h : JobKeeps a n) : JobKeeps a (pumpLow n) := by
  unfold Machine.pumpLow
  dsimp only
  repeat' first
    | with_reducible exact h
    | with_reducible apply JobKeeps.setPump
    | with_reducible apply JobKeeps.ite

theorem pumpEvaluate {c} (h : JobKeeps a n) : JobKeeps a (pumpEvaluate c n) := by
  unfold Machine.pumpEvaluate
  dsimp only
  repeat' first
    | with_reducible exact h
    | with_reducible apply JobKeeps.setPump
    | with_reducible apply JobKeeps.pumpTo
    | with_reducible apply JobKeeps.pumpStop
    | with_reducible apply JobKeeps.pumpFile
    | with_reducible apply JobKeeps.pumpLow
    | with_reducible apply JobKeeps.ite
    | split

theorem pumpDemand {c} (h : JobKeeps a n) : JobKeeps a (pumpDemand c n) := by
  unfold Machine.pumpDemand
  dsimp only
  repeat' first
    | with_reducible exact h
    | with_reducible apply JobKeeps.setPump
    | with_reducible apply JobKeeps.pumpTo
    | with_reducible apply JobKeeps.pumpStop
    | with_reducible apply JobKeeps.pumpBegin
    | with_reducible apply JobKeeps.pumpEvaluate
    | with_reducible apply JobKeeps.ite

theorem pumpGranted (h : JobKeeps a n) : JobKeeps a (pumpGranted n) := by
  unfold Machine.pumpGranted
  dsimp only
  repeat' first
    | with_reducible exact h
    | with_reducible apply JobKeeps.setPump
    | with_reducible apply JobKeeps.ask
    | with_reducible apply JobKeeps.pumpLow
    | with_reducible apply JobKeeps.ite
    | split

theorem pumpNoEnergy (h : JobKeeps a n) : JobKeeps a (pumpNoEnergy n) := by
  unfold Machine.pumpNoEnergy
  dsimp only
  repeat' first
    | with_reducible exact h
    | with_reducible apply JobKeeps.setPump
    | with_reducible apply JobKeeps.pumpTo
    | with_reducible apply JobKeeps.ite
    | split

theorem pumpShed (h : JobKeeps a n) : JobKeeps a (pumpShed n) := by
  unfold Machine.pumpShed
  dsimp only
  repeat' first
    | with_reducible exact h
    | with_reducible apply JobKeeps.setPump
    | with_reducible apply JobKeeps.pumpTo
    | with_reducible apply JobKeeps.pumpStop
    | with_reducible apply JobKeeps.ite
    | split

theorem pumpDry {c} (h : JobKeeps a n) : JobKeeps a (pumpDry c n) := by
  unfold Machine.pumpDry
  dsimp only
  repeat' first
    | with_reducible exact h
    | with_reducible apply JobKeeps.setPump
    | with_reducible apply JobKeeps.setFlag
    | with_reducible apply JobKeeps.pumpTo
    | with_reducible apply JobKeeps.pumpStop

theorem pumpCheck (h : JobKeeps a n) : JobKeeps a (pumpCheck n) := by
  unfold Machine.pumpCheck
  repeat' first
    | with_reducible exact h
    | with_reducible apply JobKeeps.pumpEvaluate
    | split

theorem keepTemp (h : JobKeeps a n) : JobKeeps a (keepTemp n) := by
  unfold Machine.keepTemp
  repeat' first
    | with_reducible exact h
    | with_reducible apply JobKeeps.setFrost
    | split

theorem beginMove {s i} (h : JobKeeps a n) : JobKeeps a (beginMove s i n) := by
  unfold Machine.beginMove
  dsimp only
  repeat' first
    | with_reducible exact h
    | with_reducible apply JobKeeps.setFrost
    | with_reducible apply JobKeeps.fileClaim
    | with_reducible apply JobKeeps.ask

theorem frostTo {s} (h : JobKeeps a n) : JobKeeps a (frostTo s n) := by
  unfold Machine.frostTo
  repeat' first
    | with_reducible exact h
    | with_reducible apply JobKeeps.setFrost

theorem frostEvaluate {c} (h : JobKeeps a n) : JobKeeps a (frostEvaluate c n) := by
  unfold Machine.frostEvaluate
  dsimp only
  repeat' first
    | with_reducible exact h
    | with_reducible apply JobKeeps.setFrost
    | with_reducible apply JobKeeps.beginMove
    | with_reducible apply JobKeeps.frostTo
    | with_reducible apply JobKeeps.ite
    | split

theorem frostCheck (h : JobKeeps a n) : JobKeeps a (frostCheck n) := by
  unfold Machine.frostCheck
  repeat' first
    | with_reducible exact h
    | with_reducible apply JobKeeps.frostEvaluate
    | split

theorem stateFromContact {c} (h : JobKeeps a n) : JobKeeps a (stateFromContact c n) := by
  unfold Machine.stateFromContact
  repeat' first
    | with_reducible exact h
    | with_reducible apply JobKeeps.frostTo
    | with_reducible apply JobKeeps.frostEvaluate
    | with_reducible apply JobKeeps.ite

theorem contactChange {c b} (h : JobKeeps a n) : JobKeeps a (contactChange c b n) := by
  unfold Machine.contactChange
  repeat' first
    | with_reducible exact h
    | with_reducible apply JobKeeps.frostTo
    | with_reducible apply JobKeeps.ite
    | split

theorem endMove {c} (h : JobKeeps a n) : JobKeeps a (endMove c n) := by
  unfold Machine.endMove
  dsimp only
  repeat' first
    | with_reducible exact h
    | with_reducible apply JobKeeps.setFlag
    | with_reducible apply JobKeeps.releaseClaim
    | with_reducible apply JobKeeps.ask
    | with_reducible apply JobKeeps.frostTo
    | with_reducible apply JobKeeps.frostEvaluate
    | with_reducible apply JobKeeps.ite

theorem fuelOff {c} (h : JobKeeps a n) : JobKeeps a (fuelOff c n) := by
  unfold Machine.fuelOff
  dsimp only
  repeat' first
    | with_reducible exact h
    | with_reducible apply JobKeeps.setHeater
    | with_reducible apply JobKeeps.ask

theorem heaterDark {c} (h : JobKeeps a n) : JobKeeps a (heaterDark c n) := by
  unfold Machine.heaterDark
  repeat' first
    | with_reducible exact h
    | with_reducible apply JobKeeps.ask
    | with_reducible apply JobKeeps.fuelOff

theorem heaterTo {s} (h : JobKeeps a n) : JobKeeps a (heaterTo s n) := by
  unfold Machine.heaterTo
  repeat' first
    | with_reducible exact h
    | with_reducible apply JobKeeps.setHeater

theorem setReason {r} (h : JobKeeps a n) : JobKeeps a (setReason r n) := by
  unfold Machine.setReason
  repeat' first
    | with_reducible exact h
    | with_reducible apply JobKeeps.setHeater

theorem startCheck {c} (h : JobKeeps a n) : JobKeeps a (startCheck c n) := by
  unfold Machine.startCheck
  repeat' first
    | with_reducible exact h
    | with_reducible apply JobKeeps.fileClaim
    | with_reducible apply JobKeeps.setReason
    | with_reducible apply JobKeeps.ite

theorem ventCheck {c} (h : JobKeeps a n) : JobKeeps a (ventCheck c n) := by
  unfold Machine.ventCheck
  repeat' first
    | with_reducible exact h
    | with_reducible apply JobKeeps.fileClaim
    | with_reducible apply JobKeeps.ite

theorem standbyCheck {c} (h : JobKeeps a n) : JobKeeps a (standbyCheck c n) := by
  unfold Machine.standbyCheck
  repeat' first
    | with_reducible exact h
    | with_reducible apply JobKeeps.startCheck
    | with_reducible apply JobKeeps.ventCheck
    | with_reducible apply JobKeeps.ite
    | split

theorem enterCooldown {c} (h : JobKeeps a n) : JobKeeps a (enterCooldown c n) := by
  unfold Machine.enterCooldown
  dsimp only
  repeat' first
    | with_reducible exact h
    | with_reducible apply JobKeeps.setHeater
    | with_reducible apply JobKeeps.convertClaim
    | with_reducible apply JobKeeps.ask
    | with_reducible apply JobKeeps.fuelOff

theorem enterLockout (h : JobKeeps a n) : JobKeeps a (enterLockout n) := by
  unfold Machine.enterLockout
  dsimp only
  repeat' first
    | with_reducible exact h
    | with_reducible apply JobKeeps.setHeater
    | with_reducible apply JobKeeps.setFlag
    | with_reducible apply JobKeeps.heaterTo

theorem endCooldown {c} (h : JobKeeps a n) : JobKeeps a (endCooldown c n) := by
  unfold Machine.endCooldown
  dsimp only
  repeat' first
    | with_reducible exact h
    | with_reducible apply JobKeeps.setHeater
    | with_reducible apply JobKeeps.releaseClaim
    | with_reducible apply JobKeeps.ask
    | with_reducible apply JobKeeps.heaterTo
    | with_reducible apply JobKeeps.standbyCheck
    | with_reducible apply JobKeeps.enterLockout
    | with_reducible apply JobKeeps.ite
    | split

theorem failAttempt {c r} (h : JobKeeps a n) : JobKeeps a (failAttempt c r n) := by
  unfold Machine.failAttempt
  dsimp only
  repeat' first
    | with_reducible exact h
    | with_reducible apply JobKeeps.setHeater
    | with_reducible apply JobKeeps.bump
    | with_reducible apply JobKeeps.enterCooldown
    | with_reducible apply JobKeeps.ite

theorem lockoutStop {c r} (h : JobKeeps a n) : JobKeeps a (lockoutStop c r n) := by
  unfold Machine.lockoutStop
  repeat' first
    | with_reducible exact h
    | with_reducible apply JobKeeps.setHeater
    | with_reducible apply JobKeeps.enterCooldown

theorem enterPurge {c} (h : JobKeeps a n) : JobKeeps a (enterPurge c n) := by
  unfold Machine.enterPurge
  dsimp only
  repeat' first
    | with_reducible exact h
    | with_reducible apply JobKeeps.setHeater
    | with_reducible apply JobKeeps.ask

theorem enterGlow {c} (h : JobKeeps a n) : JobKeeps a (enterGlow c n) := by
  unfold Machine.enterGlow
  dsimp only
  repeat' first
    | with_reducible exact h
    | with_reducible apply JobKeeps.setHeater
    | with_reducible apply JobKeeps.ask
    | with_reducible apply JobKeeps.failAttempt
    | with_reducible apply JobKeeps.ite

theorem enterIgnite {c} (h : JobKeeps a n) : JobKeeps a (enterIgnite c n) := by
  unfold Machine.enterIgnite
  repeat' first
    | with_reducible exact h
    | with_reducible apply JobKeeps.setHeater

theorem takeLevel {c k} (h : JobKeeps a n) : JobKeeps a (takeLevel c k n) := by
  unfold Machine.takeLevel
  dsimp only
  repeat' first
    | with_reducible exact h
    | with_reducible apply JobKeeps.setHeater
    | with_reducible apply JobKeeps.ask

theorem enterRun {c} (h : JobKeeps a n) : JobKeeps a (enterRun c n) := by
  unfold Machine.enterRun
  dsimp only
  repeat' first
    | with_reducible exact h
    | with_reducible apply JobKeeps.setHeater
    | with_reducible apply JobKeeps.reduceClaim
    | with_reducible apply JobKeeps.ask
    | with_reducible apply JobKeeps.takeLevel

theorem stepDown {c k} (h : JobKeeps a n) : JobKeeps a (stepDown c k n) := by
  unfold Machine.stepDown
  repeat' first
    | with_reducible exact h
    | with_reducible apply JobKeeps.reduceClaim
    | with_reducible apply JobKeeps.takeLevel

theorem stepUp {c k} (h : JobKeeps a n) : JobKeeps a (stepUp c k n) := by
  unfold Machine.stepUp
  dsimp only
  repeat' first
    | with_reducible exact h
    | with_reducible apply JobKeeps.setHeater
    | with_reducible apply JobKeeps.raiseClaim
    | with_reducible apply JobKeeps.takeLevel
    | with_reducible apply JobKeeps.ite

theorem thermostat {c} (h : JobKeeps a n) : JobKeeps a (thermostat c n) := by
  unfold Machine.thermostat
  dsimp only
  repeat' first
    | with_reducible exact h
    | with_reducible apply JobKeeps.setHeater
    | with_reducible apply JobKeeps.reduceClaim
    | with_reducible apply JobKeeps.stepDown
    | with_reducible apply JobKeeps.stepUp
    | with_reducible apply JobKeeps.ite
    | split

theorem satisfiedClock {c} (h : JobKeeps a n) : JobKeeps a (satisfiedClock c n) := by
  unfold Machine.satisfiedClock
  repeat' first
    | with_reducible exact h
    | with_reducible apply JobKeeps.setHeater
    | with_reducible apply JobKeeps.ite
    | split

theorem satisfiedSetpoint {c} (h : JobKeeps a n) : JobKeeps a (satisfiedSetpoint c n) := by
  unfold Machine.satisfiedSetpoint
  repeat' first
    | with_reducible exact h
    | with_reducible apply JobKeeps.satisfiedClock
    | with_reducible apply JobKeeps.ite

theorem lossClock {c} (h : JobKeeps a n) : JobKeeps a (lossClock c n) := by
  unfold Machine.lossClock
  dsimp only
  repeat' first
    | with_reducible exact h
    | with_reducible apply JobKeeps.setHeater
    | with_reducible apply JobKeeps.ite
    | split

theorem flameLost {c} (h : JobKeeps a n) : JobKeeps a (flameLost c n) := by
  unfold Machine.flameLost
  dsimp only
  repeat' first
    | with_reducible exact h
    | with_reducible apply JobKeeps.setHeater
    | with_reducible apply JobKeeps.setFlag
    | with_reducible apply JobKeeps.enterCooldown
    | with_reducible apply JobKeeps.ite
    | split

theorem overheat {c} (h : JobKeeps a n) : JobKeeps a (overheat c n) := by
  unfold Machine.overheat
  repeat' first
    | with_reducible exact h
    | with_reducible apply JobKeeps.setHeater
    | with_reducible apply JobKeeps.lockoutStop
    | with_reducible apply JobKeeps.ite

theorem exhaustByState {c} (h : JobKeeps a n) : JobKeeps a (exhaustByState c n) := by
  unfold Machine.exhaustByState
  repeat' first
    | with_reducible exact h
    | with_reducible apply JobKeeps.standbyCheck
    | with_reducible apply JobKeeps.endCooldown
    | with_reducible apply JobKeeps.enterRun
    | with_reducible apply JobKeeps.lossClock
    | with_reducible apply JobKeeps.ite
    | split

theorem exhaustReading {c} (h : JobKeeps a n) : JobKeeps a (exhaustReading c n) := by
  unfold Machine.exhaustReading
  dsimp only
  repeat' first
    | with_reducible exact h
    | with_reducible apply JobKeeps.setHeater
    | with_reducible apply JobKeeps.enterCooldown
    | with_reducible apply JobKeeps.overheat
    | with_reducible apply JobKeeps.exhaustByState
    | with_reducible apply JobKeeps.ite

theorem cabinDelivered {c} (h : JobKeeps a n) : JobKeeps a (cabinDelivered c n) := by
  unfold Machine.cabinDelivered
  repeat' first
    | with_reducible exact h
    | with_reducible apply JobKeeps.standbyCheck
    | with_reducible apply JobKeeps.thermostat
    | with_reducible apply JobKeeps.satisfiedClock
    | split

theorem heaterGranted (h : JobKeeps a n) : JobKeeps a (heaterGranted n) := by
  unfold Machine.heaterGranted
  dsimp only
  repeat' first
    | with_reducible exact h
    | with_reducible apply JobKeeps.setHeater
    | with_reducible apply JobKeeps.ask
    | with_reducible apply JobKeeps.enterPurge
    | with_reducible apply JobKeeps.takeLevel
    | with_reducible apply JobKeeps.ite
    | split

theorem heaterNoEnergy (h : JobKeeps a n) : JobKeeps a (heaterNoEnergy n) := by
  unfold Machine.heaterNoEnergy
  repeat' first
    | with_reducible exact h
    | with_reducible apply JobKeeps.setHeater
    | with_reducible apply JobKeeps.setReason
    | with_reducible apply JobKeeps.standbyCheck
    | split

theorem heaterShed (h : JobKeeps a n) : JobKeeps a (heaterShed n) := by
  unfold Machine.heaterShed
  repeat' first
    | with_reducible exact h
    | with_reducible apply JobKeeps.heaterDark
    | with_reducible apply JobKeeps.heaterTo
    | with_reducible apply JobKeeps.setReason
    | with_reducible apply JobKeeps.enterCooldown
    | split

theorem heaterTrip {c i} (h : JobKeeps a n) : JobKeeps a (heaterTrip c i n) := by
  unfold Machine.heaterTrip
  repeat' first
    | with_reducible exact h
    | with_reducible apply JobKeeps.releaseClaim
    | with_reducible apply JobKeeps.heaterDark
    | with_reducible apply JobKeeps.heaterTo
    | with_reducible apply JobKeeps.setReason
    | with_reducible apply JobKeeps.failAttempt
    | with_reducible apply JobKeeps.lockoutStop
    | with_reducible apply JobKeeps.ite
    | split

theorem heaterNotice {i k} (h : JobKeeps a n) : JobKeeps a (heaterNotice i k n) := by
  unfold Machine.heaterNotice
  repeat' first
    | with_reducible exact h
    | with_reducible apply JobKeeps.standbyCheck
    | with_reducible apply JobKeeps.heaterTrip
    | with_reducible apply JobKeeps.ite
    | split

theorem stopCold {c s} (h : JobKeeps a n) : JobKeeps a (stopCold c s n) := by
  unfold Machine.stopCold
  repeat' first
    | with_reducible exact h
    | with_reducible apply JobKeeps.releaseClaim
    | with_reducible apply JobKeeps.heaterDark
    | with_reducible apply JobKeeps.heaterTo

theorem modeChange {c o} (h : JobKeeps a n) : JobKeeps a (modeChange c o n) := by
  unfold Machine.modeChange
  dsimp only
  repeat' first
    | with_reducible exact h
    | with_reducible apply JobKeeps.releaseClaim
    | with_reducible apply JobKeeps.heaterTo
    | with_reducible apply JobKeeps.standbyCheck
    | with_reducible apply JobKeeps.enterCooldown
    | with_reducible apply JobKeeps.thermostat
    | with_reducible apply JobKeeps.satisfiedSetpoint
    | with_reducible apply JobKeeps.stopCold
    | with_reducible apply JobKeeps.ite
    | split

theorem takeMode {c o k} (h : JobKeeps a n) : JobKeeps a (takeMode c o k n) := by
  unfold Machine.takeMode
  dsimp only
  repeat' first
    | with_reducible exact h
    | with_reducible apply JobKeeps.setHeater
    | with_reducible apply JobKeeps.modeChange
    | with_reducible apply JobKeeps.ite

theorem resetHeater (h : JobKeeps a n) : JobKeeps a (resetHeater n) := by
  unfold Machine.resetHeater
  dsimp only
  repeat' first
    | with_reducible exact h
    | with_reducible apply JobKeeps.setHeater
    | with_reducible apply JobKeeps.ite

theorem heaterCheck (h : JobKeeps a n) : JobKeeps a (heaterCheck n) := by
  unfold Machine.heaterCheck
  repeat' first
    | with_reducible exact h
    | with_reducible apply JobKeeps.standbyCheck
    | split

theorem upToDate {c u} (h : JobKeeps a n) : JobKeeps a (upToDate c u n) := by
  unfold Machine.upToDate
  repeat' first
    | with_reducible exact h
    | with_reducible apply JobKeeps.setUnit

theorem reportEntry {e o} (h : JobKeeps a n) : JobKeeps a (Machine.report e o n) := by
  unfold Machine.report
  repeat' first
    | with_reducible exact h
    | with_reducible apply JobKeeps.setUnit
    | split

theorem mem_removeEntry {e x : Entry} {l : List Entry} (h : x ∈ removeEntry e l) : x ∈ l := by
  induction l with
  | nil => exact h
  | cons y ys ih =>
    simp only [removeEntry] at h
    split at h
    · exact List.mem_cons_of_mem _ h
    · rcases List.mem_cons.mp h with h | h
      · simp [h]
      · exact List.mem_cons_of_mem _ (ih h)

theorem mem_replaceEntry {e new x : Entry} {l : List Entry} (h : x ∈ replaceEntry e new l) : x = new ∨ x ∈ l := by
  induction l with
  | nil => exact .inr h
  | cons y ys ih =>
    simp only [replaceEntry] at h
    split at h <;> rcases List.mem_cons.mp h with h | h
    · exact .inl h
    · exact .inr (List.mem_cons_of_mem _ h)
    · simp [h]
    · exact (ih h).imp id (List.mem_cons_of_mem _)

theorem mem_insertSafety {e x : Entry} {l : List Entry} (h : x ∈ insertSafety e l) : x = e ∨ x ∈ l := by
  induction l with
  | nil => exact .inl (List.mem_singleton.mp h)
  | cons y ys ih =>
    simp only [insertSafety] at h
    split at h
    · exact List.mem_cons.mp h
    · rcases List.mem_cons.mp h with h | h
      · simp [h]
      · exact (ih h).imp id (List.mem_cons_of_mem _)

theorem mayStand_congr {m : Node} (h : m.view = n.view) (k : m.cfg = n.cfg) (e : Entry) :
    mayStand m e = mayStand n e := by
  have c : m.unitCfg e.unit = n.unitCfg e.unit := by cases e.unit <;> simp [Node.unitCfg, k]
  simp only [mayStand, interlocked, h, c]

/-- An entry of an old list in another state of waiting. -/
theorem mayStand_waits {e : Entry} {s : EntryState} (h : mayStand n e = true) (hs : e.state = .queued) :
    mayStand n { e with state := s } = true := by
  simp only [mayStand, hs] at h ⊢
  simp only [Bool.or_eq_true, Bool.not_eq_true'] at h ⊢
  rcases h with h | h
  · exact .inl h
  · cases h

theorem mayStand_active {e : Entry} (h : e.state = .active) : mayStand n e = true := by simp [mayStand, h]

theorem mayStand_safety {e : Entry} (h : isCommand e = false) : mayStand n e = true := by simp [mayStand, h]

/-- Replacing an entry by one that may stand. -/
theorem setReplaced {e new} (hn : mayStand n new = true) (h : JobKeeps a n) :
    JobKeeps a (n.setList (replaceEntry e new n.motion.list)) :=
  h.setList fun x hx => (mem_replaceEntry hx).elim (fun y => .inr (y ▸ hn)) .inl

/-- Inserting a safety entry. -/
theorem setSafety {e l} (he : isCommand e = false) (hl : ∀ x ∈ l, x ∈ n.motion.list) (h : JobKeeps a n) :
    JobKeeps a (n.setList (insertSafety e l)) :=
  h.setList fun x hx => (mem_insertSafety hx).elim (fun y => .inr (y ▸ mayStand_safety he)) fun y => .inl (hl x y)

theorem endEntry {e o} (h : JobKeeps a n) : JobKeeps a (endEntry e o n) := by
  unfold Machine.endEntry
  exact (h.setList fun _ hx => .inl (mem_removeEntry hx)).reportEntry

theorem endAll {u o} (h : JobKeeps a n) : JobKeeps a (endAll u o n) :=
  foldl _ (fun _ _ k => k.endEntry) _ _ h

theorem beginDrive {u d} (h : JobKeeps a n) : JobKeeps a (beginDrive u d n) := by
  unfold Machine.beginDrive
  dsimp only
  repeat' first
    | with_reducible exact h
    | with_reducible apply JobKeeps.setUnit
    | with_reducible apply JobKeeps.bridgeDrive
    | with_reducible apply JobKeeps.ite

theorem beginDwell {u d} (h : JobKeeps a n) : JobKeeps a (beginDwell u d n) := by
  unfold Machine.beginDwell
  dsimp only
  repeat' first
    | with_reducible exact h
    | with_reducible apply JobKeeps.setUnit
    | with_reducible apply JobKeeps.bridgeCoast

theorem startMove {u d} (h : JobKeeps a n) : JobKeeps a (startMove u d n) := by
  unfold Machine.startMove
  dsimp only
  repeat' first
    | with_reducible exact h
    | with_reducible apply JobKeeps.bridgeClear
    | with_reducible apply JobKeeps.beginDrive
    | with_reducible apply JobKeeps.beginDwell
    | with_reducible apply JobKeeps.ite

theorem fileClaim_motion {i k w d} : (Machine.fileClaim i k w d n).motion = n.motion := by
  unfold Machine.fileClaim; repeat' split
  all_goals rfl

theorem fileHead {c u} (h : JobKeeps a n) : JobKeeps a (fileHead c u n) := by
  unfold Machine.fileHead
  dsimp only
  split
  · exact h
  · rename_i e he
    have m := List.mem_of_find?_eq_some he
    split
    · exact h
    · rename_i hq
      simp only [not_or, ne_eq, not_not] at hq
      split
      · exact h.endEntry
      · split
        · refine JobKeeps.setUnit (h.fileClaim.setMotion fun _ f x hx hu => (mem_replaceEntry hx).elim ?_ fun y => ?_)
          · rintro rfl
            exact mayStand_waits (f e (by rw [fileClaim_motion]; exact m) hu) hq.1
          · exact f x (by rw [fileClaim_motion]; exact y) hu
        · exact (h.fileClaim.setReplaced (mayStand_active rfl)).startMove

theorem fileNext {c u} (h : JobKeeps a n) : JobKeeps a (fileNext c u n) := by
  unfold Machine.fileNext
  repeat' first
    | with_reducible exact h
    | with_reducible apply JobKeeps.fileHead

theorem faultUnit {c u k o} (h : JobKeeps a n) : JobKeeps a (faultUnit c u k o n) := by
  unfold Machine.faultUnit
  dsimp only
  repeat' first
    | with_reducible exact h
    | with_reducible apply JobKeeps.setUnit
    | with_reducible apply JobKeeps.setFlag
    | with_reducible apply JobKeeps.bump
    | with_reducible apply JobKeeps.releaseClaim
    | with_reducible apply JobKeeps.bridgeCoast
    | with_reducible apply JobKeeps.upToDate
    | with_reducible apply JobKeeps.endAll
    | with_reducible apply JobKeeps.ite

theorem finishMove {c u r} (h : JobKeeps a n) : JobKeeps a (finishMove c u r n) := by
  unfold Machine.finishMove
  dsimp only
  repeat' first
    | with_reducible exact h
    | with_reducible apply JobKeeps.setUnit
    | with_reducible apply JobKeeps.releaseClaim
    | with_reducible apply JobKeeps.endEntry
    | with_reducible apply JobKeeps.fileNext
    | split

theorem redirect {c u k} (h : JobKeeps a n) : JobKeeps a (redirect c u k n) := by
  unfold Machine.redirect
  dsimp only
  repeat' first
    | with_reducible exact h
    | with_reducible apply JobKeeps.setUnit
    | with_reducible apply JobKeeps.bridgeBrake
    | with_reducible apply JobKeeps.upToDate
    | with_reducible apply JobKeeps.beginDrive
    | with_reducible apply JobKeeps.beginDwell
    | with_reducible apply JobKeeps.finishMove
    | with_reducible apply JobKeeps.ite
    | split

theorem report_list {e o} : (Machine.report e o n).motion.list = n.motion.list := by
  unfold Machine.report
  split
  · cases e.unit <;> rfl
  · rfl

theorem placeRequest {c u k o} (hk : mayStand n ⟨u, k, o, .queued⟩ = true) (h : JobKeeps a n) :
    JobKeeps a (placeRequest c u k o n) := by
  have new {m : Node} (j : JobKeeps n m) : mayStand m ⟨u, k, o, .queued⟩ = true := by
    rw [mayStand_congr j.view j.cfg]; exact hk
  unfold Machine.placeRequest
  dsimp only
  split
  · refine fileNext (setReplaced ?_ (releaseClaim (reportEntry h)))
    exact new (releaseClaim (reportEntry (refl n)))
  · split
    · rename_i e _
      rw [← report_list (n := n) (e := e) (o := .replaced)]
      refine fileNext (setReplaced ?_ (reportEntry h))
      exact new (reportEntry (refl n))
    · split
      · rename_i e _
        rw [← report_list (n := n) (e := e) (o := .replaced)]
        refine redirect (setReplaced ?_ (reportEntry h))
        exact mayStand_active rfl
      · refine fileNext (h.setList fun x hx => (List.mem_append.mp hx).imp id fun y => ?_)
        rw [List.mem_singleton.mp y]
        exact hk

theorem safetyRequest {u o} (ho : o = .travel ∨ o = .wind) (h : JobKeeps a n) : JobKeeps a (safetyRequest u o n) := by
  have new (s : EntryState) : isCommand ⟨u, .retract, o, s⟩ = false := by rcases ho with rfl | rfl <;> rfl
  unfold Machine.safetyRequest
  dsimp only
  split
  · exact h
  · refine h.setFlag.ite h |>.ite (h.ite ?_)
    split
    · refine redirect (convertClaim ?_)
      exact h.reportEntry.setSafety (new _) fun x hx => mem_removeEntry hx
    · split
      · refine startMove (convertClaim ?_)
        exact h.reportEntry.setSafety (new _) fun x hx => mem_removeEntry hx
      · exact fileNext (h.setSafety (new _) fun _ hx => hx)

theorem safetyCheck {u} (h : JobKeeps a n) : JobKeeps a (safetyCheck u n) := by
  unfold Machine.safetyCheck
  exact h.ite ((h.safetyRequest (.inl rfl)).ite ((h.safetyRequest (.inr rfl)).ite h))

theorem unitGranted {u} (h : JobKeeps a n) : JobKeeps a (unitGranted u n) := by
  unfold Machine.unitGranted
  dsimp only
  split
  · split
    · exact (h.setReplaced (mayStand_active rfl)).startMove
    · exact h
  · exact h

theorem unitNoEnergy {u} (h : JobKeeps a n) : JobKeeps a (unitNoEnergy u n) := by
  unfold Machine.unitNoEnergy
  repeat' first
    | with_reducible exact h
    | with_reducible apply JobKeeps.endEntry
    | with_reducible apply JobKeeps.fileNext
    | split

theorem unitShed {u} (h : JobKeeps a n) : JobKeeps a (unitShed u n) := by
  unfold Machine.unitShed
  dsimp only
  repeat' first
    | with_reducible exact h
    | with_reducible apply JobKeeps.setUnit
    | with_reducible apply JobKeeps.bridgeCoast
    | with_reducible apply JobKeeps.upToDate
    | with_reducible apply JobKeeps.endEntry
    | with_reducible apply JobKeeps.fileNext
    | split

theorem stopAtRest {c u} (h : JobKeeps a n) : JobKeeps a (stopAtRest c u n) := by
  unfold Machine.stopAtRest
  dsimp only
  repeat' first
    | with_reducible exact h
    | with_reducible apply JobKeeps.setUnit
    | with_reducible apply JobKeeps.releaseClaim
    | with_reducible apply JobKeeps.endAll
    | with_reducible apply JobKeeps.safetyCheck
    | with_reducible apply JobKeeps.ite

theorem stopInMove {c u} (h : JobKeeps a n) : JobKeeps a (stopInMove c u n) := by
  unfold Machine.stopInMove
  dsimp only
  repeat' first
    | with_reducible exact h
    | with_reducible apply JobKeeps.setUnit
    | with_reducible apply JobKeeps.bridgeCoast
    | with_reducible apply JobKeeps.faultUnit
    | with_reducible apply JobKeeps.finishMove
    | with_reducible apply JobKeeps.ite

theorem endStopChange {u f} (h : JobKeeps a n) : JobKeeps a (endStopChange u f n) := by
  unfold Machine.endStopChange
  dsimp only
  split
  · exact h
  · rename_i c _
    have k : JobKeeps a (if isMoving (n.unit u) then Machine.stopInMove c u n else Machine.stopAtRest c u n) :=
      h.stopInMove.ite h.stopAtRest
    exact k.safetyCheck.ite k

theorem interlockEntries {c u} (h : JobKeeps a n) : JobKeeps a (interlockEntries c u n) :=
  (foldl _ (fun m e k => by
    dsimp only
    split
    · exact k.releaseClaim.endEntry
    · exact k.endEntry) _ _ h).fileNext

theorem interlockUnit {o u} (ho : o = .travel ∨ o = .wind) (h : JobKeeps a n) : JobKeeps a (interlockUnit o u n) := by
  unfold Machine.interlockUnit
  dsimp only
  split
  · exact h
  · exact h.interlockEntries.ite (h.interlockEntries.safetyRequest ho)

/-- Taking away every entry that meets a test leaves none. -/
theorem removeAll_filter {p : Entry → Bool} :
    ∀ (k l : List Entry), l.filter p = k → (k.foldl (fun l e => removeEntry e l) l).filter p = [] := by
  have one {e : Entry} {k : List Entry} : ∀ l : List Entry, l.filter p = e :: k → (removeEntry e l).filter p = k := by
    intro l
    induction l with
    | nil => intro h; cases h
    | cons x xs ih =>
      intro h
      simp only [removeEntry]
      by_cases hx : p x = true
      · rw [List.filter_cons_of_pos hx] at h
        obtain ⟨rfl, h⟩ := List.cons.inj h
        simpa using h
      · rw [List.filter_cons_of_neg hx] at h
        have : e ∈ xs.filter p := by simp [h]
        have he := (List.mem_filter.mp this).2
        have : x ≠ e := by rintro rfl; exact hx he
        rw [if_neg this, List.filter_cons_of_neg hx]
        exact ih h
  intro k
  induction k with
  | nil => exact fun l h => h
  | cons e k ih => exact fun l h => ih _ (one l h)

theorem endEntry_list {e o} : (Machine.endEntry e o n).motion.list = removeEntry e n.motion.list := by
  unfold Machine.endEntry
  rw [report_list]
  rfl

/-- When a view has turned true for a unit, no entry of it that extends waits. -/
theorem interlockUnit_fits {o u} (ho : o = .travel ∨ o = .wind) : unitFits u (Machine.interlockUnit o u n) := by
  unfold Machine.interlockUnit
  split
  · rename_i hc
    intro e _ hu
    subst hu
    simp [mayStand, hc]
  · rename_i c hc
    have fits : unitFits u (Machine.interlockEntries c u n) := by
      unfold Machine.interlockEntries
      refine ((refl _).fileNext).list u ?_
      have fold : ∀ (k : List Entry) (m : Node),
          (k.foldl (fun n e => Machine.endEntry e .interlock
            (if e.state = .waitingEnergy then Machine.releaseClaim (slotUnit u) n else n)) m).motion.list
            = k.foldl (fun l e => removeEntry e l) m.motion.list := by
        intro k
        induction k with
        | nil => exact fun _ => rfl
        | cons e k ih =>
          intro m
          refine (ih _).trans ?_
          rw [endEntry_list, List.foldl_cons]
          have r : (Machine.releaseClaim (slotUnit u) m).motion = m.motion := by
            unfold Machine.releaseClaim; split <;> rfl
          split
          · rw [r]
          · rfl
      intro e he hu
      rw [fold] at he
      have no := removeAll_filter (p := fun e => e.unit == u && e.state != .active && isCommand e && isExtend e.action) _
        n.motion.list rfl
      rw [List.filter_eq_nil_iff] at no
      have := no e he
      simp only [hu, beq_self_eq_true, Bool.true_and, Bool.and_eq_true, bne_iff_ne, not_and, Bool.not_eq_true] at this
      simp only [mayStand, Bool.or_eq_true, Bool.not_eq_true', beq_iff_eq]
      by_cases ha : e.state = .active
      · exact .inr ha
      · left
        cases hk : isCommand e
        · simp
        · simp [this ⟨ha, hk⟩]
    have k : JobKeeps (Machine.interlockEntries c u n) (Machine.interlockUnit o u n) := by
      unfold Machine.interlockUnit
      simp only [hc]
      exact (refl _).ite ((refl _).safetyRequest ho)
    have := k.list u fits
    simpa only [Machine.interlockUnit, hc] using this

theorem motionTravel (h : JobKeeps a n) : JobKeeps a (motionTravel n) :=
  (h.interlockUnit (.inl rfl)).interlockUnit (.inl rfl)

theorem motionWind (h : JobKeeps a n) : JobKeeps a (motionWind n) := h.interlockUnit (.inr rfl)

theorem lightClaim {b k} (h : JobKeeps a n) : JobKeeps a (lightClaim b k n) := by
  unfold Machine.lightClaim
  dsimp only
  repeat' first
    | with_reducible exact h
    | with_reducible apply JobKeeps.fileClaim
    | with_reducible apply JobKeeps.releaseClaim
    | with_reducible apply JobKeeps.raiseClaim
    | with_reducible apply JobKeeps.reduceClaim
    | with_reducible apply JobKeeps.ite

theorem lightShare {b} (h : JobKeeps a n) : JobKeeps a (lightShare b n) := by
  unfold Machine.lightShare
  repeat' first
    | with_reducible exact h
    | with_reducible apply JobKeeps.setLamps

theorem darken {l} (h : JobKeeps a n) : JobKeeps a (darken l n) :=
  foldl _ (fun m x k => by
    split
    · exact k.ask
    · exact k) _ _ h

theorem mapLamps {f} (h : JobKeeps a n) : JobKeeps a (n.mapLamps f) := by
  unfold Machine.Node.mapLamps
  repeat' first
    | with_reducible exact h
    | with_reducible apply JobKeeps.setLamps

theorem lightsUpdate (h : JobKeeps a n) : JobKeeps a (lightsUpdate n) := by
  unfold Machine.lightsUpdate
  dsimp only
  repeat' first
    | with_reducible exact h
    | with_reducible apply JobKeeps.setLamps
    | with_reducible apply JobKeeps.lightClaim
    | with_reducible apply JobKeeps.lightShare
    | with_reducible apply JobKeeps.darken
    | split

theorem switchChange {i} (h : JobKeeps a n) : JobKeeps a (switchChange i n) := by
  unfold Machine.switchChange
  dsimp only
  repeat' first
    | with_reducible exact h
    | with_reducible apply JobKeeps.mapLamps
    | with_reducible apply JobKeeps.ite

theorem courtesyCheck (h : JobKeeps a n) : JobKeeps a (courtesyCheck n) := by
  unfold Machine.courtesyCheck
  repeat' first
    | with_reducible exact h
    | with_reducible apply JobKeeps.setLights
    | split

theorem lightNotice {i k} (h : JobKeeps a n) : JobKeeps a (lightNotice i k n) := by
  unfold Machine.lightNotice
  dsimp only
  repeat' first
    | with_reducible exact h
    | with_reducible apply JobKeeps.ask
    | with_reducible apply JobKeeps.mapLamps
    | with_reducible apply JobKeeps.ite

theorem auxClaim (h : JobKeeps a n) : JobKeeps a (auxClaim n) := by
  unfold Machine.auxClaim
  dsimp only
  repeat' first
    | with_reducible exact h
    | with_reducible apply JobKeeps.fileClaim
    | with_reducible apply JobKeeps.releaseClaim
    | with_reducible apply JobKeeps.raiseClaim
    | with_reducible apply JobKeeps.reduceClaim
    | with_reducible apply JobKeeps.ite

theorem auxOff {i} (h : JobKeeps a n) : JobKeeps a (auxOff i n) := by
  unfold Machine.auxOff
  repeat' first
    | with_reducible exact h
    | with_reducible apply JobKeeps.setAux
    | with_reducible apply JobKeeps.ask
    | with_reducible apply JobKeeps.auxClaim
    | with_reducible apply JobKeeps.ite

theorem auxOn {i} (h : JobKeeps a n) : JobKeeps a (auxOn i n) := by
  unfold Machine.auxOn
  repeat' first
    | with_reducible exact h
    | with_reducible apply JobKeeps.setAux
    | with_reducible apply JobKeeps.auxClaim

theorem auxFit {i} (h : JobKeeps a n) : JobKeeps a (auxFit n i) := by
  unfold Machine.auxFit
  split
  · exact h.ask.setAux
  · exact h

theorem auxGranted (h : JobKeeps a n) : JobKeeps a (auxGranted n) := foldl _ (fun _ _ k => k.auxFit) _ _ h

theorem auxNoEnergy (h : JobKeeps a n) : JobKeeps a (auxNoEnergy n) :=
  (foldl _ (fun m x k => by
    split
    · exact k.setAux
    · exact k) _ _ h).auxClaim

theorem auxShed (h : JobKeeps a n) : JobKeeps a (auxShed n) :=
  foldl _ (fun m x k => by
    split
    · exact k.ask.setAux
    · exact k.setAux) _ _ h

theorem auxNotice {i k} (h : JobKeeps a n) : JobKeeps a (auxNotice i k n) := by
  unfold Machine.auxNotice
  repeat' first
    | with_reducible exact h
    | with_reducible apply JobKeeps.auxOff
    | with_reducible apply JobKeeps.ite

theorem tellShed {i} (h : JobKeeps a n) : JobKeeps a (tellShed i n) := by
  unfold Machine.tellShed
  repeat' first
    | with_reducible exact h
    | with_reducible apply JobKeeps.pumpShed
    | with_reducible apply JobKeeps.heaterShed
    | with_reducible apply JobKeeps.unitShed
    | with_reducible apply JobKeeps.auxShed
    | with_reducible apply JobKeeps.ite

theorem tellGranted {i} (h : JobKeeps a n) : JobKeeps a (tellGranted i n) := by
  unfold Machine.tellGranted
  repeat' first
    | with_reducible exact h
    | with_reducible apply JobKeeps.pumpGranted
    | with_reducible apply JobKeeps.heaterGranted
    | with_reducible apply JobKeeps.unitGranted
    | with_reducible apply JobKeeps.auxGranted
    | with_reducible apply JobKeeps.ite

theorem tellNoEnergy {i} (h : JobKeeps a n) : JobKeeps a (tellNoEnergy i n) := by
  unfold Machine.tellNoEnergy
  repeat' first
    | with_reducible exact h
    | with_reducible apply JobKeeps.pumpNoEnergy
    | with_reducible apply JobKeeps.heaterNoEnergy
    | with_reducible apply JobKeeps.unitNoEnergy
    | with_reducible apply JobKeeps.auxNoEnergy
    | with_reducible apply JobKeeps.ite

theorem shedClaims {l} (h : JobKeeps a n) : JobKeeps a (shedClaims l n) :=
  foldl _ (fun _ _ k => k.tellShed) _ _ h.endClaims

theorem tellOwner {i k} (h : JobKeeps a n) : JobKeeps a (tellOwner i k n) := by
  unfold Machine.tellOwner
  repeat' first
    | with_reducible exact h
    | with_reducible apply JobKeeps.pumpCheck
    | with_reducible apply JobKeeps.heaterNotice
    | with_reducible apply JobKeeps.lightNotice
    | with_reducible apply JobKeeps.auxNotice
    | split

theorem resetOutput {i} (h : JobKeeps a n) : JobKeeps a (resetOutput i n) := by
  unfold Machine.resetOutput
  dsimp only
  repeat' first
    | with_reducible exact h
    | with_reducible apply JobKeeps.setChan
    | with_reducible apply JobKeeps.releaseOutput
    | with_reducible apply JobKeeps.tellOwner
    | with_reducible apply JobKeeps.ite

end JobKeeps
end Sys2Proof.Machine
end

