-- ==== Sys2Proof/Laws/Sound.lean ====
section
/-! SUPPORT. The bounds of the pools, queues and counters and the law of sheds, kept by the operations of the station
view, the accountant, the link controller and the end of an event. -/

namespace Sys2Proof.Machine

/-- A node whose state is decided. `B`: it is within its bounds, its request list under the interlocks, its bridges as
R179 allows from where they were. `W`: it is under the law of sheds. Neither rests on the other, and each operation keeps
both: `Fit True False` and `Fit False True` are the two apart. -/
structure Fit (B W : Prop) (br : MotionUnit → Bridge) (n : Node) : Prop where
  decided : n.state.isSome = true
  queue : B → queueFits n = true
  table : B → tableFits n = true
  counters : B → countersFit n = true
  law : W → n.shedLaw = true
  runs : B → n.held = false
  bridges : B → ∀ u, bridgeFits (n.bridge u) = true ∧ DwellKept n.now (br u) (n.bridge u)
  list : B → listFits n = true

namespace Fit

variable {B W : Prop} {br : MotionUnit → Bridge} {n : Node}

/-- What a job does leaves a node fit, when its request list is. -/
theorem ofJob {m k : Node} (j : JobKeeps m k) (decided : m.state.isSome = true) (queue : B → queueFits m = true)
    (table : B → tableFits m = true) (counters : B → countersFit m = true) (law : W → m.shedLaw = true)
    (runs : B → m.held = false)
    (bridges : B → ∀ u, bridgeFits (m.bridge u) = true ∧ DwellKept m.now (br u) (m.bridge u))
    (list : B → listFits k = true) :
    Fit B W br k where
  decided := by rw [j.state]; exact decided
  queue := by unfold queueFits; rw [j.tx]; exact queue
  table := by unfold tableFits; rw [j.view, j.station]; exact table
  counters := fun b => j.counters (counters b)
  law := fun w => j.law decided (law w)
  runs := by rw [j.held]; exact runs
  bridges := fun b u =>
    have x := j.bridges u (bridges b u).1
    ⟨x.1, by rw [j.now]; exact (bridges b u).2.trans x.2⟩
  list := list

/-- What a job does leaves a node fit. -/
theorem job {m : Node} (k : JobKeeps n m) (h : Fit B W br n) : Fit B W br m :=
  ofJob k h.decided h.queue h.table h.counters h.law h.runs h.bridges
    fun b => (listFits_iff m).mpr fun u => k.list u ((listFits_iff n).mp (h.list b) u)

theorem ite {c : Prop} [Decidable c] {x y : Node} (h : Fit B W br x) (k : Fit B W br y) : Fit B W br (if c then x else y) := by
  split <;> assumption

theorem foldl {α : Type} (f : Node → α → Node) (hf : ∀ m x, Fit B W br m → Fit B W br (f m x)) (l : List α) :
    ∀ n, Fit B W br n → Fit B W br (l.foldl f n) := by
  induction l with
  | nil => exact fun _ h => h
  | cons x _ ih => exact fun n h => ih (f n x) (hf n x h)

theorem setBattery {v} (h : Fit B W br n) : Fit B W br (n.setBattery v) := ⟨h.1, h.2, h.3, h.4, h.5, h.6, h.7, h.8⟩
theorem setWind {v} (h : Fit B W br n) : Fit B W br (n.setWind v) := ⟨h.1, h.2, h.3, h.4, h.5, h.6, h.7, h.8⟩
theorem setPub {v} (h : Fit B W br n) : Fit B W br (n.setPub v) := ⟨h.1, h.2, h.3, h.4, h.5, h.6, h.7, h.8⟩
theorem setEv {v} (h : Fit B W br n) : Fit B W br (n.setEv v) := ⟨h.1, h.2, h.3, h.4, h.5, h.6, h.7, h.8⟩

/-- A bank with the same bridges. -/
theorem setBank {v : Bank} (hA : v.bridgeA = n.bank.bridgeA) (hB : v.bridgeB = n.bank.bridgeB) (h : Fit B W br n) :
    Fit B W br (n.setBank v) :=
  ⟨h.1, h.2, h.3, h.4, h.5, h.6, fun b u => by
    have : (n.setBank v).bridge u = n.bridge u := by cases u <;> assumption
    rw [this]; exact h.7 b u, h.8⟩

/-- The law of sheds under a view with the same shed level. -/
theorem law_setView {v : View} (h : Fit B W br n) (hs : v.shed = n.view.shed) (w : W) : (n.setView v).shedLaw = true := by
  rw [shedLaw_iff]
  intro i
  have := (shedLaw_iff n).mp (h.law w) i
  simpa [hs, Node.claim] using this

/-- A view with the same shed level, a table that fits, and no view newly true. -/
theorem setView {v : View} (h : Fit B W br n) (hp : B → peersFit n.station v.peers = true) (hs : v.shed = n.view.shed)
    (ht : v.travel = true → n.view.travel = true := by exact id)
    (hw : v.wind = true → n.view.wind = true := by exact id) : Fit B W br (n.setView v) := by
  refine ⟨h.1, h.2, hp, h.4, h.law_setView hs, h.6, h.7, fun b => ?_⟩
  refine List.all_eq_true.mpr fun e he => ?_
  have := List.all_eq_true.mp (h.8 b) e he
  simp only [mayStand, interlocked, Bool.or_eq_true, Bool.not_eq_true', Bool.and_eq_false_iff,
    Bool.or_eq_false_iff] at this ⊢
  refine this.imp (fun o => o.imp_left fun o => o.imp_left fun o => o.imp id fun o => ?_) id
  exact ⟨Bool.eq_false_iff.mpr fun t => by simp [ht t] at o, o.2.imp id fun o =>
    Bool.eq_false_iff.mpr fun w => by simp [hw w] at o⟩

theorem peers (h : Fit B W br n) : B → peersFit n.station n.view.peers = true := h.3

/-- A new shed level, the claims it forbids ended. -/
theorem setShed {v : View} (h : Fit B W br n) (hp : v.peers = n.view.peers) (ht : v.travel = n.view.travel)
    (hw : v.wind = n.view.wind) (hc : W → ∀ i, claimLawful v.shed (n.claim i) = true) : Fit B W br (n.setView v) := by
  refine ⟨h.1, h.2, by unfold tableFits; rw [Node.setView_view, hp]; exact h.3, h.4, fun w => ?_, h.6, h.7, fun b => ?_⟩
  · rw [shedLaw_iff]
    exact fun i => ⟨hc w i, .inl h.1⟩
  · refine List.all_eq_true.mpr fun e he => ?_
    have := List.all_eq_true.mp (h.8 b) e he
    simpa only [mayStand, interlocked, Node.setView_view, ht, hw, Node.unitCfg, Node.setView_cfg] using this

theorem setCmd {v : CommandUnit} (h : Fit B W br n) (hc : B → v.counters.toList.all (fun k => decide (k ≤ counterTop)) = true) :
    Fit B W br (n.setCmd v) := ⟨h.1, h.2, h.3, hc, h.5, h.6, h.7, h.8⟩

/-- Another queue within its bounds. -/
theorem setTx {v : Transmitter} (h : Fit B W br n) (hq : B → queueFits (n.setTx v) = true) : Fit B W br (n.setTx v) :=
  ⟨h.1, hq, h.3, h.4, h.5, h.6, h.7, h.8⟩

theorem setTanks {v} (h : Fit B W br n) : Fit B W br (n.setTanks v) := h.job (JobKeeps.refl n).setTanks
theorem setPump {v} (h : Fit B W br n) : Fit B W br (n.setPump v) := h.job (JobKeeps.refl n).setPump
theorem setFrost {v} (h : Fit B W br n) : Fit B W br (n.setFrost v) := h.job (JobKeeps.refl n).setFrost
theorem setHeater {v} (h : Fit B W br n) : Fit B W br (n.setHeater v) := h.job (JobKeeps.refl n).setHeater
theorem setLights {v} (h : Fit B W br n) : Fit B W br (n.setLights v) := h.job (JobKeeps.refl n).setLights
theorem setLamps {v} (h : Fit B W br n) : Fit B W br (n.setLamps v) := h.job (JobKeeps.refl n).setLamps
theorem setUnit {u v} (h : Fit B W br n) : Fit B W br (n.setUnit u v) := h.job (JobKeeps.refl n).setUnit
theorem setChan {i v} (h : Fit B W br n) : Fit B W br (n.setChan i v) := h.job (JobKeeps.refl n).setChan
theorem setAux {i v} (h : Fit B W br n) : Fit B W br (n.setAux i v) := h.job (JobKeeps.refl n).setAux
theorem wantWait (h : Fit B W br n) : Fit B W br (n.wantWait ) := h.job (JobKeeps.refl n).wantWait
theorem setFlag {f} (h : Fit B W br n) : Fit B W br (Machine.setFlag f n) := h.job (JobKeeps.refl n).setFlag
theorem bump {c} (h : Fit B W br n) : Fit B W br (Machine.bump c n) := h.job (JobKeeps.refl n).bump
theorem fileClaim {i k w d} (h : Fit B W br n) : Fit B W br (Machine.fileClaim i k w d n) := h.job (JobKeeps.refl n).fileClaim
theorem releaseClaim {i} (h : Fit B W br n) : Fit B W br (Machine.releaseClaim i n) := h.job (JobKeeps.refl n).releaseClaim
theorem raiseClaim {i w d} (h : Fit B W br n) : Fit B W br (Machine.raiseClaim i w d n) := h.job (JobKeeps.refl n).raiseClaim
theorem reduceClaim {i r} (h : Fit B W br n) : Fit B W br (Machine.reduceClaim i r n) := h.job (JobKeeps.refl n).reduceClaim
theorem convertClaim {i k} (h : Fit B W br n) : Fit B W br (Machine.convertClaim i k n) := h.job (JobKeeps.refl n).convertClaim
theorem waitService (h : Fit B W br n) : Fit B W br (Machine.waitService  n) := h.job (JobKeeps.refl n).waitService
theorem settleClaims (h : Fit B W br n) : Fit B W br (Machine.settleClaims n).1 := h.job (JobKeeps.refl n).settleClaims
theorem endClaims {l} (h : Fit B W br n) : Fit B W br (Machine.endClaims l n) := h.job (JobKeeps.refl n).endClaims
theorem carrierGivenUp {e} (h : Fit B W br n) : Fit B W br (Machine.carrierGivenUp e n) := h.job (JobKeeps.refl n).carrierGivenUp
theorem carrierMoved {e k} (h : Fit B W br n) : Fit B W br (Machine.carrierMoved e k n) := h.job (JobKeeps.refl n).carrierMoved
theorem carriedBy {e} (h : Fit B W br n) : Fit B W br (Machine.carriedBy e n) := h.job (JobKeeps.refl n).carriedBy
theorem carrierSent {e} (h : Fit B W br n) : Fit B W br (Machine.carrierSent e n) := h.job (JobKeeps.refl n).carrierSent
theorem putOutput {i c} (h : Fit B W br n) : Fit B W br (n.putOutput i c) := h.job (JobKeeps.refl n).putOutput
theorem ask {i l} (h : Fit B W br n) : Fit B W br (Machine.ask i l n) := h.job (JobKeeps.refl n).ask
theorem releaseOutput {i} (h : Fit B W br n) : Fit B W br (Machine.releaseOutput i n) := h.job (JobKeeps.refl n).releaseOutput
theorem bridgeCoast {u} (h : Fit B W br n) : Fit B W br (Machine.bridgeCoast u n) := h.job (JobKeeps.refl n).bridgeCoast
theorem bridgeBrake {u} (h : Fit B W br n) : Fit B W br (Machine.bridgeBrake u n) := h.job (JobKeeps.refl n).bridgeBrake
theorem bridgeDrive {u d} (h : Fit B W br n) : Fit B W br (Machine.bridgeDrive u d n) := h.job (JobKeeps.refl n).bridgeDrive
theorem bridgeClear {u} (h : Fit B W br n) : Fit B W br (Machine.bridgeClear u n) := h.job (JobKeeps.refl n).bridgeClear
theorem excite {l} (h : Fit B W br n) : Fit B W br (Machine.excite l n) := h.job (JobKeeps.refl n).excite
theorem scanFlags {r t} (h : Fit B W br n) : Fit B W br (Machine.scanFlags r t n) := h.job (JobKeeps.refl n).scanFlags
theorem finishScan (h : Fit B W br n) : Fit B W br (Machine.finishScan  n) := h.job (JobKeeps.refl n).finishScan
theorem tanksTravel {t} (h : Fit B W br n) : Fit B W br (Machine.tanksTravel t n) := h.job (JobKeeps.refl n).tanksTravel
theorem pumpTo {s r} (h : Fit B W br n) : Fit B W br (Machine.pumpTo s r n) := h.job (JobKeeps.refl n).pumpTo
theorem pumpStop {c} (h : Fit B W br n) : Fit B W br (Machine.pumpStop c n) := h.job (JobKeeps.refl n).pumpStop
theorem pumpFile {c} (h : Fit B W br n) : Fit B W br (Machine.pumpFile c n) := h.job (JobKeeps.refl n).pumpFile
theorem pumpBegin {c} (h : Fit B W br n) : Fit B W br (Machine.pumpBegin c n) := h.job (JobKeeps.refl n).pumpBegin
theorem pumpLow (h : Fit B W br n) : Fit B W br (Machine.pumpLow  n) := h.job (JobKeeps.refl n).pumpLow
theorem pumpEvaluate {c} (h : Fit B W br n) : Fit B W br (Machine.pumpEvaluate c n) := h.job (JobKeeps.refl n).pumpEvaluate
theorem pumpDemand {c} (h : Fit B W br n) : Fit B W br (Machine.pumpDemand c n) := h.job (JobKeeps.refl n).pumpDemand
theorem pumpGranted (h : Fit B W br n) : Fit B W br (Machine.pumpGranted  n) := h.job (JobKeeps.refl n).pumpGranted
theorem pumpNoEnergy (h : Fit B W br n) : Fit B W br (Machine.pumpNoEnergy  n) := h.job (JobKeeps.refl n).pumpNoEnergy
theorem pumpShed (h : Fit B W br n) : Fit B W br (Machine.pumpShed  n) := h.job (JobKeeps.refl n).pumpShed
theorem pumpDry {c} (h : Fit B W br n) : Fit B W br (Machine.pumpDry c n) := h.job (JobKeeps.refl n).pumpDry
theorem pumpCheck (h : Fit B W br n) : Fit B W br (Machine.pumpCheck  n) := h.job (JobKeeps.refl n).pumpCheck
theorem keepTemp (h : Fit B W br n) : Fit B W br (Machine.keepTemp  n) := h.job (JobKeeps.refl n).keepTemp
theorem beginMove {s i} (h : Fit B W br n) : Fit B W br (Machine.beginMove s i n) := h.job (JobKeeps.refl n).beginMove
theorem frostTo {s} (h : Fit B W br n) : Fit B W br (Machine.frostTo s n) := h.job (JobKeeps.refl n).frostTo
theorem frostEvaluate {c} (h : Fit B W br n) : Fit B W br (Machine.frostEvaluate c n) := h.job (JobKeeps.refl n).frostEvaluate
theorem frostCheck (h : Fit B W br n) : Fit B W br (Machine.frostCheck  n) := h.job (JobKeeps.refl n).frostCheck
theorem stateFromContact {c} (h : Fit B W br n) : Fit B W br (Machine.stateFromContact c n) := h.job (JobKeeps.refl n).stateFromContact
theorem contactChange {c b} (h : Fit B W br n) : Fit B W br (Machine.contactChange c b n) := h.job (JobKeeps.refl n).contactChange
theorem endMove {c} (h : Fit B W br n) : Fit B W br (Machine.endMove c n) := h.job (JobKeeps.refl n).endMove
theorem fuelOff {c} (h : Fit B W br n) : Fit B W br (Machine.fuelOff c n) := h.job (JobKeeps.refl n).fuelOff
theorem heaterDark {c} (h : Fit B W br n) : Fit B W br (Machine.heaterDark c n) := h.job (JobKeeps.refl n).heaterDark
theorem heaterTo {s} (h : Fit B W br n) : Fit B W br (Machine.heaterTo s n) := h.job (JobKeeps.refl n).heaterTo
theorem setReason {r} (h : Fit B W br n) : Fit B W br (Machine.setReason r n) := h.job (JobKeeps.refl n).setReason
theorem startCheck {c} (h : Fit B W br n) : Fit B W br (Machine.startCheck c n) := h.job (JobKeeps.refl n).startCheck
theorem ventCheck {c} (h : Fit B W br n) : Fit B W br (Machine.ventCheck c n) := h.job (JobKeeps.refl n).ventCheck
theorem standbyCheck {c} (h : Fit B W br n) : Fit B W br (Machine.standbyCheck c n) := h.job (JobKeeps.refl n).standbyCheck
theorem enterCooldown {c} (h : Fit B W br n) : Fit B W br (Machine.enterCooldown c n) := h.job (JobKeeps.refl n).enterCooldown
theorem enterLockout (h : Fit B W br n) : Fit B W br (Machine.enterLockout  n) := h.job (JobKeeps.refl n).enterLockout
theorem endCooldown {c} (h : Fit B W br n) : Fit B W br (Machine.endCooldown c n) := h.job (JobKeeps.refl n).endCooldown
theorem failAttempt {c r} (h : Fit B W br n) : Fit B W br (Machine.failAttempt c r n) := h.job (JobKeeps.refl n).failAttempt
theorem lockoutStop {c r} (h : Fit B W br n) : Fit B W br (Machine.lockoutStop c r n) := h.job (JobKeeps.refl n).lockoutStop
theorem enterPurge {c} (h : Fit B W br n) : Fit B W br (Machine.enterPurge c n) := h.job (JobKeeps.refl n).enterPurge
theorem enterGlow {c} (h : Fit B W br n) : Fit B W br (Machine.enterGlow c n) := h.job (JobKeeps.refl n).enterGlow
theorem enterIgnite {c} (h : Fit B W br n) : Fit B W br (Machine.enterIgnite c n) := h.job (JobKeeps.refl n).enterIgnite
theorem takeLevel {c k} (h : Fit B W br n) : Fit B W br (Machine.takeLevel c k n) := h.job (JobKeeps.refl n).takeLevel
theorem enterRun {c} (h : Fit B W br n) : Fit B W br (Machine.enterRun c n) := h.job (JobKeeps.refl n).enterRun
theorem stepDown {c k} (h : Fit B W br n) : Fit B W br (Machine.stepDown c k n) := h.job (JobKeeps.refl n).stepDown
theorem stepUp {c k} (h : Fit B W br n) : Fit B W br (Machine.stepUp c k n) := h.job (JobKeeps.refl n).stepUp
theorem thermostat {c} (h : Fit B W br n) : Fit B W br (Machine.thermostat c n) := h.job (JobKeeps.refl n).thermostat
theorem satisfiedClock {c} (h : Fit B W br n) : Fit B W br (Machine.satisfiedClock c n) := h.job (JobKeeps.refl n).satisfiedClock
theorem satisfiedSetpoint {c} (h : Fit B W br n) : Fit B W br (Machine.satisfiedSetpoint c n) := h.job (JobKeeps.refl n).satisfiedSetpoint
theorem lossClock {c} (h : Fit B W br n) : Fit B W br (Machine.lossClock c n) := h.job (JobKeeps.refl n).lossClock
theorem flameLost {c} (h : Fit B W br n) : Fit B W br (Machine.flameLost c n) := h.job (JobKeeps.refl n).flameLost
theorem overheat {c} (h : Fit B W br n) : Fit B W br (Machine.overheat c n) := h.job (JobKeeps.refl n).overheat
theorem exhaustByState {c} (h : Fit B W br n) : Fit B W br (Machine.exhaustByState c n) := h.job (JobKeeps.refl n).exhaustByState
theorem exhaustReading {c} (h : Fit B W br n) : Fit B W br (Machine.exhaustReading c n) := h.job (JobKeeps.refl n).exhaustReading
theorem cabinDelivered {c} (h : Fit B W br n) : Fit B W br (Machine.cabinDelivered c n) := h.job (JobKeeps.refl n).cabinDelivered
theorem heaterGranted (h : Fit B W br n) : Fit B W br (Machine.heaterGranted  n) := h.job (JobKeeps.refl n).heaterGranted
theorem heaterNoEnergy (h : Fit B W br n) : Fit B W br (Machine.heaterNoEnergy  n) := h.job (JobKeeps.refl n).heaterNoEnergy
theorem heaterShed (h : Fit B W br n) : Fit B W br (Machine.heaterShed  n) := h.job (JobKeeps.refl n).heaterShed
theorem heaterTrip {c i} (h : Fit B W br n) : Fit B W br (Machine.heaterTrip c i n) := h.job (JobKeeps.refl n).heaterTrip
theorem heaterNotice {i k} (h : Fit B W br n) : Fit B W br (Machine.heaterNotice i k n) := h.job (JobKeeps.refl n).heaterNotice
theorem stopCold {c s} (h : Fit B W br n) : Fit B W br (Machine.stopCold c s n) := h.job (JobKeeps.refl n).stopCold
theorem modeChange {c o} (h : Fit B W br n) : Fit B W br (Machine.modeChange c o n) := h.job (JobKeeps.refl n).modeChange
theorem takeMode {c o k} (h : Fit B W br n) : Fit B W br (Machine.takeMode c o k n) := h.job (JobKeeps.refl n).takeMode
theorem resetHeater (h : Fit B W br n) : Fit B W br (Machine.resetHeater  n) := h.job (JobKeeps.refl n).resetHeater
theorem heaterCheck (h : Fit B W br n) : Fit B W br (Machine.heaterCheck  n) := h.job (JobKeeps.refl n).heaterCheck
theorem upToDate {c u} (h : Fit B W br n) : Fit B W br (Machine.upToDate c u n) := h.job (JobKeeps.refl n).upToDate
theorem reportEntry {e o} (h : Fit B W br n) : Fit B W br (Machine.report e o n) := h.job (JobKeeps.refl n).reportEntry
theorem endEntry {e o} (h : Fit B W br n) : Fit B W br (Machine.endEntry e o n) := h.job (JobKeeps.refl n).endEntry
theorem endAll {u o} (h : Fit B W br n) : Fit B W br (Machine.endAll u o n) := h.job (JobKeeps.refl n).endAll
theorem beginDrive {u d} (h : Fit B W br n) : Fit B W br (Machine.beginDrive u d n) := h.job (JobKeeps.refl n).beginDrive
theorem beginDwell {u d} (h : Fit B W br n) : Fit B W br (Machine.beginDwell u d n) := h.job (JobKeeps.refl n).beginDwell
theorem startMove {u d} (h : Fit B W br n) : Fit B W br (Machine.startMove u d n) := h.job (JobKeeps.refl n).startMove
theorem fileHead {c u} (h : Fit B W br n) : Fit B W br (Machine.fileHead c u n) := h.job (JobKeeps.refl n).fileHead
theorem fileNext {c u} (h : Fit B W br n) : Fit B W br (Machine.fileNext c u n) := h.job (JobKeeps.refl n).fileNext
theorem faultUnit {c u k o} (h : Fit B W br n) : Fit B W br (Machine.faultUnit c u k o n) := h.job (JobKeeps.refl n).faultUnit
theorem finishMove {c u r} (h : Fit B W br n) : Fit B W br (Machine.finishMove c u r n) := h.job (JobKeeps.refl n).finishMove
theorem redirect {c u k} (h : Fit B W br n) : Fit B W br (Machine.redirect c u k n) := h.job (JobKeeps.refl n).redirect
theorem placeRequest {c u k o} (hk : mayStand n ⟨u, k, o, .queued⟩ = true) (h : Fit B W br n) :
    Fit B W br (Machine.placeRequest c u k o n) := h.job ((JobKeeps.refl n).placeRequest hk)
theorem safetyRequest {u o} (ho : o = .travel ∨ o = .wind) (h : Fit B W br n) : Fit B W br (Machine.safetyRequest u o n) :=
  h.job ((JobKeeps.refl n).safetyRequest ho)
theorem safetyCheck {u} (h : Fit B W br n) : Fit B W br (Machine.safetyCheck u n) := h.job (JobKeeps.refl n).safetyCheck
theorem unitGranted {u} (h : Fit B W br n) : Fit B W br (Machine.unitGranted u n) := h.job (JobKeeps.refl n).unitGranted
theorem unitNoEnergy {u} (h : Fit B W br n) : Fit B W br (Machine.unitNoEnergy u n) := h.job (JobKeeps.refl n).unitNoEnergy
theorem unitShed {u} (h : Fit B W br n) : Fit B W br (Machine.unitShed u n) := h.job (JobKeeps.refl n).unitShed
theorem stopAtRest {c u} (h : Fit B W br n) : Fit B W br (Machine.stopAtRest c u n) := h.job (JobKeeps.refl n).stopAtRest
theorem stopInMove {c u} (h : Fit B W br n) : Fit B W br (Machine.stopInMove c u n) := h.job (JobKeeps.refl n).stopInMove
theorem endStopChange {u f} (h : Fit B W br n) : Fit B W br (Machine.endStopChange u f n) := h.job (JobKeeps.refl n).endStopChange
theorem interlockEntries {c u} (h : Fit B W br n) : Fit B W br (Machine.interlockEntries c u n) := h.job (JobKeeps.refl n).interlockEntries
theorem interlockUnit {o u} (ho : o = .travel ∨ o = .wind) (h : Fit B W br n) : Fit B W br (Machine.interlockUnit o u n) :=
  h.job ((JobKeeps.refl n).interlockUnit ho)
theorem motionTravel (h : Fit B W br n) : Fit B W br (Machine.motionTravel  n) := h.job (JobKeeps.refl n).motionTravel
theorem motionWind (h : Fit B W br n) : Fit B W br (Machine.motionWind  n) := h.job (JobKeeps.refl n).motionWind
theorem lightClaim {b k} (h : Fit B W br n) : Fit B W br (Machine.lightClaim b k n) := h.job (JobKeeps.refl n).lightClaim
theorem lightShare {b} (h : Fit B W br n) : Fit B W br (Machine.lightShare b n) := h.job (JobKeeps.refl n).lightShare
theorem darken {l} (h : Fit B W br n) : Fit B W br (Machine.darken l n) := h.job (JobKeeps.refl n).darken
theorem mapLamps {f} (h : Fit B W br n) : Fit B W br (n.mapLamps f) := h.job (JobKeeps.refl n).mapLamps
theorem lightsUpdate (h : Fit B W br n) : Fit B W br (Machine.lightsUpdate  n) := h.job (JobKeeps.refl n).lightsUpdate
theorem switchChange {i} (h : Fit B W br n) : Fit B W br (Machine.switchChange i n) := h.job (JobKeeps.refl n).switchChange
theorem courtesyCheck (h : Fit B W br n) : Fit B W br (Machine.courtesyCheck  n) := h.job (JobKeeps.refl n).courtesyCheck
theorem lightNotice {i k} (h : Fit B W br n) : Fit B W br (Machine.lightNotice i k n) := h.job (JobKeeps.refl n).lightNotice
theorem auxClaim (h : Fit B W br n) : Fit B W br (Machine.auxClaim  n) := h.job (JobKeeps.refl n).auxClaim
theorem auxOff {i} (h : Fit B W br n) : Fit B W br (Machine.auxOff i n) := h.job (JobKeeps.refl n).auxOff
theorem auxOn {i} (h : Fit B W br n) : Fit B W br (Machine.auxOn i n) := h.job (JobKeeps.refl n).auxOn
theorem auxFit {i} (h : Fit B W br n) : Fit B W br (Machine.auxFit n i) := h.job (JobKeeps.refl n).auxFit
theorem auxGranted (h : Fit B W br n) : Fit B W br (Machine.auxGranted  n) := h.job (JobKeeps.refl n).auxGranted
theorem auxNoEnergy (h : Fit B W br n) : Fit B W br (Machine.auxNoEnergy  n) := h.job (JobKeeps.refl n).auxNoEnergy
theorem auxShed (h : Fit B W br n) : Fit B W br (Machine.auxShed  n) := h.job (JobKeeps.refl n).auxShed
theorem auxNotice {i k} (h : Fit B W br n) : Fit B W br (Machine.auxNotice i k n) := h.job (JobKeeps.refl n).auxNotice
theorem tellShed {i} (h : Fit B W br n) : Fit B W br (Machine.tellShed i n) := h.job (JobKeeps.refl n).tellShed
theorem tellGranted {i} (h : Fit B W br n) : Fit B W br (Machine.tellGranted i n) := h.job (JobKeeps.refl n).tellGranted
theorem tellNoEnergy {i} (h : Fit B W br n) : Fit B W br (Machine.tellNoEnergy i n) := h.job (JobKeeps.refl n).tellNoEnergy
theorem shedClaims {l} (h : Fit B W br n) : Fit B W br (Machine.shedClaims l n) := h.job (JobKeeps.refl n).shedClaims
theorem tellOwner {i k} (h : Fit B W br n) : Fit B W br (Machine.tellOwner i k n) := h.job (JobKeeps.refl n).tellOwner
theorem resetOutput {i} (h : Fit B W br n) : Fit B W br (Machine.resetOutput i n) := h.job (JobKeeps.refl n).resetOutput

/-! ## The station view -/

theorem ids {q : List TxEntry} {k : Nat} (h : ∀ e ∈ q, e.id < k) : ∀ i ∈ q.map (·.id), i < k := by
  intro i hi
  obtain ⟨e, he, rfl⟩ := List.mem_map.mp hi
  exact h e he

theorem queue_iff (m : Node) : queueFits m = true ↔
    m.tx.queue.length ≤ queueLimit ∧ (m.tx.queue.map (·.id)).Nodup ∧ (∀ e ∈ m.tx.queue, e.id < m.tx.nextId) ∧
      (periodicKinds (queuedPart m.tx)).Nodup := by
  simp [queueFits, and_assoc]

theorem peers_iff (st : Option Nat) (l : List Peer) : peersFit st l = true ↔
    l.length ≤ peerLimit ∧ (l.map (·.station)).Nodup ∧ ∀ p ∈ l, some p.station ≠ st := by
  simp [peersFit, and_assoc]

theorem lawful_of_law (h : Fit B W br n) (w : W) (i : Fin 8) : claimLawful n.view.shed (n.claim i) = true :=
  ((shedLaw_iff n).mp (h.law w) i).1

/-- A claim after some slots have been ended. -/
theorem claim_endClaims (l : List (Fin 8)) (i : Fin 8) :
    ∀ m : Node, (Machine.endClaims l m).claim i = if i ∈ l then {} else m.claim i := by
  induction l with
  | nil => intro m; simp [Machine.endClaims]
  | cons x xs ih =>
    intro m
    have e : Machine.endClaims (x :: xs) m = Machine.endClaims xs (m.setClaim x {}) := rfl
    rw [e, ih, Node.claim_setClaim]
    by_cases hx : i ∈ xs
    · simp [hx]
    · by_cases hix : x = i
      · simp [hix]
      · simp [hx, hix, Ne.symm hix]

theorem endClaims_view (l : List (Fin 8)) : ∀ m : Node, (Machine.endClaims l m).view = m.view := by
  induction l with
  | nil => exact fun _ => rfl
  | cons x xs ih => exact fun m => ih (m.setClaim x {})

/-- Ending claims leaves the other parts alone. -/
theorem endClaims_parts (l : List (Fin 8)) : ∀ k : Node, (Machine.endClaims l k).state = k.state ∧
    (Machine.endClaims l k).tx = k.tx ∧ (Machine.endClaims l k).cmd = k.cmd ∧
    (Machine.endClaims l k).station = k.station ∧ (Machine.endClaims l k).held = k.held ∧
    (Machine.endClaims l k).now = k.now ∧ (Machine.endClaims l k).bank = k.bank ∧
    (Machine.endClaims l k).cfg = k.cfg ∧ (Machine.endClaims l k).motion = k.motion := by
  induction l with
  | nil => exact fun _ => ⟨rfl, rfl, rfl, rfl, rfl, rfl, rfl, rfl, rfl⟩
  | cons x xs ih => exact fun k => ih (k.setClaim x {})

/-- Ending the claims that a new shed level forbids leaves the node fit under that level. -/
theorem shedTo {m : Node} {l : List (Fin 8)} (hs : m.state.isSome = true) (hq : B → queueFits m = true)
    (ht : B → tableFits m = true) (hc : B → countersFit m = true) (hr : B → m.held = false)
    (hb : B → ∀ u, bridgeFits (m.bridge u) = true ∧ DwellKept m.now (br u) (m.bridge u)) (hm : B → listFits m = true)
    (hl : W → ∀ i, claimLawful m.view.shed (m.claim i) = true ∨ i ∈ l) : Fit B W br (Machine.shedClaims l m) := by
  obtain ⟨f1, f2, f3, f4, f5, f6, f7, f8, f9⟩ := endClaims_parts l m
  have fit : Fit B W br (Machine.endClaims l m) := by
    refine ⟨by rw [f1]; exact hs, by unfold queueFits; rw [f2]; exact hq,
      by unfold tableFits; rw [endClaims_view, f4]; exact ht, by unfold countersFit; rw [f3]; exact hc, fun w => ?_,
      by rw [f5]; exact hr, fun b u => ?_, fun b => ?_⟩
    · rw [shedLaw_iff]
      intro i
      rw [claim_endClaims, endClaims_view, f1]
      refine ⟨?_, .inl hs⟩
      split
      · exact JobKeeps.lawful_empty _
      · exact (hl w i).resolve_right ‹_›
    · have : (Machine.endClaims l m).bridge u = m.bridge u := by cases u <;> simp only [Node.bridge, f7]
      rw [this, f6]
      exact hb b u
    · unfold listFits
      rw [f9]
      refine List.all_eq_true.mpr fun e he => ?_
      rw [JobKeeps.mayStand_congr (endClaims_view l m) f8]
      exact List.all_eq_true.mp (hm b) e he
  exact foldl _ (fun _ _ k => k.tellShed) _ _ fit

theorem mem_slots (i : Fin 8) : i ∈ slots := by revert i; decide

theorem lawful_or_ended {shed : Nat} (c : Claim) : claimLawful shed c = true ∨ shedEnds shed c = true := by
  cases hs : c.state <;> by_cases hh : c.held = 0 <;> cases hf : forbids shed c.cls <;>
    simp [claimLawful, shedEnds, hs, hh, hf] <;> omega

theorem lawful_mono {a b : Nat} {c : Claim} (h : a ≤ b) (hl : claimLawful b c = true) : claimLawful a c = true := by
  simp only [claimLawful, forbids, Bool.or_eq_true, Bool.not_eq_true', Bool.and_eq_false_iff, decide_eq_false_iff_not] at hl ⊢
  rcases hl with ((hl | hl) | hl) | hl
  · exact .inl (.inl (.inl (by omega)))
  · exact .inl (.inl (.inr hl))
  · exact .inl (.inr hl)
  · exact .inr hl

/-- The interlocks do not read the shed level. -/
theorem listFits_view {v : View} (h : Fit B W br n) (ht : v.travel = n.view.travel) (hw : v.wind = n.view.wind)
    (b : B) : listFits (n.setView v) = true := by
  refine List.all_eq_true.mpr fun e he => ?_
  have := List.all_eq_true.mp (h.8 b) e he
  simpa only [mayStand, interlocked, Node.setView_view, ht, hw, Node.unitCfg, Node.setView_cfg] using this

theorem refreshShed (h : Fit B W br n) : Fit B W br (refreshShed n) := by
  simp only [Machine.refreshShed]
  split
  · exact h
  · split
    · refine shedTo h.1 h.2 h.3 h.4 h.6 h.7 (h.listFits_view rfl rfl) fun w i => ?_
      rcases lawful_or_ended (shed := effectiveShed n) (n.claim i) with hl | hl
      · exact .inl hl
      · exact .inr (by simp only [List.mem_filter]; exact ⟨mem_slots i, hl⟩)
    · apply wantWait
      exact h.setShed rfl rfl rfl fun w i => lawful_mono (Nat.le_of_not_lt ‹_›) (h.lawful_of_law w i)

theorem enterSilent (h : Fit B W br n) : Fit B W br (enterSilent n) := by
  simp only [Machine.enterSilent]
  refine shedTo rfl (fun b => ?_) h.3 h.4 h.6 h.7 ?_ fun w i => ?_
  · have hq := h.queue b
    rw [queue_iff] at hq ⊢
    simp only [Node.setTx_tx, Node.setView_tx]
    by_cases ha : n.tx.attempt = .none
    · simp [ha, queuedPart, periodicKinds]
    · simp only [ha, if_false]
      refine ⟨(List.length_take_le _ _).trans (by decide), ?_, fun e he => hq.2.2.1 e (List.mem_of_mem_take he), ?_⟩
      · exact ((List.take_sublist _ _).map _).nodup hq.2.1
      · simp [queuedPart, ha, periodicKinds]
  · exact h.listFits_view (v := { n.view with shed := 4, listen := none }) rfl rfl
  · by_cases hc : silentEnds (n.claim i) = true
    · exact .inr (by simp only [List.mem_filter]; exact ⟨mem_slots i, hc⟩)
    · left
      simp only [silentEnds, Bool.and_eq_true, decide_eq_true_eq, bne_iff_ne, not_and, ne_eq, not_not] at hc
      simp only [claimLawful, forbids, Bool.or_eq_true, Bool.not_eq_true', beq_iff_eq]
      by_cases h4 : (n.claim i).cls < 4
      · exact .inl (.inr (hc h4))
      · left; left
        have : ((n.claim i).cls < 4) = False := by simp [h4]
        show (decide _ && decide ((n.claim i).cls < 4)) = false
        simp [h4]

theorem refreshSource (h : Fit B W br n) : Fit B W br (refreshSource n) := h.setView h.peers rfl

theorem accept {a s b r} (h : Fit B W br n) : Fit B W br (accept a s b r n) := by
  simp only [Machine.accept]
  repeat' first | with_reducible apply wantWait | with_reducible apply refreshShed
  exact h.setView h.peers rfl

theorem enterOrphan (h : Fit B W br n) : Fit B W br (enterOrphan n) := by
  simp only [Machine.enterOrphan]
  repeat' first | with_reducible apply wantWait | with_reducible apply refreshShed | with_reducible apply setFlag
  exact h.setView h.peers rfl

/-- A view newly true, the entries that it forbids ended. -/
theorem refreshTravel (h : Fit B W br n) : Fit B W br (refreshTravel n) := by
  simp only [Machine.refreshTravel]
  split
  · exact h
  · split
    · rename_i ht
      refine ofJob (JobKeeps.refl _).tanksTravel.motionTravel h.1 h.2 h.3 h.4 (h.law_setView rfl) h.6 h.7 fun b => ?_
      rw [listFits_iff]
      rintro (_ | _)
      · exact ((JobKeeps.refl _).interlockUnit (.inl rfl)).list _ (JobKeeps.interlockUnit_fits (.inl rfl))
      · exact JobKeeps.interlockUnit_fits (.inl rfl)
    · rename_i ht
      refine tanksTravel (h.setView h.peers rfl fun t => ?_)
      exact absurd t ht

theorem refreshWind (h : Fit B W br n) : Fit B W br (refreshWind n) := by
  simp only [Machine.refreshWind]
  split
  · exact h
  · split
    · refine ofJob (JobKeeps.refl _).motionWind h.1 h.2 h.3 h.4 (h.law_setView rfl) h.6 h.7 fun b => ?_
      rw [listFits_iff]
      rintro (_ | _)
      · exact JobKeeps.interlockUnit_fits (.inr rfl)
      · refine (JobKeeps.refl _).motionWind.list _ fun e he hu => ?_
        have := List.all_eq_true.mp (h.8 b) e he
        simpa [mayStand, interlocked, hu, Node.unitCfg] using this
    · rename_i hw
      refine h.setView h.peers rfl id fun w => ?_
      exact absurd w hw

theorem removePeer {s} (h : Fit B W br n) : Fit B W br (removePeer s n) := by
  simp only [Machine.removePeer]
  have k : Fit B W br (n.setView { n.view with peers := n.view.peers.filter fun p => p.station != s }) := by
    refine h.setView (fun p => ?_) rfl
    obtain ⟨a, b, c⟩ := (peers_iff _ _).mp (h.peers p)
    exact (peers_iff _ _).mpr ⟨(List.length_filter_le _ _).trans a, (List.filter_sublist.map _).nodup b,
      fun p hp => c p (List.mem_of_mem_filter hp)⟩
  exact k.wantWait.refreshSource.refreshTravel.refreshWind.pumpCheck.frostCheck.courtesyCheck

theorem sighting {t} (h : Fit B W br n) : Fit B W br (sighting t n) := by
  simp only [Machine.sighting]
  repeat' split
  · exact h.setFlag.enterSilent
  · exact h.setFlag.setView h.setFlag.peers rfl
  · exact h.setFlag.setView h.setFlag.peers rfl
  · exact h

theorem derive {x} (h : Fit B W br n) : Fit B W br (derive x n) := by
  have a : Fit B W br (Machine.acceptFrame x (Machine.refreshSource n)) := by
    unfold Machine.acceptFrame
    repeat' split
    · exact h.refreshSource.accept
    · exact h.refreshSource
    · exact h.refreshSource
  simp only [Machine.derive]
  split
  · exact a.wantWait
  · exact a.refreshTravel.refreshWind
  · exact a

theorem fillPart_station (f : Frame) (p : Peer) : (fillPart f p).station = p.station := by
  unfold fillPart; split <;> rfl

/-- The table after a frame of another station (R36). -/
theorem upsertPeer_fits {x : RxFrame} {l l' : List Peer} {st : Option Nat} (e : upsertPeer x l = some l')
    (hx : st ≠ some x.source) (h : peersFit st l = true) : peersFit st l' = true := by
  obtain ⟨a, b, c⟩ := (peers_iff _ _).mp h
  simp only [upsertPeer] at e
  split at e
  · cases e
    have keep : ∀ p : Peer, (if p.station = x.source then fillPart x.frame { p with heard := x.stamp } else p).station
        = p.station := fun p => by split <;> simp [fillPart_station]
    refine (peers_iff _ _).mpr ⟨by simpa using a, ?_, fun p hp => ?_⟩
    · rw [List.map_map]
      have : (fun p : Peer => p.station) ∘ (fun p => if p.station = x.source then
          fillPart x.frame { p with heard := x.stamp } else p) = fun p => p.station := funext keep
      rw [this]
      exact b
    · obtain ⟨q, hq, rfl⟩ := List.mem_map.mp hp
      rw [keep]
      exact c q hq
  · rename_i ha
    split at e
    · cases e
      refine (peers_iff _ _).mpr ⟨by simp; omega, ?_, fun p hp => ?_⟩
      · rw [List.map_append, List.nodup_append]
        refine ⟨b, by simp, fun s hs k hk => ?_⟩
        simp only [List.map_cons, List.map_nil, List.mem_singleton, fillPart_station] at hk
        obtain ⟨q, hq, rfl⟩ := List.mem_map.mp hs
        rintro rfl
        exact ha (List.any_eq_true.mpr ⟨q, hq, by simpa using hk⟩)
      · rcases List.mem_append.mp hp with hp | hp
        · exact c p hp
        · rw [List.mem_singleton.mp hp, fillPart_station]
          exact fun k => hx k.symm
    · cases e

theorem takeFrame {x} (h : Fit B W br n) : Fit B W br (takeFrame x n).1 := by
  simp only [Machine.takeFrame]
  repeat' split
  · exact h
  · exact h.sighting
  · exact h
  · exact h
  · rename_i hx _ _ peers e
    exact derive (h.setView (fun b => upsertPeer_fits e hx (h.peers b)) rfl)

theorem dispatch {job x} (hj : ∀ m, Fit B W br m → Fit B W br (job m)) (h : Fit B W br n) : Fit B W br (dispatch job x n) := by
  simp only [Machine.dispatch]
  split
  · exact hj _ h.takeFrame
  · exact h.takeFrame

theorem handOver (h : Fit B W br n) : Fit B W br (handOver n) := by
  unfold Machine.handOver
  repeat' split
  · exact h.accept
  · exact h
  · exact h

theorem measure {c r v} (h : Fit B W br n) : Fit B W br (measure c r v n) := by
  unfold Machine.measure
  dsimp only
  with_reducible apply handOver
  repeat' first
    | with_reducible exact h
    | with_reducible apply ite
    | with_reducible apply setEv
    | with_reducible apply bump
    | with_reducible apply setBattery

/-! ## The transmit queue and the end of an event -/

theorem locked_queued (t : Transmitter) : lockedPart t ++ queuedPart t = t.queue := by
  unfold lockedPart queuedPart
  split
  · simp
  · exact List.take_append_drop 1 t.queue

theorem periodicKinds_append (a b : List TxEntry) : periodicKinds (a ++ b) = periodicKinds a ++ periodicKinds b := by
  simp [periodicKinds]

theorem periodicKinds_sublist {a b : List TxEntry} (h : a.Sublist b) : (periodicKinds a).Sublist (periodicKinds b) :=
  (h.map _).filter _

/-- A frame appended behind the locked entry and some of the queued ones. -/
theorem appendFrame {q f} (h : Fit B W br n) (hq : q.Sublist (queuedPart n.tx))
    (hl : B → (lockedPart n.tx ++ q).length < queueLimit)
    (hk : isPeriodic (kindOf f) = true → kindOf f ∉ periodicKinds q) :
    Fit B W br (appendFrame (lockedPart n.tx ++ q) f n).1 := by
  refine h.setTx fun b => ?_
  have hn := (queue_iff n).mp (h.queue b)
  have hs : (lockedPart n.tx ++ q).Sublist n.tx.queue := by
    rw [← locked_queued n.tx]
    exact (List.Sublist.refl _).append hq
  have hlt : ∀ e ∈ lockedPart n.tx ++ q, e.id < n.tx.nextId := fun e he => hn.2.2.1 e (hs.subset he)
  have new : ([{ id := n.tx.nextId, frame := f }] : List TxEntry).map (·.id) = [n.tx.nextId] := rfl
  have tail : (queuedPart { n.tx with
      queue := lockedPart n.tx ++ q ++ [{ id := n.tx.nextId, frame := f }], nextId := n.tx.nextId + 1 }).Sublist
      (q ++ [{ id := n.tx.nextId, frame := f }]) := by
    unfold queuedPart lockedPart at *
    by_cases hn : n.tx.attempt = .none
    · simp [hn]
    · simp only [hn, if_false] at hq ⊢
      cases hz : n.tx.queue with
      | nil => simp [hz] at hq ⊢; simp [hq]
      | cons y ys => simp
  refine (queue_iff _).mpr ⟨?_, ?_, ?_, ?_⟩
  · have hl := hl b
    simp only [Node.setTx_tx, List.length_append, List.length_singleton] at hl ⊢
    omega
  · rw [Node.setTx_tx, List.map_append, new]
    refine List.nodup_append.mpr ⟨(hs.map _).nodup hn.2.1, by simp, ?_⟩
    intro i hi j hj e
    have := ids hlt i hi
    simp at hj
    omega
  · simp only [Node.setTx_tx]
    intro e he
    rcases List.mem_append.mp he with he | he
    · have := hlt e he; omega
    · rw [List.mem_singleton.mp he]; simp
  · refine (periodicKinds_sublist tail).nodup ?_
    rw [periodicKinds_append, List.nodup_append]
    refine ⟨(periodicKinds_sublist hq).nodup hn.2.2.2, ?_, fun k hk' j hj e => ?_⟩
    · simp only [periodicKinds, List.map_cons, List.map_nil]
      exact List.filter_sublist.nodup (by simp)
    · simp only [periodicKinds, List.map_cons, List.map_nil, List.mem_filter, List.mem_singleton] at hj
      obtain ⟨rfl, hp⟩ := hj
      exact hk hp (e ▸ hk')

theorem dropYoungest_sublist {q r : List TxEntry} (h : dropYoungest q = some r) :
    r.Sublist q ∧ r.length < q.length := by
  induction q generalizing r with
  | nil => simp [dropYoungest] at h
  | cons e rest ih =>
    simp only [dropYoungest] at h
    split at h
    · rename_i r' hr
      cases h
      have := ih hr
      exact ⟨this.1.cons_cons e, by simpa using this.2⟩
    · split at h
      · cases h; exact ⟨List.sublist_cons_self _ _, by simp⟩
      · cases h

theorem lastOfKind_none {k : Kind} {q : List TxEntry} (h : lastOfKind k q = none) : k ∉ periodicKinds q := by
  simp only [lastOfKind, List.find?_eq_none, List.mem_reverse, beq_iff_eq] at h
  intro m
  obtain ⟨e, he, rfl⟩ := List.mem_map.mp (List.mem_of_mem_filter m)
  exact h e he rfl

theorem replaceFrame_kinds {e : TxEntry} {f : Frame} {q : List TxEntry} (hf : kindOf e.frame = kindOf f)
    (hq : ∀ x ∈ q, x.id = e.id → kindOf x.frame = kindOf e.frame) :
    periodicKinds (replaceFrame e.id f q) = periodicKinds q := by
  simp only [periodicKinds, replaceFrame, List.map_map]
  congr 1
  refine List.map_congr_left fun x hx => ?_
  simp only [Function.comp_apply]
  split
  · exact hf.symm.trans (hq x hx ‹_›).symm
  · rfl

theorem queuedPart_replace (t : Transmitter) (k : Nat) (f : Frame) :
    queuedPart { t with queue := replaceFrame k f t.queue } = replaceFrame k f (queuedPart t) := by
  unfold queuedPart replaceFrame
  split
  · rfl
  · exact (List.map_drop ..).symm

theorem placePeriodic {f} (h : Fit B W br n) : Fit B W br (placePeriodic f n).1 := by
  have hq (b : B) := (queue_iff n).mp (h.queue b)
  simp only [Machine.placePeriodic]
  split
  · rename_i e he
    have hm : e ∈ queuedPart n.tx := by
      have := List.mem_of_find?_eq_some he
      simpa using this
    have hf : kindOf e.frame = kindOf f := by simpa using List.find?_some he
    refine h.setTx fun b => (queue_iff _).mpr ?_
    have hq := hq b
    have hmap : ∀ q : List TxEntry, (replaceFrame e.id f q).map (·.id) = q.map (·.id) := by
      intro q
      simp only [replaceFrame, List.map_map]
      apply List.map_congr_left
      intro x _
      simp only [Function.comp_apply]
      split <;> rfl
    refine ⟨by simpa [replaceFrame] using hq.1, by simpa [hmap] using hq.2.1, ?_, ?_⟩
    · intro x hx
      have : x.id ∈ (replaceFrame e.id f n.tx.queue).map (·.id) := List.mem_map.mpr ⟨x, hx, rfl⟩
      rw [hmap] at this
      exact ids hq.2.2.1 _ this
    · have sub : (queuedPart n.tx).Sublist n.tx.queue := by
        rw [← locked_queued n.tx]; exact List.sublist_append_right _ _
      rw [Node.setTx_tx, queuedPart_replace, replaceFrame_kinds hf fun x hx hi => ?_]
      · exact hq.2.2.2
      · rw [(List.inj_on_of_nodup_map hq.2.1 (sub.subset hx) (sub.subset hm) hi : x = e)]
  · rename_i he
    split
    · have := h.appendFrame (q := queuedPart n.tx) (f := f) (List.Sublist.refl _) (fun _ => by rw [locked_queued]; assumption)
        fun _ => lastOfKind_none he
      rwa [locked_queued] at this
    · split
      · rename_i rest hr
        have hd := dropYoungest_sublist hr
        have e := congrArg List.length (locked_queued n.tx)
        refine h.bump.appendFrame hd.1 (fun b => ?_) fun _ m => ?_
        · show (lockedPart n.tx ++ rest).length < queueLimit
          simp only [List.length_append] at e ⊢
          have := (hq b).1
          omega
        · exact lastOfKind_none he ((periodicKinds_sublist hd.1).subset m)
      · exact h.bump

theorem placeAnswer {f} (hf : isPeriodic (kindOf f) = false) (h : Fit B W br n) : Fit B W br (placeAnswer f n).1 := by
  simp only [Machine.placeAnswer]
  split
  · have := h.appendFrame (q := queuedPart n.tx) (f := f) (List.Sublist.refl _) (fun _ => by rw [locked_queued]; assumption)
      fun k => by simp [hf] at k
    rwa [locked_queued] at this
  · exact h.bump

theorem queuePresence {n0} (h : Fit B W br n) : Fit B W br (queuePresence n0 n) := by
  simp only [Machine.queuePresence]; split
  · exact h.placePeriodic.setPub
  · exact h

theorem queueDraw {n0} (h : Fit B W br n) : Fit B W br (queueDraw n0 n) := by
  simp only [Machine.queueDraw]; split
  · split
    · exact h.placePeriodic.setPub.carriedBy
    · exact h.placePeriodic.setPub.carrierGivenUp
  · exact h

theorem queueAllowance {n0} (h : Fit B W br n) : Fit B W br (queueAllowance n0 n) := by
  simp only [Machine.queueAllowance]
  repeat' split
  · exact h.placePeriodic.setPub
  · exact h.setPub
  · exact h

theorem queueTanks {n0} (h : Fit B W br n) : Fit B W br (queueTanks n0 n) := by
  simp only [Machine.queueTanks]; split
  · exact h.placePeriodic.setPub
  · exact h

theorem queueClimate {n0} (h : Fit B W br n) : Fit B W br (queueClimate n0 n) := by
  simp only [Machine.queueClimate]
  repeat' split
  · exact h
  · exact h.placePeriodic.setPub
  · exact h

theorem queueMotion {n0} (h : Fit B W br n) : Fit B W br (queueMotion n0 n) := by
  simp only [Machine.queueMotion]; split
  · exact h.placePeriodic.setPub
  · exact h

theorem queueLights {n0} (h : Fit B W br n) : Fit B W br (queueLights n0 n) := by
  simp only [Machine.queueLights]; split
  · exact h.placePeriodic.setPub
  · exact h

theorem trackRestart_counters (e k : Nat) (c : CommandUnit) : (trackRestart e k c).counters = c.counters := by
  unfold trackRestart; split <;> rfl

theorem queueReply (h : Fit B W br n) : Fit B W br (queueReply n) := by
  simp only [Machine.queueReply]
  repeat' split
  · rename_i b _ _ _ _ _ _
    have k := h.placeAnswer (f := .reply b) rfl
    exact k.setCmd (by rw [trackRestart_counters]; exact k.counters)
  · exact (h.placeAnswer rfl).setEv
  · exact h.placeAnswer rfl
  · exact h.setEv
  · exact h

theorem queueReport (h : Fit B W br n) : Fit B W br (queueReport n) := by
  simp only [Machine.queueReport]; split
  · exact h.placeAnswer rfl
  · exact h

theorem propagate {n0} (h : Fit B W br n) : Fit B W br (propagate n0 n) := by
  unfold Machine.propagate
  dsimp only
  repeat' first
    | with_reducible exact h
    | with_reducible apply lightsUpdate
    | with_reducible apply ite
    | with_reducible apply heaterCheck
    | with_reducible apply frostCheck
    | with_reducible apply pumpCheck
    | with_reducible apply courtesyCheck

theorem restartCheck (h : Fit B W br n) : Fit B W br (restartCheck n) := by
  unfold Machine.restartCheck
  repeat' split
  · exact h
  · exact h.setEv
  · exact h

theorem finish {n0} (h : Fit B W br n) : Fit B W br (finish n0 n) := by
  unfold Machine.finish Machine.queueFrames Machine.serveWaits
  have p := h.propagate (n0 := n0)
  exact (p.waitService.ite p |>.queuePresence.queueDraw.queueAllowance.queueTanks.queueClimate.queueMotion.queueLights
    |>.queueReply.queueReport.restartCheck)

/-! ## The ends of an attempt -/

/-- A queue whose entries stood in it, with the same ids, and the periodic kinds of what is queued no more than before. -/
theorem requeue {v : Transmitter} (h : Fit B W br n) (hid : (v.queue.map (·.id)).Sublist (n.tx.queue.map (·.id)))
    (hn : v.nextId = n.tx.nextId) (hk : B → (periodicKinds (queuedPart v)).Nodup) : Fit B W br (n.setTx v) := by
  refine h.setTx fun b => (queue_iff _).mpr ⟨?_, ?_, fun e he => ?_, hk b⟩ <;>
    have hq := (queue_iff n).mp (h.queue b)
  · have := hid.length_le
    simp only [List.length_map] at this
    exact this.trans hq.1
  · exact hid.nodup hq.2.1
  · have := hid.subset (List.mem_map_of_mem he)
    rw [Node.setTx_tx, hn]
    exact ids hq.2.2.1 _ this

/-- In an attempt the kinds behind the head differ. -/
theorem kinds_behind (h : Fit B W br n) (ha : n.tx.attempt ≠ .none) (b : B) :
    (periodicKinds (n.tx.queue.drop 1)).Nodup := by
  have := ((queue_iff n).mp (h.queue b)).2.2.2
  simpa [queuedPart, ha] using this

theorem dropHead (h : Fit B W br n) (ha : n.tx.attempt ≠ .none) : Fit B W br (Machine.dropHead n) := by
  refine h.requeue ?_ rfl fun b => ?_
  · exact (List.drop_sublist 1 n.tx.queue).map _
  · simpa [queuedPart] using h.kinds_behind ha b

theorem giveUp {e} (h : Fit B W br n) (ha : n.tx.attempt ≠ .none) : Fit B W br (Machine.giveUp e n) := by
  simp only [Machine.giveUp]
  split
  · exact (h.dropHead ha).bump.carrierGivenUp
  · exact (h.dropHead ha).bump

/-- Once a newer frame has taken the head's place, no other of its kind is queued (R187). -/
theorem requeueHead {e rest} (h : Fit B W br n) (hq : n.tx.queue = e :: rest) (ha : n.tx.attempt ≠ .none) :
    Fit B W br (Machine.requeueHead e rest n) := by
  have kinds (b : B) : (periodicKinds rest).Nodup := by simpa [hq] using h.kinds_behind ha b
  simp only [Machine.requeueHead]
  split
  · rename_i x hx
    refine carrierMoved (h.requeue ?_ rfl fun b => ?_)
    · simp only [hq, List.map_cons]
      exact (List.filter_sublist.map _).cons_cons _
    · simp only [newerOf] at hx
      split at hx
      · have hk : kindOf x.frame = kindOf e.frame := by simpa using List.find?_some hx
        have hm : x ∈ rest := List.mem_of_find?_eq_some hx
        have hp : isPeriodic (kindOf x.frame) = true := by rw [hk]; assumption
        obtain ⟨front, behind, rfl⟩ := List.append_of_mem hm
        have cons (y : TxEntry) (l : List TxEntry) (hy : kindOf y.frame = kindOf x.frame) :
            periodicKinds (y :: l) = kindOf x.frame :: periodicKinds l := by simp [periodicKinds, hy, hp]
        have k := kinds b
        rw [periodicKinds_append, cons x behind rfl] at k
        have k' := (List.perm_middle.nodup_iff).mp k
        simp only [queuedPart, if_true]
        rw [cons { e with frame := x.frame, attempts := e.attempts + 1 } _ rfl]
        rw [← periodicKinds_append] at k'
        refine List.Sublist.nodup (List.Sublist.cons_cons _ (periodicKinds_sublist ?_)) k'
        rw [List.filter_append, List.filter_cons]
        simp only [bne_self_eq_false]
        exact List.filter_sublist.append List.filter_sublist
      · cases hx
  · rename_i hx
    refine h.requeue ?_ rfl fun b => ?_
    · simp [hq]
    · simp only [queuedPart, if_true]
      by_cases hp : isPeriodic (kindOf e.frame) = true
      · have : kindOf e.frame ∉ periodicKinds rest := by
          simp only [newerOf, hp, if_true, List.find?_eq_none, beq_iff_eq] at hx
          intro m
          obtain ⟨y, hy, hk⟩ := List.mem_map.mp (List.mem_of_mem_filter m)
          exact hx y hy hk
        simpa [periodicKinds, hp] using ⟨by simpa [periodicKinds, hp] using this, kinds b⟩
      · simpa [periodicKinds, hp] using kinds b

theorem failHead (h : Fit B W br n) (ha : n.tx.attempt ≠ .none) : Fit B W br (Machine.failHead n) := by
  simp only [Machine.failHead]
  split
  · exact h.requeue (by simp) rfl fun b => by
      rename_i hq
      simp [queuedPart, hq, periodicKinds]
  · repeat' split
    · exact h.dropHead ha
    · exact h.giveUp ha
    · exact h.requeueHead ‹_› ha

theorem frameSent (h : Fit B W br n) (ha : n.tx.attempt ≠ .none) : Fit B W br (Machine.frameSent n) := by
  have d := h.dropHead ha
  simp only [Machine.frameSent]
  repeat' split
  · exact d
  · exact d.carrierSent
  · exact d.bump.carrierSent
  · exact d
  · exact d.bump

theorem cutDriver (h : Fit B W br n) : Fit B W br (Machine.cutDriver n) := by
  have k : Fit B W br (Machine.bump .jabber (Machine.setFlag .jabber n)) := h.setFlag.bump
  have other {m : Node} (g : Fit B W br m) : Fit B W br (m.setTx { m.tx with jabber := true }) := g.setTx g.queue
  simp only [Machine.cutDriver]
  split
  · exact other k
  · exact other (k.failHead ‹_›)

end Fit

end Sys2Proof.Machine
end

