-- ==== Sys2Proof/Laws/Events.lean ====
section
/-! SUPPORT. What an event is: the node a command finds, when its effect takes place, and what it can answer. -/

namespace Sys2Proof.Machine

/-! ## The node a command finds -/

theorem keepTemp_cases (n : Node) : keepTemp n = n ∨ ∃ t : Int, keepTemp n = n.setFrost { n.frost with lastTemp := some t, grace := n.now } := by
  unfold keepTemp
  repeat' split
  · exact .inl rfl
  · exact .inr ⟨_, rfl⟩
  · exact .inl rfl

@[simp] theorem keepTemp_now (n : Node) : (keepTemp n).now = n.now := by
  rcases keepTemp_cases n with h | ⟨t, h⟩ <;> rw [h] <;> rfl
@[simp] theorem keepTemp_held (n : Node) : (keepTemp n).held = n.held := by
  rcases keepTemp_cases n with h | ⟨t, h⟩ <;> rw [h] <;> rfl
@[simp] theorem keepTemp_cause (n : Node) : (keepTemp n).cause = n.cause := by
  rcases keepTemp_cases n with h | ⟨t, h⟩ <;> rw [h] <;> rfl
@[simp] theorem keepTemp_checked (n : Node) : (keepTemp n).checked = n.checked := by
  rcases keepTemp_cases n with h | ⟨t, h⟩ <;> rw [h] <;> rfl
@[simp] theorem keepTemp_station (n : Node) : (keepTemp n).station = n.station := by
  rcases keepTemp_cases n with h | ⟨t, h⟩ <;> rw [h] <;> rfl
@[simp] theorem keepTemp_state (n : Node) : (keepTemp n).state = n.state := by
  rcases keepTemp_cases n with h | ⟨t, h⟩ <;> rw [h] <;> rfl
@[simp] theorem keepTemp_faultPin (n : Node) : (keepTemp n).faultPin = n.faultPin := by
  rcases keepTemp_cases n with h | ⟨t, h⟩ <;> rw [h] <;> rfl
@[simp] theorem keepTemp_cfg (n : Node) : (keepTemp n).cfg = n.cfg := by
  rcases keepTemp_cases n with h | ⟨t, h⟩ <;> rw [h] <;> rfl
@[simp] theorem keepTemp_battery (n : Node) : (keepTemp n).battery = n.battery := by
  rcases keepTemp_cases n with h | ⟨t, h⟩ <;> rw [h] <;> rfl
@[simp] theorem keepTemp_view (n : Node) : (keepTemp n).view = n.view := by
  rcases keepTemp_cases n with h | ⟨t, h⟩ <;> rw [h] <;> rfl
@[simp] theorem keepTemp_claims (n : Node) : (keepTemp n).claims = n.claims := by
  rcases keepTemp_cases n with h | ⟨t, h⟩ <;> rw [h] <;> rfl
@[simp] theorem keepTemp_tanks (n : Node) : (keepTemp n).tanks = n.tanks := by
  rcases keepTemp_cases n with h | ⟨t, h⟩ <;> rw [h] <;> rfl
@[simp] theorem keepTemp_pump (n : Node) : (keepTemp n).pump = n.pump := by
  rcases keepTemp_cases n with h | ⟨t, h⟩ <;> rw [h] <;> rfl
@[simp] theorem keepTemp_heater (n : Node) : (keepTemp n).heater = n.heater := by
  rcases keepTemp_cases n with h | ⟨t, h⟩ <;> rw [h] <;> rfl
@[simp] theorem keepTemp_motion (n : Node) : (keepTemp n).motion = n.motion := by
  rcases keepTemp_cases n with h | ⟨t, h⟩ <;> rw [h] <;> rfl
@[simp] theorem keepTemp_wind (n : Node) : (keepTemp n).wind = n.wind := by
  rcases keepTemp_cases n with h | ⟨t, h⟩ <;> rw [h] <;> rfl
@[simp] theorem keepTemp_lights (n : Node) : (keepTemp n).lights = n.lights := by
  rcases keepTemp_cases n with h | ⟨t, h⟩ <;> rw [h] <;> rfl
@[simp] theorem keepTemp_bank (n : Node) : (keepTemp n).bank = n.bank := by
  rcases keepTemp_cases n with h | ⟨t, h⟩ <;> rw [h] <;> rfl
@[simp] theorem keepTemp_tx (n : Node) : (keepTemp n).tx = n.tx := by
  rcases keepTemp_cases n with h | ⟨t, h⟩ <;> rw [h] <;> rfl
@[simp] theorem keepTemp_cmd (n : Node) : (keepTemp n).cmd = n.cmd := by
  rcases keepTemp_cases n with h | ⟨t, h⟩ <;> rw [h] <;> rfl
@[simp] theorem keepTemp_pub (n : Node) : (keepTemp n).pub = n.pub := by
  rcases keepTemp_cases n with h | ⟨t, h⟩ <;> rw [h] <;> rfl
@[simp] theorem keepTemp_ev (n : Node) : (keepTemp n).ev = n.ev := by
  rcases keepTemp_cases n with h | ⟨t, h⟩ <;> rw [h] <;> rfl
@[simp] theorem keepTemp_free (n : Node) : (keepTemp n).free = n.free := by
  rcases keepTemp_cases n with h | ⟨t, h⟩ <;> rw [h] <;> rfl
@[simp] theorem keepTemp_frost_state (n : Node) : (keepTemp n).frost.state = n.frost.state := by
  rcases keepTemp_cases n with h | ⟨t, h⟩ <;> rw [h] <;> rfl
@[simp] theorem keepTemp_frost_countdown (n : Node) : (keepTemp n).frost.countdown = n.frost.countdown := by
  rcases keepTemp_cases n with h | ⟨t, h⟩ <;> rw [h] <;> rfl
@[simp] theorem keepTemp_frost_moveEnd (n : Node) : (keepTemp n).frost.moveEnd = n.frost.moveEnd := by
  rcases keepTemp_cases n with h | ⟨t, h⟩ <;> rw [h] <;> rfl
@[simp] theorem keepTemp_up (n : Node)  : (keepTemp n).up  = n.up  := by
  simp [Node.up]
@[simp] theorem keepTemp_isActive (n : Node)  : (keepTemp n).isActive  = n.isActive  := by
  simp [Node.isActive]
@[simp] theorem keepTemp_has (n : Node) (d : Duty) : (keepTemp n).has d = n.has d := by
  simp [Node.has]
@[simp] theorem keepTemp_reached (n : Node) (t : Option Nat) : (keepTemp n).reached t = n.reached t := by
  simp [Node.reached]
@[simp] theorem keepTemp_claim (n : Node) (i) : (keepTemp n).claim i = n.claim i := by
  simp [Node.claim]
@[simp] theorem keepTemp_chan (n : Node) (i) : (keepTemp n).chan i = n.chan i := by
  simp [Node.chan]
@[simp] theorem keepTemp_role (n : Node) (i) : (keepTemp n).role i = n.role i := by
  simp [Node.role]
@[simp] theorem keepTemp_owner (n : Node) (i) : (keepTemp n).owner i = n.owner i := by
  simp [Node.owner]
@[simp] theorem keepTemp_chanCfg (n : Node) (i) : (keepTemp n).chanCfg i = n.chanCfg i := by
  simp [Node.chanCfg]
@[simp] theorem keepTemp_inputActive (n : Node) (i) : (keepTemp n).inputActive i = n.inputActive i := by
  simp [Node.inputActive, Node.chan]
@[simp] theorem keepTemp_validTemp (n : Node) (i) : (keepTemp n).validTemp i = n.validTemp i := by
  simp [Node.validTemp]
@[simp] theorem keepTemp_unitCfg (n : Node) (u : MotionUnit) : (keepTemp n).unitCfg u = n.unitCfg u := by
  cases u <;> simp [Node.unitCfg]
@[simp] theorem keepTemp_pumpCfg (n : Node)  : (keepTemp n).pumpCfg  = n.pumpCfg  := by
  simp [Node.pumpCfg]
@[simp] theorem keepTemp_frostCfg (n : Node)  : (keepTemp n).frostCfg  = n.frostCfg  := by
  simp [Node.frostCfg]
@[simp] theorem keepTemp_heaterCfg (n : Node)  : (keepTemp n).heaterCfg  = n.heaterCfg  := by
  simp [Node.heaterCfg]
@[simp] theorem keepTemp_lightsCfg (n : Node)  : (keepTemp n).lightsCfg  = n.lightsCfg  := by
  simp [Node.lightsCfg]
@[simp] theorem keepTemp_windCfg (n : Node)  : (keepTemp n).windCfg  = n.windCfg  := by
  simp [Node.windCfg]
@[simp] theorem keepTemp_batteryCfg (n : Node)  : (keepTemp n).batteryCfg  = n.batteryCfg  := by
  simp [Node.batteryCfg]
@[simp] theorem keepTemp_rankNumber (n : Node)  : (keepTemp n).rankNumber  = n.rankNumber  := by
  simp [Node.rankNumber]
@[simp] theorem keepTemp_ownTravel (n : Node)  : (keepTemp n).ownTravel  = n.ownTravel  := by
  simp [Node.ownTravel, Node.has, Node.inputActive, Node.chan]
@[simp] theorem keepTemp_ownWind (n : Node)  : (keepTemp n).ownWind  = n.ownWind  := by
  simp [Node.ownWind, Node.has]
@[simp] theorem keepTemp_lamps (n : Node)  : (keepTemp n).lamps  = n.lamps  := by
  simp [Node.lamps, Node.lightsCfg]
@[simp] theorem keepTemp_unit (n : Node) (u : MotionUnit) : (keepTemp n).unit u = n.unit u := by
  cases u <;> simp [Node.unit]
@[simp] theorem keepTemp_bridge (n : Node) (u : MotionUnit) : (keepTemp n).bridge u = n.bridge u := by
  cases u <;> simp [Node.bridge]

theorem found_eq (s : State) (dt : Nat) : s.found dt = keepTemp (advance dt s.node) := rfl

@[simp] theorem advance_ev (dt : Nat) (n : Node) : (advance dt n).ev = n.ev := by unfold advance; split <;> rfl
@[simp] theorem advance_state (dt : Nat) (n : Node) : (advance dt n).state = n.state := by unfold advance; split <;> rfl
@[simp] theorem advance_tx (dt : Nat) (n : Node) : (advance dt n).tx = n.tx := by unfold advance; split <;> rfl
@[simp] theorem advance_cmd (dt : Nat) (n : Node) : (advance dt n).cmd = n.cmd := by unfold advance; split <;> rfl
@[simp] theorem advance_view (dt : Nat) (n : Node) : (advance dt n).view = n.view := by unfold advance; split <;> rfl
@[simp] theorem advance_claims (dt : Nat) (n : Node) : (advance dt n).claims = n.claims := by
  unfold advance; split <;> rfl

/-! ## What an event answers -/

/-- The effect takes place. -/
theorem event_acts {dt : Nat} {occ : Receiver → Node → Bool} {body : Receiver → Node → Receiver × Node} {s : State}
    (up : (s.found dt).up = true) (h : occ s.rx (advance dt s.node) = true) :
    event dt occ body s = .next (s.ended dt (body s.rx (s.found dt)).1 (body s.rx (s.found dt)).2) := by
  have u : (advance dt s.node).up = true := by rw [found_eq, keepTemp_up] at up; exact up
  simp only [event, u, h, Bool.and_self, if_true, State.ended, State.found]

/-- Nothing but the time changes. -/
theorem event_waits {dt : Nat} {occ : Receiver → Node → Bool} {body : Receiver → Node → Receiver × Node} {s : State}
    (h : (advance dt s.node).up = false ∨ occ s.rx (advance dt s.node) = false) :
    event dt occ body s = .next { s with node := advance dt s.node } := by
  rcases h with h | h <;> simp [event, h]

/-- An event answers one of the two. -/
theorem event_cases (dt : Nat) (occ : Receiver → Node → Bool) (body : Receiver → Node → Receiver × Node) (s : State) :
    event dt occ body s = .next { s with node := advance dt s.node } ∨
      ((s.found dt).up = true ∧ occ s.rx (advance dt s.node) = true ∧
        event dt occ body s = .next (s.ended dt (body s.rx (s.found dt)).1 (body s.rx (s.found dt)).2)) := by
  by_cases u : (s.found dt).up = true
  · by_cases o : occ s.rx (advance dt s.node) = true
    · exact .inr ⟨u, o, event_acts u o⟩
    · exact .inl (event_waits (.inr (by simpa using o)))
  · exact .inl (event_waits (.inl (by rw [found_eq, keepTemp_up] at u; simpa using u)))

theorem nodeEvent_acts {dt : Nat} {occ : Node → Bool} {body : Node → Node} {s : State}
    (up : (s.found dt).up = true) (h : occ (advance dt s.node) = true) :
    nodeEvent dt occ body s = .next (s.ended dt s.rx (body (s.found dt))) := event_acts up h

/-- A dispatch of the head of the arrival list. -/
theorem dispatchEvent_acts {dt : Nat} {p : Frame → Bool} {job : RxFrame → Node → Node} {s : State} {x : RxFrame}
    {rest : List RxFrame} (up : (s.found dt).up = true) (h : s.rx.arrival = x :: rest) (hp : p x.frame = true) :
    dispatchEvent dt p job s = .next (s.ended dt (s.rx.without rest) (dispatch (job x) x (s.found dt))) := by
  unfold dispatchEvent
  rw [event_acts up (by simp [headIs, h, hp])]
  simp [h, Receiver.without]

theorem commit_pending (s : State) (rx : Receiver) (n : Node) : (commit s rx n).pending = s.pending := by
  unfold commit; split <;> rfl

/-- Every event keeps the commands that wait. -/
theorem event_next (dt : Nat) (occ : Receiver → Node → Bool) (body : Receiver → Node → Receiver × Node) (s : State) :
    ∃ t, event dt occ body s = .next t ∧ t.pending = s.pending := by
  rcases event_cases dt occ body s with h | ⟨_, _, h⟩
  · exact ⟨_, h, rfl⟩
  · exact ⟨_, h, commit_pending _ _ _⟩

/-- The state after an event without a reset. -/
theorem commit_runs {s : State} {rx : Receiver} {n : Node} (h : n.ev.reset = false) :
    commit s rx n = { pending := s.pending, rx := rx, node := n.setEv {} } := by
  simp [commit, h]

end Sys2Proof.Machine
end

