-- ==== Sys2Proof/Laws/Finish.lean ====
section
/-! SUPPORT. What follows an event's own effect leaves alone: the node with everything set aside that the shares of the
lights, the wait service and the queueing of frames can change, and the same with the heater, the frost monitor, the
pump and the courtesy state set aside as well. -/

namespace Sys2Proof.Machine

/-- The node without what the lights, the wait service and the placing of frames change. -/
def Node.rest (n : Node) : Node :=
  { n with
    claims := .replicate 8 {}
    lights := { n.lights with channels := [] }
    bank := { n.bank with chans := .replicate 16 {} }
    tx := { n.tx with queue := [], nextId := 0 }
    pub := {}
    ev := { reply := n.ev.reply, report := n.ev.report, restart := n.ev.restart, reset := n.ev.reset }
    cmd := { n.cmd with counters := n.cmd.counters.set (counterPlace .queueDrops) 0 } }

/-- The node without what the evaluations of the jobs change either. -/
def Node.core (n : Node) : Node :=
  { n.rest with heater := {}, frost := {}, pump := {}, lights := {} }

theorem core_of_rest {n m : Node} (h : m.rest = n.rest) : m.core = n.core := by simp only [Node.core, h]

/-! ## The records -/

@[simp] theorem rest_setClaim (n : Node) (i) (c) : (n.setClaim i c).rest = n.rest := rfl
@[simp] theorem rest_setLamps (n : Node) (l) : (n.setLamps l).rest = n.rest := rfl
@[simp] theorem rest_setChan (n : Node) (i) (c) : (n.setChan i c).rest = n.rest := rfl
@[simp] theorem rest_setPub (n : Node) (p) : (n.setPub p).rest = n.rest := rfl
@[simp] theorem rest_wantWait (n : Node) : n.wantWait.rest = n.rest := rfl
@[simp] theorem rest_ask (n : Node) (i) (l) : (ask i l n).rest = n.rest := rfl
@[simp] theorem rest_drops (n : Node) : (bump .queueDrops n).rest = n.rest := by
  simp [Node.rest, bump, Vector.set_set]

@[simp] theorem core_setClaim (n : Node) (i) (c) : (n.setClaim i c).core = n.core := rfl
@[simp] theorem core_setPump (n : Node) (v) : (n.setPump v).core = n.core := rfl
@[simp] theorem core_setFrost (n : Node) (v) : (n.setFrost v).core = n.core := rfl
@[simp] theorem core_setHeater (n : Node) (v) : (n.setHeater v).core = n.core := rfl
@[simp] theorem core_setLights (n : Node) (v) : (n.setLights v).core = n.core := rfl
@[simp] theorem core_setChan (n : Node) (i) (c) : (n.setChan i c).core = n.core := rfl
@[simp] theorem core_wantWait (n : Node) : n.wantWait.core = n.core := rfl
@[simp] theorem core_ask (n : Node) (i) (l) : (ask i l n).core = n.core := rfl

theorem foldl_rest {α : Type} (f : Node → α → Node) (hf : ∀ n x, (f n x).rest = n.rest) (l : List α) :
    ∀ n, (l.foldl f n).rest = n.rest := by
  induction l with
  | nil => exact fun _ => rfl
  | cons x _ ih => exact fun n => (ih (f n x)).trans (hf n x)

/-! ## The claim table -/

@[simp] theorem rest_fileClaim (n : Node) (i cls w wait) : (fileClaim i cls w wait n).rest = n.rest := by
  unfold fileClaim; repeat' split
  all_goals rfl
@[simp] theorem rest_raiseClaim (n : Node) (i w wait) : (raiseClaim i w wait n).rest = n.rest := by
  unfold raiseClaim; dsimp only; repeat' split
  all_goals rfl
@[simp] theorem rest_releaseClaim (n : Node) (i) : (releaseClaim i n).rest = n.rest := by
  unfold releaseClaim; split <;> rfl
@[simp] theorem rest_reduceClaim (n : Node) (i r) : (reduceClaim i r n).rest = n.rest := by
  unfold reduceClaim; dsimp only; repeat' split
  all_goals first | rfl | exact rest_releaseClaim n i
@[simp] theorem core_fileClaim (n : Node) (i cls w wait) : (fileClaim i cls w wait n).core = n.core :=
  core_of_rest (rest_fileClaim ..)
@[simp] theorem core_releaseClaim (n : Node) (i) : (releaseClaim i n).core = n.core := core_of_rest (rest_releaseClaim ..)

theorem rest_waitTurn (p : Node × List (Fin 8)) (i : Fin 8) : (waitTurn p i).1.rest = p.1.rest := by
  unfold waitTurn; dsimp only; repeat' split
  all_goals rfl

theorem rest_waitService (n : Node) : (waitService n).rest = n.rest := by
  have fold : ∀ (l : List (Fin 8)) (p : Node × List (Fin 8)), (l.foldl waitTurn p).1.rest = p.1.rest := by
    intro l
    induction l with
    | nil => exact fun _ => rfl
    | cons x _ ih => exact fun p => (ih _).trans (rest_waitTurn p x)
  unfold waitService; dsimp only; repeat' split
  · exact fold _ _
  · exact fold _ _
  · rfl

/-! ## The lights -/

theorem rest_lightClaim (n : Node) (main w) : (lightClaim main w n).rest = n.rest := by
  unfold lightClaim; dsimp only; repeat' split
  all_goals simp
theorem rest_darken (rows) (n : Node) : (darken rows n).rest = n.rest := by
  unfold darken
  exact foldl_rest _ (fun n x => by split <;> simp) rows n
theorem rest_lightsUpdate (n : Node) : (lightsUpdate n).rest = n.rest := by
  unfold lightsUpdate; dsimp only; split
  · rfl
  · simp [lightShare, rest_lightClaim, rest_darken]

/-! ## The evaluations -/

theorem core_standbyCheck (c : HeaterCfg) (n : Node) : (standbyCheck c n).core = n.core := by
  unfold standbyCheck startCheck ventCheck setReason; repeat' split
  all_goals simp
theorem core_heaterCheck (n : Node) : (heaterCheck n).core = n.core := by
  unfold heaterCheck; split
  · rfl
  · exact core_standbyCheck _ _
theorem core_beginMove (s coil) (n : Node) : (beginMove s coil n).core = n.core := by
  unfold beginMove; dsimp only; simp
theorem core_frostEvaluate (c : FrostCfg) (n : Node) : (frostEvaluate c n).core = n.core := by
  unfold frostEvaluate frostTo; dsimp only; repeat' split
  all_goals simp [core_beginMove]
theorem core_frostCheck (n : Node) : (frostCheck n).core = n.core := by
  unfold frostCheck; split
  · rfl
  · exact core_frostEvaluate _ _
theorem core_pumpStop (c : PumpCfg) (n : Node) : (pumpStop c n).core = n.core := by
  unfold pumpStop; dsimp only; split <;> simp
theorem core_pumpTo (s r) (n : Node) : (pumpTo s r n).core = n.core := rfl
theorem core_pumpFile (c : PumpCfg) (n : Node) : (pumpFile c n).core = n.core := by
  unfold pumpFile; split
  · rw [core_pumpTo]; simp
  · rfl
theorem core_pumpLow (n : Node) : (pumpLow n).core = n.core := by unfold pumpLow; dsimp only; split <;> simp
theorem core_pumpEvaluate (c : PumpCfg) (n : Node) : (pumpEvaluate c n).core = n.core := by
  have start : (if n.view.shed < 2 then n.setPump { n.pump with toldShed := false } else n).core = n.core := by
    split <;> simp
  unfold pumpEvaluate; dsimp only
  generalize (if n.view.shed < 2 then n.setPump { n.pump with toldShed := false } else n) = k at start ⊢
  repeat' split
  all_goals simp only [core_pumpTo, core_pumpStop, core_pumpFile, core_pumpLow, start]
theorem core_pumpCheck (n : Node) : (pumpCheck n).core = n.core := by
  unfold pumpCheck; split
  · rfl
  · exact core_pumpEvaluate _ _
theorem core_courtesyCheck (n : Node) : (courtesyCheck n).core = n.core := by
  unfold courtesyCheck; repeat' split
  all_goals rfl

theorem core_propagate (n0 n : Node) : (propagate n0 n).core = n.core := by
  have ite (b : Bool) (f : Node → Node) (k : Node) (h : (f k).core = k.core) :
      (if b then f k else k).core = k.core := by split <;> simp [h]
  unfold propagate; dsimp only
  rw [core_of_rest (rest_lightsUpdate _), ite _ courtesyCheck _ (core_courtesyCheck _),
    ite _ pumpCheck _ (core_pumpCheck _), ite _ frostCheck _ (core_frostCheck _),
    ite _ heaterCheck _ (core_heaterCheck _)]

/-! ## The frames -/

theorem rest_placePeriodic (f : Frame) (n : Node) : (placePeriodic f n).1.rest = n.rest := by
  unfold placePeriodic; repeat' split
  · rfl
  · rfl
  · exact (rfl : _ = (bump .queueDrops n).rest).trans (rest_drops n)
  · exact rest_drops n
theorem rest_placeAnswer (f : Frame) (n : Node) : (placeAnswer f n).1.rest = n.rest := by
  unfold placeAnswer; split
  · rfl
  · exact rest_drops n
theorem rest_carriedBy (e : Nat) (n : Node) : (carriedBy e n).rest = n.rest := by
  unfold carriedBy
  exact foldl_rest _ (fun n x => by dsimp only; split <;> rfl) _ _
theorem rest_carrierGivenUp (e : Option Nat) (n : Node) : (carrierGivenUp e n).rest = n.rest := by
  unfold carrierGivenUp
  exact foldl_rest _ (fun n x => by dsimp only; split <;> rfl) _ _
theorem rest_carrierSent (e : Nat) (n : Node) : (carrierSent e n).rest = n.rest := by
  unfold carrierSent
  exact foldl_rest _ (fun n x => by dsimp only; split <;> rfl) _ _

theorem rest_queuePresence (n0 n : Node) : (queuePresence n0 n).rest = n.rest := by
  unfold queuePresence; dsimp only; split
  · simp [rest_placePeriodic]
  · rfl
theorem rest_queueDraw (n0 n : Node) : (queueDraw n0 n).rest = n.rest := by
  unfold queueDraw; dsimp only; repeat' split
  · simp [rest_carriedBy, rest_placePeriodic]
  · simp [rest_carrierGivenUp, rest_placePeriodic]
  · rfl
theorem rest_queueAllowance (n0 n : Node) : (queueAllowance n0 n).rest = n.rest := by
  unfold queueAllowance; dsimp only; repeat' split
  all_goals simp [rest_placePeriodic]
theorem rest_queueTanks (n0 n : Node) : (queueTanks n0 n).rest = n.rest := by
  unfold queueTanks; dsimp only; split
  · simp [rest_placePeriodic]
  · rfl
theorem rest_queueClimate (n0 n : Node) : (queueClimate n0 n).rest = n.rest := by
  unfold queueClimate; dsimp only; repeat' split
  all_goals simp [rest_placePeriodic]
theorem rest_queueMotion (n0 n : Node) : (queueMotion n0 n).rest = n.rest := by
  unfold queueMotion; dsimp only; split
  · simp [rest_placePeriodic]
  · rfl
theorem rest_queueLights (n0 n : Node) : (queueLights n0 n).rest = n.rest := by
  unfold queueLights; dsimp only; split
  · simp [rest_placePeriodic]
  · rfl
theorem rest_queueReply {n : Node} (h : n.ev.restart = false) : (queueReply n).rest = n.rest := by
  have e (f : Frame) : (placeAnswer f n).1.ev.restart = false :=
    (congrArg (·.ev.restart) (rest_placeAnswer f n) : (placeAnswer f n).1.ev.restart = n.ev.restart).trans h
  unfold queueReply
  split
  · dsimp only
    rw [e]
    exact rest_placeAnswer _ _
  · rw [h]
    rfl
theorem rest_queueReport (n : Node) : (queueReport n).rest = n.rest := by
  unfold queueReport; split
  · exact rest_placeAnswer _ _
  · rfl

/-- The frames of an event change the queue, the moments of publication and the carriers of claims, and nothing
else, when no restart is owed. -/
theorem rest_queueFrames {n0 n : Node} (h : n.ev.restart = false) : (queueFrames n0 n).rest = n.rest := by
  have k : (queueLights n0 (queueMotion n0 (queueClimate n0 (queueTanks n0 (queueAllowance n0
      (queueDraw n0 (queuePresence n0 n))))))).rest = n.rest := by
    rw [rest_queueLights, rest_queueMotion, rest_queueClimate, rest_queueTanks, rest_queueAllowance, rest_queueDraw,
      rest_queuePresence]
  unfold queueFrames
  rw [rest_queueReport, rest_queueReply ?_, k]
  exact (congrArg (·.ev.restart) k : (Node.rest _).ev.restart = n.ev.restart).trans h

theorem rest_serveWaits (n : Node) : (serveWaits n).rest = n.rest := by
  unfold serveWaits; split
  · exact rest_waitService n
  · rfl

/-- What follows an event's own effect after the blocks have told one another, when no restart is owed or pending. -/
theorem rest_finish {n0 n : Node} (h : n.ev.restart = false) (hr : n.cmd.restart = none) :
    (finish n0 n).rest = (propagate n0 n).rest := by
  have c := core_propagate n0 n
  have e : (serveWaits (propagate n0 n)).ev.restart = false :=
    ((congrArg (·.ev.restart) ((core_of_rest (rest_serveWaits _)).trans c) : _ = n.ev.restart)).trans h
  have q := (rest_queueFrames (n0 := n0) e).trans (rest_serveWaits _)
  have r : (queueFrames n0 (serveWaits (propagate n0 n))).cmd.restart = none :=
    ((congrArg (·.cmd.restart) ((core_of_rest q).trans c) : _ = n.cmd.restart)).trans hr
  unfold finish restartCheck
  rw [r]
  exact q

theorem core_finish {n0 n : Node} (h : n.ev.restart = false) (hr : n.cmd.restart = none) :
    (finish n0 n).core = n.core := (core_of_rest (rest_finish h hr)).trans (core_propagate n0 n)

/-- Without a reset owed, an event ends in its finished node with the marks cleared. -/
theorem ended_eq {s : State} {dt : Nat} {rx : Receiver} {m : Node} (h : m.ev.restart = false)
    (h' : m.ev.reset = false) (hr : m.cmd.restart = none) :
    s.ended dt rx m = { pending := s.pending, rx := rx, node := (finish (s.found dt) m).setEv {} } :=
  commit_runs ((congrArg (·.ev.reset) (core_finish h hr) : _ = m.ev.reset).trans h')

end Sys2Proof.Machine
end

