-- ==== Sys2Proof/Laws/Image.lean ====
section
/-! SUPPORT. What reading a configuration image can do: each reader of Machine/ImageCheck.lean against the rules on the
bytes in Safety.lean. -/

namespace Sys2Proof.Machine

/-! ## Fields -/

@[simp] theorem must_some (b : Bool) (u : Unit) : must b = some u ↔ b = true := by cases b <;> simp [must]

@[simp] theorem within_eq (lo hi v : Nat) : within lo hi v = true ↔ Ranges lo hi v := by simp [within, Ranges]

@[simp] theorem withinInt_eq (lo hi v : Int) : withinInt lo hi v = true ↔ Ranges lo hi v := by simp [withinInt, Ranges]

theorem byteAt_lt (p : List Byte) (i : Nat) : byteAt p i < 256 := (p.getD i 0).isLt

@[simp] theorem chanAt_eq (p : List Byte) (i : Nat) (c : Fin 16) : chanAt p i = some c ↔ c.val = byteAt p i := by
  unfold chanAt
  split
  · simp only [Option.some.injEq, Fin.ext_iff]; exact eq_comm
  · simp only [reduceCtorEq, false_iff]; omega

@[simp] theorem chanOrNone_eq (p : List Byte) (i : Nat) (c : Option (Fin 16)) :
    chanOrNone p i = some c ↔ c.map (·.val) = fieldOf (byteAt p i) := by
  unfold chanOrNone fieldOf
  split
  · cases c <;> simp
  · rename_i h
    cases c with
    | none => simp
    | some c => simp

@[simp] theorem tempInputAt_eq (p : List Byte) (i : Nat) (c : Fin 4) :
    tempInputAt p i = some c ↔ c.val = byteAt p i := by
  unfold tempInputAt
  split
  · simp only [Option.some.injEq, Fin.ext_iff]; exact eq_comm
  · simp only [reduceCtorEq, false_iff]; omega

@[simp] theorem tempInputOrNone_eq (p : List Byte) (i : Nat) (c : Option (Fin 4)) :
    tempInputOrNone p i = some c ↔ c.map (·.val) = fieldOf (byteAt p i) := by
  unfold tempInputOrNone fieldOf
  split
  · cases c <;> simp
  · cases c <;> simp

theorem fieldOf_none (v : Nat) : fieldOf v = none ↔ v = 0xFF := by unfold fieldOf; split <;> simp_all

theorem fieldOf_some (v k : Nat) : fieldOf v = some k ↔ v ≠ 0xFF ∧ v = k := by unfold fieldOf; split <;> simp_all

/-! ## Lists -/

theorem mapM_eq {α β : Type} (f : α → Option β) (l : List α) (r : List β) :
    l.mapM f = some r ↔ List.Forall₂ (fun a b => f a = some b) l r := by
  induction l generalizing r with
  | nil => cases r <;> simp [eq_comm]
  | cons a l ih =>
    simp only [List.mapM_cons, Option.bind_eq_bind, Option.bind_eq_some_iff, Option.pure_def, Option.some.injEq, ih]
    constructor
    · rintro ⟨b, hb, bs, hbs, rfl⟩; exact .cons hb hbs
    · rintro (_ | ⟨hb, hbs⟩); exact ⟨_, hb, _, hbs, rfl⟩

theorem mapM_range {β : Type} (f : Nat → Option β) (n : Nat) (r : List β) :
    (List.range n).mapM f = some r ↔ r.length = n ∧ ∀ k b, r[k]? = some b → f k = some b := by
  rw [mapM_eq, List.forall₂_iff_get]
  simp only [List.length_range, List.get_eq_getElem, List.getElem_range]
  constructor
  · rintro ⟨h, g⟩
    refine ⟨h.symm, fun k b hb => ?_⟩
    obtain ⟨hk, rfl⟩ := List.getElem?_eq_some_iff.1 hb
    exact g k (by omega) hk
  · rintro ⟨h, g⟩
    exact ⟨h.symm, fun k _ hk => g k _ (List.getElem?_eq_some_iff.2 ⟨hk, rfl⟩)⟩

theorem mapM_range_isSome {β : Type} (f : Nat → Option β) (n : Nat) :
    (∃ r, (List.range n).mapM f = some r) ↔ ∀ k, k < n → ∃ b, f k = some b := by
  constructor
  · rintro ⟨r, h⟩ k hk
    obtain ⟨hl, g⟩ := (mapM_range f n r).1 h
    exact ⟨_, g k r[k] (List.getElem?_eq_some_iff.2 ⟨by omega, rfl⟩)⟩
  · intro h
    refine ⟨(List.range n).filterMap f, (mapM_eq _ _ _).2 ?_⟩
    have : ∀ l : List Nat, (∀ k ∈ l, ∃ b, f k = some b) → List.Forall₂ (fun a b => f a = some b) l (l.filterMap f) := by
      intro l
      induction l with
      | nil => intro _; exact .nil
      | cons a l ih =>
        intro g
        obtain ⟨b, hb⟩ := g a (by simp)
        simp only [List.filterMap_cons, hb]
        exact .cons hb (ih fun k hk => g k (by simp [hk]))
    exact this _ fun k hk => h k (by simpa using hk)

theorem increasing_eq (l : List Nat) : increasing l = true ↔ ∀ k, k + 1 < l.length → l.getD k 0 < l.getD (k + 1) 0 := by
  induction l with
  | nil => simp [increasing]
  | cons a l ih =>
    cases l with
    | nil => simp [increasing]
    | cons b l =>
      simp only [increasing, Bool.and_eq_true, decide_eq_true_eq, ih]
      constructor
      · rintro ⟨h, g⟩ k hk
        cases k with
        | zero => simpa using h
        | succ k => simpa using g k (by simpa using hk)
      · intro g
        exact ⟨by simpa using g 0 (by simp), fun k hk => by simpa using g (k + 1) (by simpa using hk)⟩

theorem increasing_range (n : Nat) (f : Nat → Nat) : increasing ((List.range n).map f) = true ↔ Rises n f := by
  rw [increasing_eq]
  simp only [List.length_map, List.length_range, Rises]
  refine forall_congr' fun k => forall_congr' fun hk => ?_
  simp [List.getD_eq_getElem?_getD, hk, (by omega : k < n)]

theorem increasing_reverse (n : Nat) (f : Nat → Nat) :
    increasing ((List.range n).map f).reverse = true ↔ ∀ k, k + 1 < n → f (k + 1) < f k := by
  rw [increasing_eq]
  simp only [List.length_reverse, List.length_map, List.length_range]
  constructor
  · intro h k hk
    have := h (n - 2 - k) (by omega)
    simp [List.getD_eq_getElem?_getD, (by omega : n - 2 - k < n), (by omega : n - 2 - k + 1 < n),
      (by omega : n - 1 - (n - 2 - k) = k + 1), (by omega : n - 1 - (n - 2 - k + 1) = k), hk,
          (by omega : k < n)] at this
    exact this
  · intro h k hk
    have := h (n - 2 - k) (by omega)
    simp [List.getD_eq_getElem?_getD, (by omega : k < n), hk,
      (by omega : n - 1 - k < n), (by omega : n - 1 - (k + 1) < n)]
    rwa [(by omega : n - 2 - k + 1 = n - 1 - k), (by omega : n - 2 - k = n - 1 - (k + 1))] at this

theorem distinct_eq (l : List Nat) : distinct l = true ↔ l.Nodup := by
  induction l with
  | nil => simp [distinct]
  | cons a l ih => simp [distinct, ih]

theorem sum_filter {α : Type} (p : α → Bool) (f : α → Nat) (l : List α) :
    ((l.filter p).map f).sum = (l.map fun x => if p x = true then f x else 0).sum := by
  induction l with
  | nil => rfl
  | cons a l ih => by_cases h : p a = true <;> simp [h, ih]

/-! ## The readers -/

theorem readGeneral_eq (p : List Byte) (o : Nat) (m : List Nat) :
    readGeneral p = some (o, m) ↔ GeneralFits p ∧ o = longAt p 0 ∧ m = (p.drop 5).map BitVec.toNat := by
  have key : p.length = 5 + byteAt p 4 → (List.range (byteAt p 4)).map (fun k => byteAt p (5 + k)) = (p.drop 5).map BitVec.toNat := by
    intro h
    apply List.ext_getElem
    · simp; omega
    · intro i h1 h2
      simp at h1 h2
      simp [byteAt, List.getD_eq_getElem?_getD, (by omega : 5 + i < p.length)]
  unfold readGeneral GeneralFits
  simp only [Option.pure_def, Option.bind_eq_bind, Option.bind_eq_some_iff, must_some, exists_const,
      Bool.and_eq_true, decide_eq_true_eq, beq_iff_eq, within_eq, List.all_eq_true,
    List.mem_map, List.mem_range, Option.some.injEq, Prod.mk.injEq]
  constructor
  · rintro ⟨⟨⟨⟨⟨h1, h2⟩, h3⟩, h4⟩, h5⟩, rfl, rfl⟩
    exact ⟨⟨h2, h3, h4, fun k hk => h5 _ ⟨k, hk, rfl⟩⟩, rfl, key h2⟩
  · rintro ⟨⟨h1, h2, h3, h4⟩, rfl, rfl⟩
    exact ⟨⟨⟨⟨⟨by omega, h1⟩, h2⟩, h3⟩, by rintro x ⟨k, hk, rfl⟩; exact h4 k hk⟩, rfl, key h1⟩

theorem readPump_eq (p : List Byte) (c : PumpCfg) :
    readPump p = some c ↔ p.length = 7 ∧ byteAt p 0 < 16 ∧ byteAt p 1 < 16 ∧ Ranges 100 20000 (wordAt p 2) ∧
      byteAt p 4 ≤ 1 ∧ Ranges 10 900 (wordAt p 5) ∧ PumpGives p c := by
  unfold readPump
  simp only [Option.bind_eq_bind, Option.pure_def, must_some, exists_const, Option.bind_eq_some_iff, chanAt_eq,
      Bool.and_eq_true, decide_eq_true_eq, beq_iff_eq, within_eq, Option.some.injEq]
  constructor
  · rintro ⟨h, a, ha, b, hb, ⟨⟨h1, h2⟩, h3⟩, rfl⟩
    exact ⟨h, by omega, by omega, h1, h2, h3, ⟨ha, hb⟩, rfl, by simp, rfl⟩
  · rintro ⟨h, h1, h2, h3, h4, h5, ⟨h6, h7⟩, h8, h9, h10⟩
    refine ⟨h, _, h6, _, h7, ⟨⟨h3, h4⟩, h5⟩, ?_⟩
    cases c
    simp_all
    rw [Bool.eq_iff_iff]; simpa using h9.symm

theorem readFrost_eq (p : List Byte) (c : FrostCfg) :
    readFrost p = some c ↔ p.length = 8 ∧ Ranges (-50) 100 (signedAt p 4) ∧ Ranges 60 3600 (wordAt p 6) ∧
        FrostGives p c := by
  unfold readFrost
  simp only [Option.bind_eq_bind, Option.pure_def, must_some, exists_const, Option.bind_eq_some_iff, chanAt_eq,
      tempInputOrNone_eq, Bool.and_eq_true, decide_eq_true_eq, beq_iff_eq, within_eq, withinInt_eq, Option.some.injEq]
  constructor
  · rintro ⟨h, a, ha, b, hb, c, hc, t, ht, ⟨h1, h2⟩, rfl⟩
    exact ⟨h, h1, h2, ⟨ha, hb, hc⟩, ht, rfl, rfl⟩
  · rintro ⟨h, h1, h2, ⟨ha, hb, hc⟩, ht, h3, h4⟩
    exact ⟨h, _, ha, _, hb, _, hc, _, ht, ⟨h1, h2⟩, by cases c; simp_all⟩

theorem readUnitCfg_eq (p : List Byte) (i lo hi : Nat) (c : UnitCfg) :
    readUnitCfg p i lo hi = some c ↔ Ranges lo hi (byteAt p (i + 2)) ∧ Ranges 1000 29000 (wordAt p (i + 3)) ∧
      Ranges 1000 25500 (wordAt p (i + 5)) ∧ UnitGives p i c := by
  unfold readUnitCfg
  simp only [Option.bind_eq_bind, Option.pure_def, must_some, exists_const, Option.bind_eq_some_iff, chanAt_eq,
      Bool.and_eq_true, within_eq, Option.some.injEq]
  constructor
  · rintro ⟨a, ha, b, hb, ⟨⟨h1, h2⟩, h3⟩, rfl⟩
    exact ⟨h1, h2, h3, ⟨ha, hb⟩, rfl, rfl, rfl⟩
  · rintro ⟨h1, h2, h3, ⟨ha, hb⟩, h4, h5, h6⟩
    exact ⟨_, ha, _, hb, ⟨⟨h1, h2⟩, h3⟩, by cases c; simp_all⟩

theorem readWind_eq (p : List Byte) (c : WindCfg) :
    readWind p = some c ↔ p.length = 5 ∧ Ranges 1 5000 (wordAt p 1) ∧ Ranges 20 400 (wordAt p 3) ∧ WindGives p c := by
  unfold readWind
  simp only [Option.bind_eq_bind, Option.pure_def, must_some, exists_const, Option.bind_eq_some_iff, chanAt_eq,
      Bool.and_eq_true, beq_iff_eq, within_eq, Option.some.injEq]
  constructor
  · rintro ⟨h, a, ha, ⟨h1, h2⟩, rfl⟩
    exact ⟨h, h1, h2, ha, rfl, rfl⟩
  · rintro ⟨h, h1, h2, ha, h3, h4⟩
    exact ⟨h, _, ha, ⟨h1, h2⟩, by cases c; simp_all⟩

theorem pointsAt_eq (p : List Byte) (i n : Nat) : pointsAt p i n = pointsOf p i n := rfl

theorem pointsOf_all (p : List Byte) (i n a b : Nat) :
    (pointsOf p i n).all (fun q => decide (q.1 ≤ a) && decide (q.2 ≤ b)) = true ↔
      ∀ k, k < n → wordAt p (i + 4 * k) ≤ a ∧ wordAt p (i + 2 + 4 * k) ≤ b := by
  simp only [pointsOf, List.all_map, List.all_eq_true, List.mem_range, Function.comp, Bool.and_eq_true,
      decide_eq_true_eq]
  refine forall_congr' fun k => forall_congr' fun _ => ?_
  rw [show i + 4 * k + 2 = i + 2 + 4 * k by omega]

theorem pointsOf_fst (p : List Byte) (i n : Nat) : (pointsOf p i n).map (·.1) = (List.range n).map fun k => wordAt p (i + 4 * k) := by
  simp [pointsOf, Function.comp_def]

theorem pointsOf_snd (p : List Byte) (i n : Nat) : (pointsOf p i n).map (·.2) = (List.range n).map fun k => wordAt p (i + 2 + 4 * k) := by
  simp only [pointsOf, List.map_map, Function.comp_def]
  refine List.map_congr_left fun k _ => ?_
  rw [show i + 4 * k + 2 = i + 2 + 4 * k by omega]

theorem readBattery_eq (p : List Byte) (c : BatteryCfg) :
    readBattery p = some c ↔ p.length = 77 ∧
      (Ranges 10 1500 (wordAt p 0) ∧ Ranges 50 2000 (wordAt p 2) ∧ Ranges 80 100 (byteAt p 4)) ∧
      (wordAt p 5 ≤ 1000 ∧ Ranges 100 2000 (wordAt p 7) ∧ Ranges 10 240 (byteAt p 9)) ∧
      (Ranges 10000 32000 (wordAt p 10) ∧ Ranges 100 20000 (wordAt p 12)) ∧
      (Ranges 100 950 (wordAt p 14) ∧ Ranges 50 800 (wordAt p 16)) ∧
      (Ranges 8000 26000 (wordAt p 18) ∧ Ranges 100 3000 (wordAt p 20)) ∧
      (∀ k, k < 4 → Ranges 1000 650000 (longAt p (22 + 4 * k))) ∧
      (Ranges (-300) 200 (signedAt p 38) ∧ Ranges (-400) 190 (signedAt p 40)) ∧
      Ranges 2 8 (byteAt p 44) ∧
      (∀ k, k < byteAt p 44 → wordAt p (45 + 4 * k) ≤ 32767 ∧ wordAt p (47 + 4 * k) ≤ 1000) ∧
      BatteryGives p c := by
  have four : (∀ k, k < 4 → Ranges 1000 650000 (longAt p (22 + 4 * k))) ↔ ((Ranges 1000 650000 (longAt p 22) ∧
      Ranges 1000 650000 (longAt p 26)) ∧ Ranges 1000 650000 (longAt p 30)) ∧ Ranges 1000 650000 (longAt p 34) := by
    constructor
    · intro h; exact ⟨⟨⟨h 0 (by decide), h 1 (by decide)⟩, h 2 (by decide)⟩, h 3 (by decide)⟩
    · rintro ⟨⟨⟨h0, h1⟩, h2⟩, h3⟩ k hk
      match k, hk with
      | 0, _ => exact h0 | 1, _ => exact h1 | 2, _ => exact h2 | 3, _ => exact h3
  unfold readBattery
  simp only [Option.bind_eq_bind, Option.pure_def, must_some, exists_const, Option.bind_eq_some_iff, chanOrNone_eq,
      tempInputOrNone_eq, Bool.and_eq_true, beq_iff_eq, within_eq, withinInt_eq, Option.some.injEq, pointsAt_eq,
      pointsOf_all, four]
  constructor
  · rintro ⟨h, t, ht, a, ha, ⟨⟨⟨h1, h2⟩, h3⟩, h4⟩, ⟨⟨h5, h6⟩, h7⟩, ⟨⟨h8, h9⟩, h10⟩, ⟨h11, h12⟩, h13, h14, ⟨h15,
      h16⟩, rfl⟩
    exact ⟨h, ⟨h1, h2, h3⟩, ⟨h4.2, h5, h6⟩, ⟨h7, h8⟩, ⟨h9, h10⟩, ⟨h11, h12⟩, h13, h14, h15, h16,
      ⟨rfl, rfl, rfl, rfl⟩, ⟨rfl, rfl, rfl, rfl⟩, ⟨rfl, rfl, rfl, rfl⟩, ⟨rfl, rfl, rfl, rfl, rfl, rfl⟩, ⟨ht, ha⟩, rfl⟩
  · rintro ⟨h, ⟨h1, h2, h3⟩, ⟨h4, h5, h6⟩, ⟨h7, h8⟩, ⟨h9, h10⟩, ⟨h11, h12⟩, h13, h14, h15, h16,
      ⟨a1, a2, a3, a4⟩, ⟨b1, b2, b3, b4⟩, ⟨c1, c2, c3, c4⟩, ⟨d1, d2, d3, d4, d5, d6⟩, ⟨ht, ha⟩, e⟩
    exact ⟨h, _, ht, _, ha, ⟨⟨⟨h1, h2⟩, h3⟩, ⟨Nat.zero_le _, h4⟩⟩, ⟨⟨h5, h6⟩, h7⟩, ⟨⟨h8, h9⟩, h10⟩, ⟨h11, h12⟩, h13,
        h14, ⟨h15, h16⟩,
      by cases c; simp_all⟩

theorem tankKindOfCode_eq (k : Nat) (t : TankKind) :
    tankKindOfCode k = some t ↔ [TankKind.fresh, .grey, .black][k]? = some t := by
  unfold tankKindOfCode
  match k with
  | 0 => simp | 1 => simp | 2 => simp | _ + 3 => simp

theorem modeOfCode_eq (k : Nat) (t : HeaterMode) :
    modeOfCode k = some t ↔ [HeaterMode.off, .heat, .frost, .vent][k]? = some t := by
  unfold modeOfCode
  match k with
  | 0 => simp | 1 => simp | 2 => simp | 3 => simp | _ + 4 => simp

theorem roleOfCode_eq (k : Nat) (r : Role) : roleOfCode k = some r ↔ k = roleNumber r := by
  unfold roleOfCode
  match k with
  | 0 => cases r <;> simp [roleNumber]
  | 1 => cases r <;> simp [roleNumber]
  | 2 => cases r <;> simp [roleNumber]
  | 3 => cases r <;> simp [roleNumber]
  | 4 => cases r <;> simp [roleNumber]
  | _ + 5 => cases r <;> simp [roleNumber]

theorem dutyOfCode_eq (k : Nat) (d : Duty) : dutyOfCode k = some d ↔ k = dutyBit d := by
  by_cases h : k < 11
  · have : ∀ k : Fin 11, ∀ d, dutyOfCode k = some d ↔ k.val = dutyBit d := by
      intro k d; cases d <;> revert k <;> decide
    exact this ⟨k, h⟩ d
  · have h1 : dutyOfCode k = none := by
      unfold dutyOfCode
      repeat rw [if_neg (by omega)]
    have h2 : dutyBit d < 11 := by cases d <;> decide
    simp only [h1, reduceCtorEq, false_iff]; omega

theorem tempTypeOfCode_eq (k : Nat) (r : TempType) : tempTypeOfCode k = some r ↔ k = typeNumber r := by
  unfold tempTypeOfCode
  match k with
  | 0 => cases r <;> simp [typeNumber]
  | 1 => cases r <;> simp [typeNumber]
  | 2 => cases r <;> simp [typeNumber]
  | _ + 3 => cases r <;> simp [typeNumber]

theorem readTankCfg_eq (p : List Byte) (c : TankCfg) :
    readTankCfg p = some c ↔ (byteAt p 0 ≠ 0 → Ranges 500 1000 (wordAt p 2)) ∧ byteAt p 1 ≤ 1 ∧
      (byteAt p 1 = 0 → Ranges 2 8 (byteAt p 4)) ∧
      (byteAt p 1 = 1 → Ranges 2 8 (byteAt p 15) ∧
        ∀ k, k < byteAt p 15 → wordAt p (16 + 4 * k) ≤ 400 ∧ wordAt p (18 + 4 * k) ≤ 1000) ∧ TankGives p c := by
  have fresh : ∀ k, [TankKind.fresh, .grey, .black][byteAt p 0]? = some k → (k = .fresh ↔ byteAt p 0 = 0) := by
    intro k h
    match e : byteAt p 0 with
    | 0 => rw [e] at h; simp at h; simp [← h]
    | 1 => rw [e] at h; simp at h; simp [← h]
    | 2 => rw [e] at h; simp at h; simp [← h]
    | _ + 3 => rw [e] at h; simp at h
  have probes : ∀ l : List (Fin 16), ((List.range (byteAt p 4)).mapM fun j => chanAt p (5 + j)) = some l ↔
      l.map (·.val) = (List.range (byteAt p 4)).map fun k => byteAt p (5 + k) := by
    intro l
    rw [mapM_range]
    simp only [chanAt_eq]
    constructor
    · rintro ⟨h, g⟩
      apply List.ext_getElem (by simp [h])
      intro i h1 h2
      simp at h1
      simpa using g i l[i] (by simp [h1])
    · intro h
      have hl : l.length = byteAt p 4 := by simpa using congrArg List.length h
      refine ⟨hl, fun k b hb => ?_⟩
      obtain ⟨hk, rfl⟩ := List.getElem?_eq_some_iff.1 hb
      have := congrArg (·[k]?) h
      simpa [hk, (by omega : k < byteAt p 4)] using this
  unfold readTankCfg
  simp only [Option.bind_eq_bind, Option.pure_def, must_some, exists_const, Option.bind_eq_some_iff,
      Bool.or_eq_true, beq_iff_eq, within_eq, Option.some.injEq, tankKindOfCode_eq]
  constructor
  · rintro ⟨k, hk, h1, m, hm, rfl⟩
    have h1' : byteAt p 0 ≠ 0 → Ranges 500 1000 (wordAt p 2) := fun h => h1.resolve_left fun e => h ((fresh k hk).1 e)
    unfold readMethod at hm
    split at hm
    · rename_i hz
      simp only [Option.bind_eq_bind, Option.pure_def, Option.bind_eq_some_iff, must_some, exists_const, within_eq,
          probes, chanAt_eq, Option.some.injEq] at hm
      obtain ⟨g1, l, hl, e, he, rfl⟩ := hm
      exact ⟨h1', by omega, fun _ => g1, by omega, hk, rfl, fun _ => ⟨l, e, rfl, he, hl⟩, by omega⟩
    · split at hm
      · simp only [Option.bind_eq_bind, Option.pure_def, Option.bind_eq_some_iff, must_some, exists_const,
          within_eq, chanAt_eq, Option.some.injEq, pointsAt_eq, pointsOf_all] at hm
        obtain ⟨g1, ch, hch, g2, rfl⟩ := hm
        exact ⟨h1', by omega, by omega, fun _ => ⟨g1, g2⟩, hk, rfl, by omega, fun _ => ⟨ch, rfl, hch⟩⟩
      · cases hm
  · rintro ⟨h1, h2, h3, h4, g⟩
    refine ⟨c.kind, g.kind, ?_, c.method, ?_, by cases c; simp only [TankCfg.mk.injEq, true_and]; exact g.full.symm⟩
    · by_cases hz : byteAt p 0 = 0
      · exact .inl ((fresh _ g.kind).2 hz)
      · exact .inr (h1 hz)
    · unfold readMethod
      split
      · rename_i hz
        obtain ⟨l, e, hm, he, hl⟩ := g.ladder hz
        simp only [Option.bind_eq_bind, Option.pure_def, Option.bind_eq_some_iff, must_some, exists_const,
            within_eq, probes, chanAt_eq, Option.some.injEq]
        exact ⟨h3 hz, l, hl, e, he, hm.symm⟩
      · have hz : byteAt p 1 = 1 := by omega
        obtain ⟨ch, hm, hch⟩ := g.sender hz
        simp only [hz, if_true, Option.bind_eq_bind, Option.pure_def, Option.bind_eq_some_iff, must_some,
            exists_const, within_eq, chanAt_eq, Option.some.injEq, pointsAt_eq, pointsOf_all]
        exact ⟨(h4 hz).1, ch, hch, (h4 hz).2, hm.symm⟩

theorem readHeater_eq (p : List Byte) (c : HeaterCfg) :
    readHeater p = some c ↔ p.length = 30 ∧ Ranges 50 300 (signedAt p 6) ∧ signedAt p 6 % 5 = 0 ∧
      Ranges 1000 25000 (wordAt p 8) ∧
      (∀ k, k < 4 → Ranges 500 10000 (wordAt p (10 + 2 * k)) ∧ Ranges 10 100 (byteAt p (18 + k))) ∧
      (Ranges 10 100 (byteAt p 22) ∧ Ranges 10 100 (byteAt p 23)) ∧
      (Ranges 100 5000 (wordAt p 24) ∧ Ranges 500 5000 (wordAt p 26)) ∧ Ranges 500 2000 (signedAt p 28) ∧
          HeaterGives p c := by
  unfold readHeater
  simp only [Option.bind_eq_bind, Option.pure_def, must_some, exists_const, Option.bind_eq_some_iff, chanAt_eq,
      tempInputAt_eq, tempInputOrNone_eq, modeOfCode_eq, Bool.and_eq_true, beq_iff_eq, within_eq, withinInt_eq,
      Option.some.injEq, List.all_map, List.all_eq_true, List.mem_range, Function.comp]
  constructor
  · rintro ⟨h, a, ha, b, hb, f, hf, x, hx, y, hy, m, hm, ⟨⟨h1, h2⟩, h3⟩, ⟨h4, h5⟩, ⟨⟨h6, h7⟩, h8⟩, ⟨h9, h10⟩, rfl⟩
    exact ⟨h, h1, h2, h3, fun k hk => ⟨h4 k hk, h5 k hk⟩, ⟨h6, h7⟩, ⟨h8, h9⟩, h10, ⟨ha, hb, hf⟩, ⟨hx, hy⟩, ⟨hm, rfl⟩,
      ⟨rfl, rfl, rfl, rfl, rfl⟩, rfl, rfl, rfl⟩
  · rintro ⟨h, h1, h2, h3, h4, ⟨h6, h7⟩, ⟨h8, h9⟩, h10, ⟨ha, hb, hf⟩, ⟨hx, hy⟩, ⟨hm, e1⟩, ⟨e2, e3, e4, e5, e6⟩, e7,
      e8, e9⟩
    exact ⟨h, _, ha, _, hb, _, hf, _, hx, _, hy, _, hm, ⟨⟨h1, h2⟩, h3⟩, ⟨fun k hk => (h4 k hk).1,
        fun k hk => (h4 k hk).2⟩,
      ⟨⟨h6, h7⟩, h8⟩, ⟨h9, h10⟩, by cases c; simp_all [List.range_succ]⟩

theorem byteAt_drop (p : List Byte) (i j : Nat) : byteAt (p.drop i) j = byteAt p (i + j) := by
  simp [byteAt, List.getD_eq_getElem?_getD]

theorem wordAt_drop (p : List Byte) (i j : Nat) : wordAt (p.drop i) j = wordAt p (i + j) := by
  simp [wordAt, byteAt_drop, Nat.add_assoc]

theorem bitAt_eq (p : List Byte) (i j : Nat) : bitAt p i j = (byteAt p i).testBit j := by
  rfl

theorem readLightCfg_eq (p : List Byte) (i : Nat) (c : LightCfg) :
    readLightCfg (p.drop i) = some c ↔ Ranges 100 10000 (wordAt p (i + 1)) ∧ Ranges 1 100 (byteAt p (i + 4)) ∧
      (∀ k, k < 6 → byteAt p (i + 6 + k) ≤ 100) ∧ LightGives p i c := by
  unfold readLightCfg
  simp only [Option.bind_eq_bind, Option.pure_def, must_some, exists_const, Option.bind_eq_some_iff, chanAt_eq,
      chanOrNone_eq, Bool.and_eq_true, within_eq, Option.some.injEq, List.all_map, List.all_eq_true, List.mem_range,
      Function.comp, byteAt_drop, wordAt_drop, bitAt_eq, decide_eq_true_eq, ← Nat.add_assoc, Nat.add_zero]
  constructor
  · rintro ⟨a, ha, s, hs, ⟨⟨h1, h2⟩, h3⟩, rfl⟩
    exact ⟨h1, h2, h3, ⟨ha, hs⟩, ⟨rfl, rfl⟩, rfl, rfl, rfl⟩
  · rintro ⟨h1, h2, h3, ⟨ha, hs⟩, ⟨e1, e2⟩, e3, e4, e5⟩
    exact ⟨_, ha, _, hs, ⟨⟨h1, h2⟩, h3⟩, by cases c; simp_all⟩

theorem readLightsCfg_eq (p : List Byte) (c : LightsCfg) :
    readLightsCfg p = some c ↔ p.length = 100 ∧ byteAt p 0 ≤ 8 ∧ (byteAt p 2 ≤ 100 ∧ Ranges 10 100 (byteAt p 3)) ∧
      (∀ k, k < byteAt p 0 → Ranges 100 10000 (wordAt p (5 + 12 * k)) ∧ Ranges 1 100 (byteAt p (8 + 12 * k)) ∧
        ∀ j, j < 6 → byteAt p (10 + 12 * k + j) ≤ 100) ∧ LightsGives p c := by
  unfold readLightsCfg
  simp only [Option.bind_eq_bind, Option.pure_def, must_some, exists_const, Option.bind_eq_some_iff, chanOrNone_eq,
      Bool.and_eq_true, beq_iff_eq, within_eq, Option.some.injEq, decide_eq_true_eq, mapM_range, readLightCfg_eq]
  have idx : ∀ k, 4 + 12 * k + 1 = 5 + 12 * k ∧ 4 + 12 * k + 4 = 8 + 12 * k ∧ 4 + 12 * k + 6 = 10 + 12 * k := by omega
  constructor
  · rintro ⟨⟨h, h1⟩, d, hd, ⟨h2, h3⟩, l, ⟨hl, g⟩, rfl⟩
    refine ⟨h, h1, ⟨h2, h3⟩, fun k hk => ?_, ⟨hd, rfl, rfl⟩, hl, fun k b hb => (g k b hb).2.2.2⟩
    have := g k l[k] (by simp)
    rw [(idx k).1, (idx k).2.1, (idx k).2.2] at this
    exact ⟨this.1, this.2.1, this.2.2.1⟩
  · rintro ⟨h, h1, ⟨h2, h3⟩, h4, ⟨hd, e1, e2⟩, hl, g⟩
    refine ⟨⟨h, h1⟩, _, hd, ⟨h2, h3⟩, c.channels, ⟨hl, fun k b hb => ?_⟩, by cases c; simp_all⟩
    obtain ⟨hk, -⟩ := List.getElem?_eq_some_iff.1 hb
    have := h4 k (by omega)
    rw [(idx k).1, (idx k).2.1, (idx k).2.2]
    exact ⟨this.1, this.2.1, this.2.2, g k b hb⟩

theorem readTanksCfg_eq (p : List Byte) (l : List TankCfg) :
    readTanksCfg p = some l ↔ p.length = 145 ∧ byteAt p 0 ≤ 3 ∧ l.length = byteAt p 0 ∧
      ∀ k t, l[k]? = some t → readTankCfg (p.drop (1 + 48 * k)) = some t := by
  unfold readTanksCfg
  simp only [Option.bind_eq_bind, must_some, exists_const, Option.bind_eq_some_iff, Bool.and_eq_true, beq_iff_eq,
      decide_eq_true_eq, mapM_range]
  tauto

/-! ## Channels and bindings -/

theorem readChannel_eq (p : List Byte) (i : Nat) (c : ChanCfg) :
    readChannel p i = some c ↔ byteAt p (6 * i) % 8 = roleNumber c.role ∧
      c.owner = (if c.role = .off then none else dutyOfCode (byteAt p (6 * i) / 8)) ∧
      (c.role = .out → Ranges 500 10000 (wordAt p (6 * i + 1))) ∧
      (c.role = .out → byteAt p (6 * i) / 8 = dutyBit .aux → Ranges 100 10000 (wordAt p (6 * i + 4))) ∧
      (c.role = .inp ∨ c.role = .pulse → byteAt p (6 * i + 3) / 4 % 4 ≠ 3) ∧
      c.trip = wordAt p (6 * i + 1) ∧ c.time = timeOfCode (byteAt p (6 * i + 3) % 4) ∧
      c.pull = pullOfCode (byteAt p (6 * i + 3) / 4 % 4) ∧ c.activeLow = (byteAt p (6 * i + 3)).testBit 4 ∧
      c.volt = (byteAt p (6 * i + 3)).testBit 5 ∧ c.draw = wordAt p (6 * i + 4) := by
  unfold readChannel
  simp only [Option.bind_eq_bind, Option.pure_def, must_some, exists_const, Option.bind_eq_some_iff, roleOfCode_eq,
      Option.some.injEq]
  have t4 : (byteAt p (6 * i + 3) / 16 % 2 == 1) = (byteAt p (6 * i + 3)).testBit 4 := by
    simp [Nat.testBit_eq_decide_div_mod_eq]; rfl
  have t5 : (byteAt p (6 * i + 3) / 32 % 2 == 1) = (byteAt p (6 * i + 3)).testBit 5 := by
    simp [Nat.testBit_eq_decide_div_mod_eq]; rfl
  rw [t4, t5]
  have g2 : ∀ r : Role, (!(r == .out && dutyOfCode (byteAt p (6 * i) / 8) == some .aux) || within 100 10000 (wordAt p (6 * i + 4))) = true ↔
      (r = .out → byteAt p (6 * i) / 8 = dutyBit .aux → Ranges 100 10000 (wordAt p (6 * i + 4))) := by
    intro r
    rw [← within_eq, ← dutyOfCode_eq]
    by_cases h1 : r = .out <;> by_cases h2 : dutyOfCode (byteAt p (6 * i) / 8) = some .aux <;> simp [h1, h2]
  have g1 : ∀ r : Role, (r != .out || within 500 10000 (wordAt p (6 * i + 1))) = true ↔
      (r = .out → Ranges 500 10000 (wordAt p (6 * i + 1))) := by
    intro r
    rw [← within_eq]
    by_cases h1 : r = .out <;> simp [h1]
  have g3 : ∀ r : Role, (!(r == .inp || r == .pulse) || byteAt p (6 * i + 3) / 4 % 4 != 3) = true ↔
      (r = .inp ∨ r = .pulse → byteAt p (6 * i + 3) / 4 % 4 ≠ 3) := by
    intro r
    by_cases h1 : r = .inp <;> by_cases h2 : r = .pulse <;> simp [h1, h2]
  simp only [g1, g2, g3]
  constructor
  · rintro ⟨r, hr, h1, h2, h3, rfl⟩
    exact ⟨hr, rfl, h1, h2, h3, rfl, rfl, rfl, rfl, rfl, rfl⟩
  · rintro ⟨hr, ho, h1, h2, h3, e1, e2, e3, e4, e5, e6⟩
    exact ⟨_, hr, h1, h2, h3, by cases c; simp_all⟩

theorem readChannels_eq (p : List Byte) (v : Vector ChanCfg 16) :
    readChannels p = some v ↔ ∀ i : Fin 16, readChannel p i = some v[i] := by
  constructor
  · intro h
    obtain ⟨c0, h0, h⟩ := Option.bind_eq_some_iff.1 h
    obtain ⟨c1, h1, h⟩ := Option.bind_eq_some_iff.1 h
    obtain ⟨c2, h2, h⟩ := Option.bind_eq_some_iff.1 h
    obtain ⟨c3, h3, h⟩ := Option.bind_eq_some_iff.1 h
    obtain ⟨c4, h4, h⟩ := Option.bind_eq_some_iff.1 h
    obtain ⟨c5, h5, h⟩ := Option.bind_eq_some_iff.1 h
    obtain ⟨c6, h6, h⟩ := Option.bind_eq_some_iff.1 h
    obtain ⟨c7, h7, h⟩ := Option.bind_eq_some_iff.1 h
    obtain ⟨c8, h8, h⟩ := Option.bind_eq_some_iff.1 h
    obtain ⟨c9, h9, h⟩ := Option.bind_eq_some_iff.1 h
    obtain ⟨c10, h10, h⟩ := Option.bind_eq_some_iff.1 h
    obtain ⟨c11, h11, h⟩ := Option.bind_eq_some_iff.1 h
    obtain ⟨c12, h12, h⟩ := Option.bind_eq_some_iff.1 h
    obtain ⟨c13, h13, h⟩ := Option.bind_eq_some_iff.1 h
    obtain ⟨c14, h14, h⟩ := Option.bind_eq_some_iff.1 h
    obtain ⟨c15, h15, h⟩ := Option.bind_eq_some_iff.1 h
    cases h
    intro i
    fin_cases i <;> assumption
  · intro h
    have h0 : readChannel p 0 = some v[0] := h 0
    have h1 : readChannel p 1 = some v[1] := h 1
    have h2 : readChannel p 2 = some v[2] := h 2
    have h3 : readChannel p 3 = some v[3] := h 3
    have h4 : readChannel p 4 = some v[4] := h 4
    have h5 : readChannel p 5 = some v[5] := h 5
    have h6 : readChannel p 6 = some v[6] := h 6
    have h7 : readChannel p 7 = some v[7] := h 7
    have h8 : readChannel p 8 = some v[8] := h 8
    have h9 : readChannel p 9 = some v[9] := h 9
    have h10 : readChannel p 10 = some v[10] := h 10
    have h11 : readChannel p 11 = some v[11] := h 11
    have h12 : readChannel p 12 = some v[12] := h 12
    have h13 : readChannel p 13 = some v[13] := h 13
    have h14 : readChannel p 14 = some v[14] := h 14
    have h15 : readChannel p 15 = some v[15] := h 15
    unfold readChannels
    rw [h0, h1, h2, h3, h4, h5, h6, h7, h8, h9, h10, h11, h12, h13, h14, h15]
    refine congrArg some (Vector.ext fun i hi => ?_)
    interval_cases i <;> rfl

theorem readTempTypes_eq (p : List Byte) (v : Vector TempType 4) :
    readTempTypes p = some v ↔ ∀ t : Fin 4, typeNumber v[t] = byteAt p (96 + t) := by
  unfold readTempTypes
  simp only [Option.bind_eq_bind, Option.pure_def, Option.bind_eq_some_iff, Option.some.injEq, tempTypeOfCode_eq]
  constructor
  · rintro ⟨c0, h0, c1, h1, c2, h2, c3, h3, rfl⟩ i
    fin_cases i <;> exact Eq.symm (by assumption)
  · intro h
    refine ⟨_, (h 0).symm, _, (h 1).symm, _, (h 2).symm, _, (h 3).symm, ?_⟩
    apply Vector.ext
    intro i hi
    interval_cases i <;> rfl

theorem roleAllows_eq (r : Role) (d : Duty) : roleAllows r d = true ↔ d ∈ ownersOf r := by
  cases r <;> simp [roleAllows, ownersOf]

theorem holdsDuty_ofNat (o : Duty) (d : Nat) : holdsDuty o (BitVec.ofNat 11 d) = d.testBit (dutyBit o) := by
  have : dutyBit o < 11 := by cases o <;> decide
  simp only [holdsDuty, BitVec.getLsbD_ofNat, this, decide_true, Bool.true_and]

theorem channel_bound {p : List Byte} {i : Nat} {c : ChanCfg} (h : readChannel p i = some c) {r : Role}
    (hr : r ≠ .off) (o : Duty) :
    (c.role == r && c.owner == some o) = true ↔ byteAt p (6 * i) = roleNumber r + 8 * dutyBit o := by
  obtain ⟨h1, h2, -⟩ := (readChannel_eq p i c).1 h
  simp only [Bool.and_eq_true, beq_iff_eq]
  have lt : ∀ r, roleNumber r < 8 := by intro r; cases r <;> decide
  constructor
  · rintro ⟨rfl, ho⟩
    rw [if_neg hr] at h2
    have := (dutyOfCode_eq _ o).1 (h2 ▸ ho)
    have := lt c.role
    omega
  · intro e
    have := lt r
    have e1 : roleNumber c.role = roleNumber r := by omega
    have e2 : c.role = r := by revert e1; cases c.role <;> cases r <;> simp [roleNumber]
    refine ⟨e2, ?_⟩
    rw [h2, if_neg (e2 ▸ hr)]
    exact (dutyOfCode_eq _ o).2 (by omega)

theorem bound_eq {p : List Byte} {v : Vector ChanCfg 16} (h : readChannels p = some v) {r : Role}
    (hr : r ≠ .off) (o : Duty) (i : Fin 16) :
    bound v r o i = true ↔ IsBound p r o i := by
  unfold bound IsBound
  rw [channel_bound ((readChannels_eq p v).1 h i) hr o]
  simp

theorem boundOrNone_eq {p : List Byte} {v : Vector ChanCfg 16} (h : readChannels p = some v) {r : Role} (hr : r ≠ .off) (o : Duty)
    (i : Option (Fin 16)) (k : Nat) (e : i.map (·.val) = fieldOf k) :
    boundOrNone v r o i = true ↔ k = 0xFF ∨ IsBound p r o k := by
  unfold boundOrNone
  cases i with
  | none => simp only [Option.map_none] at e; simp [(fieldOf_none k).1 e.symm]
  | some i =>
    obtain ⟨h1, h2⟩ := (fieldOf_some k _).1 e.symm
    subst h2
    simp [bound_eq h hr, h1]

theorem typedOrNone_eq {p : List Byte} {v : Vector TempType 4} (h : readTempTypes p = some v) (t : TempType)
    (i : Option (Fin 4)) (k : Nat) (e : i.map (·.val) = fieldOf k) :
    typedOrNone v t i = true ↔ k = 0xFF ∨ IsTyped p t k := by
  have tn : ∀ a b, typeNumber a = typeNumber b ↔ a = b := by intro a b; cases a <;> cases b <;> simp [typeNumber]
  unfold typedOrNone
  cases i with
  | none => simp only [Option.map_none] at e; simp [(fieldOf_none k).1 e.symm]
  | some i =>
    obtain ⟨h1, h2⟩ := (fieldOf_some k _).1 e.symm
    subst h2
    simp only [beq_iff_eq, IsTyped, i.isLt, true_and, h1, false_or, ← (readTempTypes_eq p v).1 h i, tn]

theorem typed_eq {p : List Byte} {v : Vector TempType 4} (h : readTempTypes p = some v) (t : TempType) (i : Fin 4) :
    (v[i] == t) = true ↔ IsTyped p t i := by
  have tn : ∀ a b, typeNumber a = typeNumber b ↔ a = b := by intro a b; cases a <;> cases b <;> simp [typeNumber]
  simp only [beq_iff_eq, IsTyped, i.isLt, true_and, ← (readTempTypes_eq p v).1 h i, tn]

theorem ownerFits_eq {p : List Byte} {i d : Nat} {c : ChanCfg} (h : readChannel p i = some c) :
    ownerFits (BitVec.ofNat 11 d) c = true ↔
      (c.role ≠ .off → ∃ o ∈ ownersOf c.role, byteAt p (6 * i) / 8 = dutyBit o ∧ d.testBit (dutyBit o) = true) := by
  obtain ⟨h1, h2, -⟩ := (readChannel_eq p i c).1 h
  unfold ownerFits
  by_cases hr : c.role = .off
  · simp [hr]
  · rw [if_neg hr] at h2
    simp only [Bool.or_eq_true, beq_iff_eq, hr, false_or, ne_eq, not_false_eq_true, true_implies, h2]
    cases e : dutyOfCode (byteAt p (6 * i) / 8) with
    | none =>
      simp only [Bool.false_eq_true, false_iff]
      rintro ⟨o, -, ho, -⟩
      rw [(dutyOfCode_eq _ o).2 ho] at e; cases e
    | some o =>
      simp only [Bool.and_eq_true, holdsDuty_ofNat, roleAllows_eq]
      have e' := (dutyOfCode_eq _ o).1 e
      constructor
      · rintro ⟨a, b⟩; exact ⟨o, b, e', a⟩
      · rintro ⟨o', a, b, c⟩
        have : o = o' := by
          have := (dutyOfCode_eq _ o').2 b
          rw [e] at this; exact Option.some.inj this
        subst this; exact ⟨c, a⟩

theorem channel_fits (d : Nat) (p : List Byte) (i : Nat) :
    (∃ c, readChannel p i = some c ∧ ownerFits (BitVec.ofNat 11 d) c = true) ↔ ChannelFits d p i := by
  unfold ChannelFits
  constructor
  · rintro ⟨c, h, g⟩
    have g' := (ownerFits_eq h).1 g
    obtain ⟨h1, -, h3, h4, h5, -⟩ := (readChannel_eq p i c).1 h
    exact ⟨c.role, h1, g', fun e => ⟨h3 e, h4 e⟩, h5⟩
  · rintro ⟨r, h1, h2, h3, h4⟩
    have h : readChannel p i = some {
        role := r, owner := if r = .off then none else dutyOfCode (byteAt p (6 * i) / 8)
        trip := wordAt p (6 * i + 1), time := timeOfCode (byteAt p (6 * i + 3) % 4)
        pull := pullOfCode (byteAt p (6 * i + 3) / 4 % 4), activeLow := (byteAt p (6 * i + 3)).testBit 4
        volt := (byteAt p (6 * i + 3)).testBit 5, draw := wordAt p (6 * i + 4) } :=
      (readChannel_eq p i _).2 ⟨h1, rfl, fun e => (h3 e).1, fun e => (h3 e).2, h4, rfl, rfl, rfl, rfl, rfl, rfl⟩
    exact ⟨_, h, (ownerFits_eq h).2 h2⟩

theorem channel_gives {d : Nat} {p : List Byte} {i : Nat} {c : ChanCfg} (h : readChannel p i = some c)
    (g : ownerFits (BitVec.ofNat 11 d) c = true) : ChannelGives p i c := by
  have g' := (ownerFits_eq h).1 g
  obtain ⟨h1, h2, -, -, h5, h6, h7, h8, h9, h10, h11⟩ := (readChannel_eq p i c).1 h
  refine ⟨h1.symm, fun hr => ?_, h6, ?_, fun hr => ?_, h9, h10, h11⟩
  · obtain ⟨o, -, ho, -⟩ := g' hr
    rw [if_neg hr] at h2
    exact ⟨o, h2 ▸ (dutyOfCode_eq _ o).2 ho, ho.symm⟩
  · have : byteAt p (6 * i + 3) % 4 < 4 := Nat.mod_lt _ (by decide)
    rw [h7]
    generalize byteAt p (6 * i + 3) % 4 = k at *
    interval_cases k <;> rfl
  · have h3 := h5 hr
    have : byteAt p (6 * i + 3) / 4 % 4 < 4 := Nat.mod_lt _ (by decide)
    rw [h8]
    generalize byteAt p (6 * i + 3) / 4 % 4 = k at *
    interval_cases k <;> simp_all [pullOfCode]

theorem auxDraws_eq {p : List Byte} {v : Vector ChanCfg 16} (h : readChannels p = some v) :
    auxDraws v = ((List.range 16).map fun i =>
      if byteAt p (6 * i) = roleNumber .out + 8 * dutyBit .aux then wordAt p (6 * i + 4) else 0).sum := by
  unfold auxDraws
  congr 1
  apply List.ext_getElem
  · simp
  · intro i h1 h2
    simp at h1
    have hi := (readChannels_eq p v).1 h ⟨i, h1⟩
    have hb := channel_bound hi (r := .out) (by decide) .aux
    obtain ⟨-, -, -, -, -, -, -, -, -, -, hd⟩ := (readChannel_eq p i _).1 hi
    simp only [Fin.getElem_fin] at hb hd
    simp only [Bool.and_eq_true, beq_iff_eq] at hb
    simp [hb, hd]

/-! ## The checks of the chapters -/

theorem exists_field (n k : Nat) (h : k = 0xFF ∨ k < n) : ∃ t : Option (Fin n),
    t.map (·.val) = fieldOf k := by
  by_cases e : k = 0xFF
  · exact ⟨none, by simp [fieldOf, e]⟩
  · exact ⟨some ⟨k, by omega⟩, by simp [fieldOf, e]⟩

theorem notDecreasing_four (a b c d : Nat) : notDecreasing [a, b, c, d] = true ↔ a ≤ b ∧ b ≤ c ∧ c ≤ d := by
  simp [notDecreasing]

section
variable {cp : List Byte} {v : Vector ChanCfg 16} {ts : Vector TempType 4}

theorem battery_fits (h : readChannels cp = some v) (ht : readTempTypes cp = some ts) (p : List Byte) :
    (∃ c, readBattery p = some c ∧ checkBattery v ts c = true) ↔ BatteryFits cp p := by
  have chk : ∀ c, BatteryGives p c → (checkBattery v ts c = true ↔
      Rises (byteAt p 44) (fun k => wordAt p (45 + 4 * k)) ∧ Rises (byteAt p 44) (fun k => wordAt p (47 + 4 * k)) ∧
      wordAt p 16 + 50 ≤ wordAt p 14 ∧ (longAt p 30 ≤ longAt p 26 ∧ longAt p 26 ≤ longAt p 22 ∧
          longAt p 22 ≤ longAt p 34) ∧
      signedAt p 40 + 10 ≤ signedAt p 38 ∧ (byteAt p 43 = 0xFF ∨ IsBound cp .inp .battery (byteAt p 43)) ∧
      (byteAt p 42 = 0xFF ∨ IsTyped cp .ntc (byteAt p 42))) := by
    rintro c ⟨-, -, ⟨b1, b2, b3, b4⟩, ⟨c1, c2, c3, c4, c5, c6⟩, ⟨d1, d2⟩, e⟩
    unfold checkBattery
    simp only [Bool.and_eq_true, decide_eq_true_eq, e, pointsOf_fst, pointsOf_snd, increasing_range, notDecreasing_four,
      boundOrNone_eq h (by decide : Role.inp ≠ .off) _ _ _ d2, typedOrNone_eq ht _ _ _ d1, b1, b2, c1, c2, c3, c4,
          c5, c6]
    tauto
  constructor
  · rintro ⟨c, hr, hc⟩
    obtain ⟨h0, h1, h2, h3, ⟨h4, h4'⟩, h5, h6, ⟨h7, h7'⟩, h8, h9, g⟩ := (readBattery_eq p c).1 hr
    obtain ⟨k1, k2, k3, k4, k5, k6, k7⟩ := (chk c g).1 hc
    exact ⟨h0, h1, h2, h3, ⟨h4, h4', k3⟩, h5, ⟨h6, k4⟩, ⟨h7, h7', k5⟩, ⟨k7, k6⟩, h8, h9, k1, k2⟩
  · rintro ⟨h0, h1, h2, h3, ⟨h4, h4', k3⟩, h5, ⟨h6, k4⟩, ⟨h7, h7', k5⟩, ⟨k7, k6⟩, h8, h9, k1, k2⟩
    obtain ⟨t, et⟩ := exists_field 4 (byteAt p 42) (k7.imp_right (·.1))
    obtain ⟨a, ea⟩ := exists_field 16 (byteAt p 43) (k6.imp_right (·.1))
    have g : BatteryGives p {
      capacityAh := wordAt p 0, shunt := wordAt p 2, eta := byteAt p 4, startSoc := wordAt p 5
      restCurrent := wordAt p 7, restMinutes := byteAt p 9, fullVoltage := wordAt p 10, tailCurrent := wordAt p 12
      economy := wordAt p 14, reserve := wordAt p 16, cutoffVoltage := wordAt p 18, recoveryMargin := wordAt p 20
      aNorm := longAt p 22, aEcon := longAt p 26, aRes := longAt p 30, aHook := longAt p 34
      td1 := signedAt p 38, td2 := signedAt p 40, temp := t, charge := a, table := pointsOf p 45 (byteAt p 44) } :=
      ⟨⟨rfl, rfl, rfl, rfl⟩, ⟨rfl, rfl, rfl, rfl⟩, ⟨rfl, rfl, rfl, rfl⟩, ⟨rfl, rfl, rfl, rfl, rfl, rfl⟩, ⟨et, ea⟩, rfl⟩
    exact ⟨_, (readBattery_eq p _).2 ⟨h0, h1, h2, h3, ⟨h4, h4'⟩, h5, h6, ⟨h7, h7'⟩, h8, h9, g⟩,
      (chk _ g).2 ⟨k1, k2, k3, k4, k5, k6, k7⟩⟩

theorem tank_fits (h : readChannels cp = some v) (p : List Byte) :
    (∃ c, readTankCfg p = some c ∧ checkTank v c = true) ↔ TankFits cp p := by
  have ladder : ∀ (l : List (Fin 16)) (n : Nat), l.map (·.val) = ((List.range n).map fun k => byteAt p (5 + k)) →
      (l.all (bound v .inp .tanks) = true ↔ ∀ k, k < n → IsBound cp .inp .tanks (byteAt p (5 + k))) := by
    intro l n e
    simp only [List.all_eq_true, bound_eq h (by decide : Role.inp ≠ .off)]
    have hl : l.length = n := by simpa using congrArg List.length e
    constructor
    · intro g k hk
      have := congrArg (·[k]?) e
      simp [hk, (by omega : k < l.length)] at this
      rw [← this]; exact g _ (by simp)
    · intro g x hx
      have hm : x.val ∈ l.map (·.val) := List.mem_map_of_mem hx
      rw [e] at hm
      simp only [List.mem_map, List.mem_range] at hm
      obtain ⟨k, hk, e⟩ := hm
      rw [← e]; exact g k hk
  constructor
  · rintro ⟨c, hr, hc⟩
    obtain ⟨h1, h2, h3, h4, g⟩ := (readTankCfg_eq p c).1 hr
    refine ⟨⟨?_, h1⟩, h2, fun hz => ?_, fun hz => ?_⟩
    · have := (List.getElem?_eq_some_iff.1 g.kind).1
      simp at this; omega
    · obtain ⟨l, e, hm, he, hl⟩ := g.ladder hz
      simp only [checkTank, hm, Bool.and_eq_true, ladder l _ hl, bound_eq h (by decide : Role.out ≠ .off), he] at hc
      exact ⟨h3 hz, hc⟩
    · obtain ⟨ch, hm, hch⟩ := g.sender hz
      obtain ⟨-, -, -, -, -, -, -, -, -, hv, -⟩ := (readChannel_eq cp ch _).1 ((readChannels_eq cp v).1 h ch)
      simp only [checkTank, hm, Bool.and_eq_true, Bool.or_eq_true, bound_eq h (by decide : Role.ain ≠ .off), hch,
          hv, pointsOf_fst,
        pointsOf_snd, increasing_range, increasing_reverse, Bool.not_eq_true'] at hc
      obtain ⟨⟨⟨c1, c2⟩, c3⟩, c4⟩ := hc
      obtain ⟨d1, d2⟩ := h4 hz
      exact ⟨c1, c2, d1, d2, c3, c4⟩
  · rintro ⟨⟨hk, h1⟩, h2, h3, h4⟩
    have kind : ∃ k, [TankKind.fresh, .grey, .black][byteAt p 0]? = some k := by
      match e : byteAt p 0 with
      | 0 => exact ⟨_, rfl⟩
      | 1 => exact ⟨_, rfl⟩
      | 2 => exact ⟨_, rfl⟩
      | _ + 3 => omega
    obtain ⟨k, hk⟩ := kind
    by_cases hz : byteAt p 1 = 0
    · obtain ⟨d1, d2, d3⟩ := h3 hz
      let l : List (Fin 16) := (List.range (byteAt p 4)).map fun k => Fin.ofNat 16 (byteAt p (5 + k))
      have hl : l.map (·.val) = (List.range (byteAt p 4)).map fun k => byteAt p (5 + k) := by
        simp only [l, List.map_map]
        refine List.map_congr_left fun k hk => ?_
        exact Nat.mod_eq_of_lt (d2 k (by simpa using hk)).1
      refine ⟨⟨k, .ladder l ⟨_, d3.1⟩, wordAt p 2⟩, (readTankCfg_eq p _).2 ⟨h1, h2, fun _ => d1, by omega, hk, rfl,
        fun _ => ⟨l, _, rfl, rfl, hl⟩, by omega⟩, ?_⟩
      simp only [checkTank, Bool.and_eq_true, ladder l _ hl, bound_eq h (by decide : Role.out ≠ .off)]
      exact ⟨d2, d3⟩
    · have hz : byteAt p 1 = 1 := by omega
      obtain ⟨d1, d2, d3, d4, d5, d6⟩ := h4 hz
      let ch : Fin 16 := ⟨_, d1.1⟩
      obtain ⟨-, -, -, -, -, -, -, -, -, hv, -⟩ := (readChannel_eq cp ch _).1 ((readChannels_eq cp v).1 h ch)
      refine ⟨⟨k, .sender ch (pointsOf p 16 (byteAt p 15)), wordAt p 2⟩, (readTankCfg_eq p _).2 ⟨h1, h2, by omega,
        fun _ => ⟨d3, d4⟩, hk, rfl, by omega, fun _ => ⟨ch, rfl, rfl⟩⟩, ?_⟩
      simp only [checkTank, Bool.and_eq_true, Bool.or_eq_true, bound_eq h (by decide : Role.ain ≠ .off), hv,
          pointsOf_fst,
        pointsOf_snd, increasing_range, increasing_reverse, Bool.not_eq_true']
      exact ⟨⟨⟨d1, d2⟩, d5⟩, d6⟩

theorem tanks_fit (h : readChannels cp = some v) (p : List Byte) :
    (∃ l, readTanksCfg p = some l ∧ l.all (checkTank v) = true) ↔ TanksFit cp p := by
  unfold TanksFit
  simp only [readTanksCfg_eq, ← tank_fits h]
  constructor
  · rintro ⟨l, ⟨h1, h2, h3, h4⟩, hc⟩
    refine ⟨h1, h2, fun k hk => ?_⟩
    have hk' : k < l.length := by omega
    exact ⟨l[k], h4 k _ (by simp), (List.all_eq_true.1 hc) _ (by simp)⟩
  · rintro ⟨h1, h2, h3⟩
    let P (k : Nat) (c : TankCfg) : Prop := readTankCfg (p.drop (1 + 48 * k)) = some c ∧ checkTank v c = true
    let f : Nat → Option TankCfg := fun k => (readTankCfg (p.drop (1 + 48 * k))).filter (checkTank v)
    have hf : ∀ k c, f k = some c ↔ P k c := by intro k c; simp [f, P, Option.filter_eq_some_iff]
    obtain ⟨r, hr⟩ := (mapM_range_isSome f (byteAt p 0)).2 fun k hk => by
      obtain ⟨c, hc⟩ := h3 k hk; exact ⟨c, (hf k c).2 hc⟩
    obtain ⟨hl, hr⟩ := (mapM_range f _ r).1 hr
    refine ⟨r, ⟨h1, h2, hl, fun k t ht => ((hf k t).1 (hr k t ht)).1⟩, List.all_eq_true.2 fun t ht => ?_⟩
    obtain ⟨k, hk, rfl⟩ := List.mem_iff_getElem.1 ht
    exact ((hf k _).1 (hr k _ (by simp))).2

theorem pump_fits (h : readChannels cp = some v) (p : List Byte) :
    (∃ c, readPump p = some c ∧ checkPump v c = true) ↔ PumpFits cp p := by
  unfold PumpFits checkPump
  simp only [readPump_eq, Bool.and_eq_true, bound_eq h (by decide : Role.inp ≠ .off),
      bound_eq h (by decide : Role.out ≠ .off)]
  constructor
  · rintro ⟨c, ⟨h1, h2, h3, h4, h5, h6, g⟩, c1, c2⟩
    rw [g.channels.1] at c1; rw [g.channels.2] at c2
    exact ⟨h1, c1, c2, h4, h5, h6⟩
  · rintro ⟨h1, c1, c2, h4, h5, h6⟩
    exact ⟨⟨⟨_, c1.1⟩, ⟨_, c2.1⟩, wordAt p 2, byteAt p 4 == 1, 1000 * wordAt p 5⟩,
      ⟨h1, c1.1, c2.1, h4, h5, h6, ⟨rfl, rfl⟩, rfl, by simp, rfl⟩, c1, c2⟩

theorem frost_fits (h : readChannels cp = some v) (ht : readTempTypes cp = some ts) (p : List Byte) :
    (∃ c, readFrost p = some c ∧ checkFrost v ts c = true) ↔ FrostFits cp p := by
  have chk : ∀ c, FrostGives p c → (checkFrost v ts c = true ↔ IsBound cp .out .frost (byteAt p 0) ∧
      IsBound cp .out .frost (byteAt p 1) ∧ byteAt p 0 ≠ byteAt p 1 ∧ IsBound cp .inp .frost (byteAt p 2) ∧
      (byteAt p 3 = 0xFF ∨ IsTyped cp .ntc (byteAt p 3))) := by
    rintro c ⟨⟨h1, h2, h3⟩, h4, -, -⟩
    unfold checkFrost
    simp only [Bool.and_eq_true, bound_eq h (by decide : Role.inp ≠ .off), bound_eq h (by decide : Role.out ≠ .off),
      typedOrNone_eq ht _ _ _ h4, bne_iff_ne, ne_eq, Fin.ext_iff, h1, h2, h3]
    tauto
  unfold FrostFits
  simp only [readFrost_eq]
  constructor
  · rintro ⟨c, ⟨h1, h2, h3, g⟩, hc⟩
    obtain ⟨c1, c2, c3, c4, c5⟩ := (chk c g).1 hc
    exact ⟨h1, c1, c2, c3, c4, c5, h2, h3⟩
  · rintro ⟨h1, c1, c2, c3, c4, c5, h2, h3⟩
    obtain ⟨t, et⟩ := exists_field 4 (byteAt p 3) (c5.imp_right (·.1))
    have g : FrostGives p ⟨⟨_, c1.1⟩, ⟨_, c2.1⟩, ⟨_, c4.1⟩, t, signedAt p 4, 1000 * wordAt p 6⟩ := ⟨⟨rfl, rfl, rfl⟩,
        et, rfl, rfl⟩
    exact ⟨_, ⟨h1, h2, h3, g⟩, (chk _ g).2 ⟨c1, c2, c3, c4, c5⟩⟩

theorem heater_fits (h : readChannels cp = some v) (ht : readTempTypes cp = some ts) (p : List Byte) :
    (∃ c, readHeater p = some c ∧ checkHeater v ts c = true) ↔ HeaterFits cp p := by
  have chk : ∀ c, HeaterGives p c → (checkHeater v ts c = true ↔
      (IsBound cp .out .heater (byteAt p 0) ∧ IsBound cp .out .heater (byteAt p 1) ∧
      IsBound cp .out .heater (byteAt p 2) ∧ byteAt p 0 ≠ byteAt p 1 ∧ byteAt p 0 ≠ byteAt p 2 ∧
          byteAt p 1 ≠ byteAt p 2) ∧
      (IsTyped cp .high (byteAt p 3) ∧ (byteAt p 4 = 0xFF ∨ IsTyped cp .ntc (byteAt p 4)) ∧ byteAt p 4 ≠ byteAt p 3) ∧
      ∀ k, k < 3 → wordAt p (10 + 2 * k) ≤ wordAt p (12 + 2 * k)) := by
    rintro c ⟨⟨h1, h2, h3⟩, ⟨h4, h5⟩, -, ⟨-, h6, -⟩, -⟩
    have ne : c.cabin ≠ some c.exhaust ↔ byteAt p 4 ≠ byteAt p 3 := by
      have hx := c.exhaust.isLt
      rw [h4] at hx
      cases e : c.cabin with
      | none =>
        rw [e] at h5; simp only [Option.map_none] at h5
        have := (fieldOf_none _).1 h5.symm
        simp only [ne_eq, reduceCtorEq, not_false_eq_true, true_iff]; omega
      | some x =>
        rw [e] at h5; simp only [Option.map_some] at h5
        have := (fieldOf_some _ _).1 h5.symm
        simp only [ne_eq, Option.some.injEq, Fin.ext_iff]; omega
    have lv : (∀ k, k < 3 → wordAt p (10 + 2 * k) ≤ wordAt p (12 + 2 * k)) ↔
        wordAt p 10 ≤ wordAt p 12 ∧ wordAt p 12 ≤ wordAt p 14 ∧ wordAt p 14 ≤ wordAt p 16 := by
      constructor
      · intro g; exact ⟨g 0 (by decide), g 1 (by decide), g 2 (by decide)⟩
      · rintro ⟨g0, g1, g2⟩ k hk
        match k, hk with
        | 0, _ => exact g0
        | 1, _ => exact g1
        | 2, _ => exact g2
    unfold checkHeater
    simp only [Bool.and_eq_true, bound_eq h (by decide : Role.out ≠ .off), typed_eq ht,
      typedOrNone_eq ht _ _ _ h5, bne_iff_ne, h6, notDecreasing_four, lv]
    rw [ne, ← h1, ← h2, ← h3, ← h4]
    simp only [ne_eq, Fin.ext_iff]
    tauto
  constructor
  · rintro ⟨c, hr, hc⟩
    obtain ⟨h1, h2, h3, h4, h5, h6, h7, h8, g⟩ := (readHeater_eq p c).1 hr
    obtain ⟨c1, c2, c3⟩ := (chk c g).1 hc
    have := (List.getElem?_eq_some_iff.1 g.mode.1).1
    simp at this
    exact ⟨h1, c1, c2, by omega, ⟨h2, h3⟩, h4, ⟨h5, c3⟩, h6, h7, h8⟩
  · rintro ⟨h1, c1, c2, hm, ⟨h2, h3⟩, h4, ⟨h5, c3⟩, h6, h7, h8⟩
    obtain ⟨t, et⟩ := exists_field 4 (byteAt p 4) (c2.2.1.imp_right (·.1))
    have mode : ∃ k, [HeaterMode.off, .heat, .frost, .vent][byteAt p 5]? = some k := by
      match e : byteAt p 5 with
      | 0 => exact ⟨_, rfl⟩
      | 1 => exact ⟨_, rfl⟩
      | 2 => exact ⟨_, rfl⟩
      | 3 => exact ⟨_, rfl⟩
      | _ + 4 => omega
    obtain ⟨m, hm⟩ := mode
    have g : HeaterGives p {
      glow := ⟨_, c1.1.1⟩, fan := ⟨_, c1.2.1.1⟩, fuel := ⟨_, c1.2.2.1.1⟩, exhaust := ⟨_, c2.1.1⟩
      cabin := t, mode := m, setpoint := signedAt p 6, start := wordAt p 8
      levels := [wordAt p 10, wordAt p 12, wordAt p 14, wordAt p 16]
      duties := [byteAt p 18, byteAt p 19, byteAt p 20, byteAt p 21]
      startDuty := byteAt p 22, ventDuty := byteAt p 23, vent := wordAt p 24, cooldown := wordAt p 26
      flameLost := signedAt p 28 } := ⟨⟨rfl, rfl, rfl⟩, ⟨rfl, et⟩, ⟨hm, rfl⟩, ⟨rfl, rfl, rfl, rfl, rfl⟩, rfl, rfl, rfl⟩
    exact ⟨_, (readHeater_eq p _).2 ⟨h1, h2, h3, h4, h5, h6, h7, h8, g⟩, (chk _ g).2 ⟨c1, c2, c3⟩⟩

theorem unit_fits (h : readChannels cp = some v) (owner : Duty) (lo hi : Nat) (p : List Byte) (i : Nat) :
    (∃ c, readUnitCfg p i lo hi = some c ∧ checkUnit v owner c = true) ↔ UnitFits cp owner lo hi p i := by
  unfold UnitFits checkUnit
  simp only [readUnitCfg_eq, Bool.and_eq_true, bound_eq h (by decide : Role.inp ≠ .off), bne_iff_ne, ne_eq, Fin.ext_iff]
  constructor
  · rintro ⟨c, ⟨h1, h2, h3, g⟩, ⟨c1, c2⟩, c3⟩
    rw [g.channels.1] at c1 c3; rw [g.channels.2] at c2 c3
    exact ⟨c1, c2, c3, h1, h2, h3⟩
  · rintro ⟨c1, c2, c3, h1, h2, h3⟩
    exact ⟨⟨⟨_, c1.1⟩, ⟨_, c2.1⟩, 1000 * byteAt p (i + 2), wordAt p (i + 3), wordAt p (i + 5)⟩,
      ⟨h1, h2, h3, ⟨rfl, rfl⟩, rfl, rfl, rfl⟩, ⟨c1, c2⟩, c3⟩

theorem wind_fits (h : readChannels cp = some v) (p : List Byte) :
    (∃ c, readWind p = some c ∧ checkWind v c = true) ↔ WindFits cp p := by
  unfold WindFits checkWind
  simp only [readWind_eq, bound_eq h (by decide : Role.pulse ≠ .off)]
  constructor
  · rintro ⟨c, ⟨h1, h2, h3, g⟩, c1⟩
    rw [g.channel] at c1
    exact ⟨h1, c1, h2, h3⟩
  · rintro ⟨h1, c1, h2, h3⟩
    exact ⟨⟨⟨_, c1.1⟩, wordAt p 1, wordAt p 3⟩, ⟨h1, h2, h3, rfl, rfl, rfl⟩, c1⟩
end

/-! ## Lights -/

theorem pairwise_range {R : Nat → Nat → Prop} (n : Nat) : (List.range n).Pairwise R ↔ ∀ j k, j < k → k < n → R j k := by
  rw [List.pairwise_iff_getElem]
  simp only [List.length_range, List.getElem_range]
  constructor
  · intro h j k hj hk; exact h j k (by omega) hk hj
  · intro h j k _ hk hj; exact h j k hj hk

section
variable {cp : List Byte} {v : Vector ChanCfg 16} {ts : Vector TempType 4}

/-- A list whose members answer to the places of a range. -/
theorem map_of_places {α β : Type} (l : List α) (n : Nat) (f : α → β) (g : Nat → β) (hl : l.length = n)
    (h : ∀ k a, l[k]? = some a → f a = g k) : l.map f = (List.range n).map g := by
  apply List.ext_getElem (by simp [hl])
  intro i h1 h2
  simp at h1
  simpa using h i l[i] (by simp)

theorem lights_fit (h : readChannels cp = some v) (p : List Byte) :
    (∃ c, readLightsCfg p = some c ∧ checkLights v c = true) ↔ LightsFit cp p := by
  have idx : ∀ k, 4 + 12 * k + 1 = 5 + 12 * k ∧ 4 + 12 * k + 4 = 8 + 12 * k ∧ 4 + 12 * k + 6 = 10 + 12 * k ∧
    4 + 12 * k + 3 = 7 + 12 * k ∧ 4 + 12 * k + 5 = 9 + 12 * k := by omega
  have chk : ∀ c, LightsGives p c → (checkLights v c = true ↔
      (∀ k, k < byteAt p 0 → IsBound cp .out .lights (byteAt p (4 + 12 * k)) ∧
        (byteAt p (9 + 12 * k) = 0xFF ∨ IsBound cp .inp .lights (byteAt p (9 + 12 * k))) ∧
        ((byteAt p (7 + 12 * k)).testBit 1 = true → (byteAt p (7 + 12 * k)).testBit 0 = true)) ∧
      (∀ j k, j < k → k < byteAt p 0 → byteAt p (4 + 12 * j) ≠ byteAt p (4 + 12 * k)) ∧
      (∀ j k, j < k → k < byteAt p 0 → byteAt p (9 + 12 * j) ≠ 0xFF → byteAt p (9 + 12 * j) ≠ byteAt p (9 + 12 * k)) ∧
      (byteAt p 1 = 0xFF ∨ IsBound cp .inp .lights (byteAt p 1)) ∧
      (byteAt p 1 ≠ 0xFF → ∀ k, k < byteAt p 0 → byteAt p (9 + 12 * k) ≠ byteAt p 1) ∧
      (∀ main : Bool, ((List.range (byteAt p 0)).map fun k =>
        if (byteAt p (7 + 12 * k)).testBit 0 = main then wordAt p (5 + 12 * k) else 0).sum ≤ 25500)) := by
    rintro c ⟨⟨hd, -, -⟩, hl, g⟩
    have m1 : c.channels.map (·.output.val) = (List.range (byteAt p 0)).map fun k => byteAt p (4 + 12 * k) :=
      map_of_places _ _ _ _ hl fun k a e => (g k a e).channels.1
    have m2 : c.channels.map (fun l => l.switch.map (·.val)) = (List.range (byteAt p 0)).map fun k => fieldOf (byteAt p (9 + 12 * k)) :=
      map_of_places _ _ _ _ hl fun k a e => by have := (g k a e).channels.2; rwa [(idx k).2.2.2.2] at this
    have m3 : (c.channels.filterMap (·.switch)).map (·.val) = (List.range (byteAt p 0)).filterMap fun k => fieldOf (byteAt p (9 + 12 * k)) := by
      have := congrArg (List.filterMap id) m2
      simp only [List.filterMap_map, Function.comp_def, id] at this
      rw [List.map_filterMap]; exact this
    have m4 : ∀ main : Bool, classCurrent main c.channels = ((List.range (byteAt p 0)).map fun k =>
        if (byteAt p (7 + 12 * k)).testBit 0 = main then wordAt p (5 + 12 * k) else 0).sum := by
      intro main
      unfold classCurrent
      rw [sum_filter]
      congr 1
      refine map_of_places _ _ _ _ hl fun k a e => ?_
      have h1 := (g k a e).marks.1
      have h2 := (g k a e).settings.1
      rw [(idx k).2.2.2.1] at h1
      rw [(idx k).1] at h2
      simp [h1, h2]
    have all : ∀ (q : LightCfg → Bool) (Q : Nat → Prop), (∀ k a, c.channels[k]? = some a → (q a = true ↔ Q k)) →
        (c.channels.all q = true ↔ ∀ k, k < byteAt p 0 → Q k) := by
      intro q Q hq
      rw [List.all_eq_true]
      constructor
      · intro hx k hk
        exact (hq k c.channels[k] (by simp)).1 (hx _ (by simp))
      · intro hx a ha
        obtain ⟨k, hk, rfl⟩ := List.mem_iff_getElem.1 ha
        exact (hq k _ (by simp)).2 (hx k (by omega))
    have m5 := all (fun l => bound v .out .lights l.output && boundOrNone v .inp .lights l.switch && (l.main || !l.courtesy))
      (fun k => IsBound cp .out .lights (byteAt p (4 + 12 * k)) ∧
        (byteAt p (9 + 12 * k) = 0xFF ∨ IsBound cp .inp .lights (byteAt p (9 + 12 * k))) ∧
        ((byteAt p (7 + 12 * k)).testBit 1 = true → (byteAt p (7 + 12 * k)).testBit 0 = true)) fun k a e => by
      obtain ⟨⟨e1, e2⟩, ⟨e3, e4⟩, -⟩ := g k a e
      rw [(idx k).2.2.2.2] at e2
      rw [(idx k).2.2.2.1] at e3 e4
      simp only [Bool.and_eq_true, bound_eq h (by decide : Role.out ≠ .off),
          boundOrNone_eq h (by decide : Role.inp ≠ .off) _ _ _ e2,
        e1, e3, e4, and_assoc]
      cases (byteAt p (7 + 12 * k)).testBit 0 <;> cases (byteAt p (7 + 12 * k)).testBit 1 <;> simp
    have m6 : (c.door.any fun d => ((c.channels.filterMap (·.switch)).map (·.val)).contains d.val) = false ↔
        (byteAt p 1 ≠ 0xFF → ∀ k, k < byteAt p 0 → byteAt p (9 + 12 * k) ≠ byteAt p 1) := by
      rw [m3]
      cases e : c.door with
      | none => rw [e] at hd; simp only [Option.map_none] at hd; simp [(fieldOf_none _).1 hd.symm]
      | some d =>
        rw [e] at hd; simp only [Option.map_some] at hd
        obtain ⟨d1, d2⟩ := (fieldOf_some _ _).1 hd.symm
        simp only [← d2, Option.any_some, List.contains_eq_mem, decide_eq_false_iff_not, List.mem_filterMap,
          List.mem_range, not_exists, not_and, fieldOf_some, d1, ne_eq, not_false_eq_true, true_implies]
        constructor
        · intro hx k hk e; exact hx k hk (by rw [e]; exact d1) e
        · intro hx k hk _ e; exact hx k hk e
    unfold checkLights
    simp only [Bool.and_eq_true, m5, distinct_eq, m1, Bool.not_eq_true', m6]
    rw [m3]
    simp only [List.Nodup, List.pairwise_map, pairwise_range, List.pairwise_filterMap, fieldOf_some,
        decide_eq_true_eq, m4,
      boundOrNone_eq h (by decide : Role.inp ≠ .off) _ _ _ hd, Bool.forall_bool]
    have m7 : (∀ j k, j < k → k < byteAt p 0 → ∀ b, byteAt p (9 + 12 * j) ≠ 255 ∧ byteAt p (9 + 12 * j) = b →
        ∀ b', byteAt p (9 + 12 * k) ≠ 255 ∧ byteAt p (9 + 12 * k) = b' → b ≠ b') ↔
        ∀ j k, j < k → k < byteAt p 0 → byteAt p (9 + 12 * j) ≠ 0xFF → byteAt p (9 + 12 * j) ≠ byteAt p (9 + 12 * k) := by
      constructor
      · intro hx j k hj hk h1 e
        exact hx j k hj hk _ ⟨h1, rfl⟩ _ ⟨e ▸ h1, rfl⟩ e
      · rintro hx j k hj hk b ⟨h1, rfl⟩ b' ⟨h2, rfl⟩
        exact hx j k hj hk h1
    rw [m7]
    tauto
  constructor
  · rintro ⟨c, hr, hc⟩
    obtain ⟨h1, h2, h3, h4, g⟩ := (readLightsCfg_eq p c).1 hr
    obtain ⟨c1, c2, c3, c4, c5, c6⟩ := (chk c g).1 hc
    refine ⟨h1, h2, c4, h3, fun k hk => ?_, fun j k hj hk => ⟨c2 j k hj hk, c3 j k hj hk⟩, c6⟩
    obtain ⟨d1, d2, d3⟩ := c1 k hk
    obtain ⟨d4, d5, d6⟩ := h4 k hk
    unfold LightFits
    rw [(idx k).1, (idx k).2.1, (idx k).2.2.1, (idx k).2.2.2.1, (idx k).2.2.2.2]
    refine ⟨d1, d4, d3, d5, d2.imp_right fun d => ⟨d, ?_⟩, d6⟩
    by_cases e : byteAt p 1 = 0xFF
    · have := d.1; omega
    · exact c5 e k hk
  · rintro ⟨h1, h2, h3, h4, h5, h6, h7⟩
    have h5' : ∀ k, k < byteAt p 0 → _ := fun k hk => by
      have := h5 k hk
      unfold LightFits at this
      rwa [(idx k).1, (idx k).2.1, (idx k).2.2.1, (idx k).2.2.2.1, (idx k).2.2.2.2] at this
    have field : ∀ k, (k = 0xFF ∨ IsBound cp .inp .lights k) → ∃ t : Option (Fin 16), t.map (·.val) = fieldOf k :=
        fun k hk =>
      exists_field 16 k (hk.imp_right (·.1))
    obtain ⟨d, hd⟩ := field _ h3
    have light : ∀ k, k < byteAt p 0 → ∃ l, LightGives p (4 + 12 * k) l := by
      intro k hk
      obtain ⟨a1, a2, a3, a4, a5, a6⟩ := h5' k hk
      obtain ⟨s, hs⟩ := field _ (a5.imp_right (·.1))
      exact ⟨⟨⟨_, a1.1⟩, _, _, _, _, s, _⟩, ⟨⟨rfl, by rwa [(idx k).2.2.2.2]⟩, ⟨rfl, rfl⟩, rfl, rfl, rfl⟩⟩
    have : Nonempty LightCfg := ⟨⟨0, 0, false, false, 0, none, []⟩⟩
    choose! f hf using light
    have g : LightsGives p ⟨d, byteAt p 2, byteAt p 3, (List.range (byteAt p 0)).map f⟩ := by
      refine ⟨⟨hd, rfl, rfl⟩, by simp, fun k l e => ?_⟩
      obtain ⟨hk, rfl⟩ := List.getElem?_eq_some_iff.1 e
      simp at hk
      simpa using hf k hk
    refine ⟨_, (readLightsCfg_eq p _).2 ⟨h1, h2, h4, fun k hk => ?_, g⟩, (chk _ g).2 ⟨fun k hk => ?_,
        fun j k hj hk => (h6 j k hj hk).1, fun j k hj hk => (h6 j k hj hk).2, h3, fun e k hk => ?_, h7⟩⟩
    · obtain ⟨a1, a2, a3, a4, a5, a6⟩ := h5' k hk; exact ⟨a2, a4, a6⟩
    · obtain ⟨a1, a2, a3, a4, a5, a6⟩ := h5' k hk; exact ⟨a1, a5.imp_right (·.1), a3⟩
    · obtain ⟨a1, a2, a3, a4, a5, a6⟩ := h5' k hk
      rcases a5 with a5 | a5
      · omega
      · exact a5.2

end

/-! ## Sections -/

theorem drop_cons_cons (p : List Byte) (h : 2 ≤ p.length) :
    p = BitVec.ofNat 8 (byteAt p 0) :: BitVec.ofNat 8 (byteAt p 1) :: p.drop 2 := by
  match p, h with
  | a :: b :: r, _ => simp [byteAt]

theorem splitSections_eq (fuel : Nat) (p : List Byte) (ss : List (Nat × List Byte)) (hf : p.length < fuel) :
    splitSections fuel p = some ss ↔ p = (ss.flatMap fun s => BitVec.ofNat 8 s.1 :: BitVec.ofNat 8 s.2.length :: s.2) ∧
      ∀ s ∈ ss, s.1 ≤ 255 ∧ s.2.length ≤ 255 := by
  induction fuel generalizing p ss with
  | zero => omega
  | succ fuel ih =>
    match p with
    | [] =>
      simp only [splitSections, Option.some.injEq]
      constructor
      · rintro rfl; simp
      · rintro ⟨h, -⟩
        cases ss with
        | nil => rfl
        | cons s ss => simp at h
    | [a] =>
      simp only [splitSections, List.length_singleton]
      simp only [Nat.reduceLeDiff, false_and, if_false, reduceCtorEq, false_iff]
      rintro ⟨h, -⟩
      cases ss with
      | nil => simp at h
      | cons s ss => simp at h
    | a :: b :: r =>
      have hb : byteAt (a :: b :: r) 1 = b.toNat := rfl
      have ha : byteAt (a :: b :: r) 0 = a.toNat := rfl
      simp only [splitSections, hb, ha, List.length_cons, Nat.le_add_left, true_and]
      have lt := b.isLt
      have la := a.isLt
      have hd : (a :: b :: r).drop (2 + b.toNat) = r.drop b.toNat := by rw [Nat.add_comm]; rfl
      simp only [List.length_cons] at hf
      have hih := fun ss' => ih (r.drop b.toNat) ss' (by simp; omega)
      rw [hd]
      split
      · rename_i hl
        simp only [Option.map_eq_some_iff, hih]
        constructor
        · rintro ⟨ss', ⟨e, g⟩, rfl⟩
          have hl' : b.toNat ≤ r.length := by omega
          have ht : (r.take b.toNat).length = b.toNat := by simp; omega
          refine ⟨?_, ?_⟩
          · simp only [List.flatMap_cons, List.drop_succ_cons, List.drop_zero, ht, BitVec.ofNat_toNat,
              BitVec.setWidth_eq, ← e, List.cons_append, List.take_append_drop]
          · intro s hs
            rcases List.mem_cons.1 hs with rfl | hs
            · simp only [List.drop_succ_cons, List.drop_zero, ht]; omega
            · exact g s hs
        · rintro ⟨e, g⟩
          cases ss with
          | nil => simp at e
          | cons s ss =>
            obtain ⟨c, q⟩ := s
            have gs := g (c, q) (by simp)
            simp only at gs
            simp only [List.flatMap_cons, List.cons_append, List.cons.injEq] at e
            obtain ⟨rfl, rfl, rfl⟩ := e
            have h2 : (BitVec.ofNat 8 q.length).toNat = q.length := by simp; omega
            have h1 : (BitVec.ofNat 8 c).toNat = c := by simp; omega
            refine ⟨ss, ⟨?_, fun s hs => g s (by simp [hs])⟩, ?_⟩
            · rw [h2]; simp
            · rw [h1, h2]; simp
      · rename_i hl
        simp only [reduceCtorEq, false_iff]
        rintro ⟨e, g⟩
        cases ss with
        | nil => simp at e
        | cons s ss =>
          obtain ⟨c, q⟩ := s
          have gs := g (c, q) (by simp)
          simp only at gs
          simp only [List.flatMap_cons, List.cons_append, List.cons.injEq] at e
          obtain ⟨rfl, rfl, rfl⟩ := e
          apply hl
          have h2 : (BitVec.ofNat 8 q.length).toNat = q.length := by simp; omega
          rw [h2]; simp; omega

theorem sectionOf_eq {ss : List (Nat × List Byte)} (h : (ss.map (·.1)).Nodup) (code : Nat) (p : List Byte) :
    sectionOf code ss = some p ↔ (code, p) ∈ ss := by
  induction ss with
  | nil => simp [sectionOf]
  | cons s ss ih =>
    obtain ⟨c, q⟩ := s
    simp only [List.map_cons, List.nodup_cons] at h
    have ih := ih h.2
    unfold sectionOf at ih ⊢
    by_cases e : c = code
    · subst e
      simp only [List.find?_cons, beq_self_eq_true, Option.map_some, Option.some.injEq, List.mem_cons,
          Prod.mk.injEq, true_and]
      constructor
      · rintro rfl; exact .inl rfl
      · rintro (rfl | hm)
        · rfl
        · exact absurd (List.mem_map_of_mem (f := (·.1)) hm) h.1
    · have : (c == code) = false := by simp [e]
      simp only [List.find?_cons, this, ih, List.mem_cons, Prod.mk.injEq]
      constructor
      · exact .inr
      · rintro (⟨e', -⟩ | hm)
        · exact absurd e'.symm e
        · exact hm

theorem sectionOf_none {ss : List (Nat × List Byte)} (code : Nat) : sectionOf code ss = none ↔ code ∉ ss.map (·.1) := by
  unfold sectionOf
  simp only [Option.map_eq_none_iff, List.find?_eq_none, beq_iff_eq, List.mem_map, not_exists, not_and]

theorem optional_eq {α : Type} {held : Bool} {code : Nat} {ss : List (Nat × List Byte)} {read : List Byte → Option α}
    {check : α → Bool} (o : Option α) : optional held code ss read check = some o ↔
      (∀ p, sectionOf code ss = some p → ∃ c, read p = some c ∧ check c = true ∧ o = if held then some c else none) ∧
      (sectionOf code ss = none → o = none) := by
  unfold optional
  cases sectionOf code ss with
  | none => simp; exact eq_comm
  | some p =>
    simp only [Option.some.injEq, forall_eq', reduceCtorEq, false_implies, and_true]
    cases read p with
    | none => simp
    | some c =>
      cases h : check c
      · simp [h]
      · simp only [h, if_true, Option.some.injEq, exists_eq_left', true_and]; exact eq_comm

theorem optionalUnit_eq {held other : Bool} {ss : List (Nat × List Byte)} {i lo hi : Nat} {check : UnitCfg → Bool}
    (o : Option UnitCfg) : optionalUnit held other ss i lo hi check = some o ↔
      (∀ p, sectionOf 0x08 ss = some p → if other && !held then o = none else
        ∃ c, readUnitCfg p i lo hi = some c ∧ check c = true ∧ o = if held then some c else none) ∧
      (sectionOf 0x08 ss = none → o = none) := by
  unfold optionalUnit
  cases sectionOf 0x08 ss with
  | none => simp; exact eq_comm
  | some p =>
    simp only [Option.some.injEq, forall_eq', reduceCtorEq, false_implies, and_true]
    split
    · simp; exact eq_comm
    · cases readUnitCfg p i lo hi with
      | none => simp
      | some c =>
      cases h : check c
      · simp [h]
      · simp only [h, if_true, Option.some.injEq, exists_eq_left', true_and]; exact eq_comm

/-! ## The whole image -/

theorem travel_one {cp : List Byte} {v : Vector ChanCfg 16} (h : readChannels cp = some v) :
    (travelInputs v).length = 1 ↔ ∃ i, IsBound cp .inp .travel i ∧ ∀ j, IsBound cp .inp .travel j → j = i := by
  have mem : ∀ i : Fin 16, i ∈ travelInputs v ↔ IsBound cp .inp .travel i := by
    intro i; simp [travelInputs, bound_eq h (by decide : Role.inp ≠ .off)]
  have nd : (travelInputs v).Nodup := (List.nodup_finRange 16).filter _
  constructor
  · intro hl
    obtain ⟨a, ha⟩ := List.length_eq_one_iff.1 hl
    refine ⟨a, (mem a).1 (by simp [ha]), fun j hj => ?_⟩
    have := (mem ⟨j, hj.1⟩).2 hj
    rw [ha, List.mem_singleton] at this
    exact congrArg Fin.val this
  · rintro ⟨i, hi, hu⟩
    have hm := (mem ⟨i, hi.1⟩).2 hi
    have ha : ∀ x ∈ travelInputs v, x = ⟨i, hi.1⟩ := fun x hx => Fin.ext (hu x ((mem x).1 hx))
    generalize travelInputs v = l at *
    match l with
    | [] => simp at hm
    | [a] => rfl
    | a :: b :: r =>
      have := ha a (by simp); have := ha b (by simp)
      simp_all

theorem travel_head {cp : List Byte} {v : Vector ChanCfg 16} (h : readChannels cp = some v)
    (hl : (travelInputs v).length = 1) :
    ∃ i, (travelInputs v).head? = some i ∧ IsBound cp .inp .travel i := by
  obtain ⟨a, ha⟩ := List.length_eq_one_iff.1 hl
  have : a ∈ travelInputs v := by simp [ha]
  refine ⟨a, by simp [ha], ?_⟩
  simpa [travelInputs, bound_eq h (by decide : Role.inp ≠ .off)] using this

/-- The sections that a duty set requires. -/
theorem sectionsPresent_eq (d : Nat) (codes : List Nat) :
    sectionsPresent (BitVec.ofNat 11 d) codes = true ↔ 0x01 ∈ codes ∧ 0x02 ∈ codes ∧
      ∀ r ∈ requiredSections, d.testBit (dutyBit r.1) = true → r.2 ∈ codes := by
  have e : ∀ o k, (!holdsDuty o (BitVec.ofNat 11 d) || codes.contains k) = true ↔
      (d.testBit (dutyBit o) = true → k ∈ codes) := by
    intro o k
    rw [holdsDuty_ofNat]
    cases d.testBit (dutyBit o) <;> simp
  rw [show sectionsPresent (BitVec.ofNat 11 d) codes = (codes.contains 1 && codes.contains 2 &&
    (!holdsDuty .battery (BitVec.ofNat 11 d) || codes.contains 3) && (!holdsDuty .tanks (BitVec.ofNat 11 d) || codes.contains 4) &&
    (!holdsDuty .pump (BitVec.ofNat 11 d) || codes.contains 5) && (!holdsDuty .frost (BitVec.ofNat 11 d) || codes.contains 6) &&
    (!holdsDuty .heater (BitVec.ofNat 11 d) || codes.contains 7) && (!holdsDuty .awning (BitVec.ofNat 11 d) || codes.contains 8) &&
    (!holdsDuty .step (BitVec.ofNat 11 d) || codes.contains 8) && (!holdsDuty .wind (BitVec.ofNat 11 d) || codes.contains 9) &&
    (!holdsDuty .lights (BitVec.ofNat 11 d) || codes.contains 10)) from rfl]
  simp only [Bool.and_eq_true, e]
  simp only [requiredSections, List.contains_eq_mem, decide_eq_true_eq, List.forall_mem_cons, List.not_mem_nil,
      false_imp_iff, implies_true, and_true, and_assoc]

theorem optional_gives {α : Type} {d : Nat} {o : Duty} {code : Nat} {ss : List (Nat × List Byte)} {read : List Byte → Option α}
    {check : α → Bool} {x : Option α} {gives : α → Prop}
    (hx : optional (holdsDuty o (BitVec.ofNat 11 d)) code ss read check = some x)
    {p : List Byte} (hp : sectionOf code ss = some p) (hg : ∀ c, read p = some c → gives c) :
    GivenBy (holdsDuty o (BitVec.ofNat 11 d)) gives x := by
  obtain ⟨c, hr, -, rfl⟩ := (optional_eq x).1 hx |>.1 p hp
  unfold GivenBy
  cases holdsDuty o (BitVec.ofNat 11 d)
  · simp
  · simpa using hg c hr

/-- The conditions on the sections. -/
structure SectionsFit (d : Nat) (ss : List (Nat × List Byte)) : Prop where
  codes : ∀ s ∈ ss, Ranges 0x01 0x0A s.1
  once : (ss.map (·.1)).Nodup
  required : 0x01 ∈ ss.map (·.1) ∧ 0x02 ∈ ss.map (·.1) ∧
    ∀ r ∈ requiredSections, d.testBit (dutyBit r.1) = true → r.2 ∈ ss.map (·.1)
  general : ∀ p, (0x01, p) ∈ ss → GeneralFits p
  channels : ∀ cp, (0x02, cp) ∈ ss → ChannelsFit d cp ∧
    (d.testBit (dutyBit .travel) = true →
      ∃ i, IsBound cp .inp .travel i ∧ ∀ j, IsBound cp .inp .travel j → j = i) ∧
    ∀ p, ((0x03, p) ∈ ss → BatteryFits cp p) ∧ ((0x04, p) ∈ ss → TanksFit cp p) ∧
      ((0x05, p) ∈ ss → PumpFits cp p) ∧ ((0x06, p) ∈ ss → FrostFits cp p) ∧
      ((0x07, p) ∈ ss → HeaterFits cp p) ∧ ((0x08, p) ∈ ss → MotionFits d cp p) ∧
      ((0x09, p) ∈ ss → WindFits cp p) ∧ ((0x0A, p) ∈ ss → LightsFit cp p)

theorem section_of_mem {ss : List (Nat × List Byte)} {k : Nat} (hk : k ∈ ss.map (·.1)) :
    ∃ p, sectionOf k ss = some p := by
  cases e : sectionOf k ss with
  | some p => exact ⟨p, rfl⟩
  | none => exact absurd hk ((sectionOf_none k).1 e)

theorem channels_fit (d : Nat) (cp : List Byte) : ChannelsFit d cp ↔ cp.length = 100 ∧
    ∃ v ts, readChannels cp = some v ∧ readTempTypes cp = some ts ∧
        v.toList.all (ownerFits (BitVec.ofNat 11 d)) = true ∧
      auxDraws v ≤ 25500 := by
  have all : ∀ v : Vector ChanCfg 16, v.toList.all (ownerFits (BitVec.ofNat 11 d)) = true ↔
      ∀ i : Fin 16, ownerFits (BitVec.ofNat 11 d) v[i] = true := by
    intro v
    rw [List.all_eq_true]
    constructor
    · intro h i; exact h _ (by simp)
    · intro h x hx
      obtain ⟨i, hi, rfl⟩ := List.mem_iff_getElem.1 hx
      simp at hi
      simpa using h ⟨i, hi⟩
  constructor
  · rintro ⟨h1, h2, h3, h4⟩
    have h2' : ∀ i : Fin 16, _ := fun i => (channel_fits d cp i).2 (h2 i i.isLt)
    choose f hf using h2'
    have h3' : ∀ t : Fin 4, ∃ ty, typeNumber ty = byteAt cp (96 + t) := by
      intro t
      have := h3 t t.isLt
      match e : byteAt cp (96 + t) with
      | 0 => exact ⟨.unused, rfl⟩
      | 1 => exact ⟨.ntc, rfl⟩
      | 2 => exact ⟨.high, rfl⟩
      | _ + 3 => omega
    choose g hg using h3'
    have hv : readChannels cp = some (Vector.ofFn f) := (readChannels_eq _ _).2 fun i => by simpa using (hf i).1
    refine ⟨h1, Vector.ofFn f, Vector.ofFn g, hv, (readTempTypes_eq _ _).2 fun t => by simpa using hg t,
      (all _).2 fun i => by simpa using (hf i).2, ?_⟩
    rw [auxDraws_eq hv]; exact h4
  · rintro ⟨h1, v, ts, hv, ht, ha, hd⟩
    refine ⟨h1, fun i hi => (channel_fits d cp i).1 ⟨_, (readChannels_eq _ _).1 hv ⟨i, hi⟩, (all v).1 ha ⟨i, hi⟩⟩,
        fun t h => ?_, ?_⟩
    · rw [← (readTempTypes_eq _ _).1 ht ⟨t, h⟩]
      generalize ts[(⟨t, h⟩ : Fin 4)] = ty
      cases ty <;> simp [typeNumber]
    · rw [← auxDraws_eq hv]; exact hd

theorem optional_exists {α : Type} {held : Bool} {code : Nat} {ss : List (Nat × List Byte)} {read : List Byte → Option α}
    {check : α → Bool} : (∃ o, optional held code ss read check = some o) ↔
      ∀ p, sectionOf code ss = some p → ∃ c, read p = some c ∧ check c = true := by
  simp only [optional_eq]
  constructor
  · rintro ⟨o, h, -⟩ p hp
    obtain ⟨c, h1, h2, -⟩ := h p hp
    exact ⟨c, h1, h2⟩
  · intro h
    cases e : sectionOf code ss with
    | none => exact ⟨none, by simp⟩
    | some p =>
      obtain ⟨c, h1, h2⟩ := h p e
      exact ⟨_, by rintro q hq; cases hq; exact ⟨c, h1, h2, rfl⟩, by simp⟩

theorem optionalUnit_exists {held other : Bool} {ss : List (Nat × List Byte)} {i lo hi : Nat} {check : UnitCfg → Bool} :
    (∃ o, optionalUnit held other ss i lo hi check = some o) ↔
      ∀ p, sectionOf 0x08 ss = some p → (held = true ∨ other = false) → ∃ c, readUnitCfg p i lo hi = some c ∧
          check c = true := by
  simp only [optionalUnit_eq]
  constructor
  · rintro ⟨o, h, -⟩ p hp hh
    have := h p hp
    rw [if_neg (by rcases hh with hh | hh <;> simp [hh])] at this
    obtain ⟨c, h1, h2, -⟩ := this
    exact ⟨c, h1, h2⟩
  · intro h
    cases e : sectionOf 0x08 ss with
    | none => exact ⟨none, by simp⟩
    | some p =>
      by_cases hh : (other && !held) = true
      · exact ⟨none, by simp [hh]⟩
      · obtain ⟨c, h1, h2⟩ := h p e (by cases held <;> cases other <;> simp_all)
        exact ⟨_, by rintro q hq; cases hq; rw [if_neg hh]; exact ⟨c, h1, h2, rfl⟩, by simp⟩

theorem readSections_some (ident d : Nat) (ss : List (Nat × List Byte)) (c : Image) :
    readSections ident (BitVec.ofNat 11 d) ss = some c ↔
      ((∀ s ∈ ss, Ranges 0x01 0x0A s.1) ∧ (ss.map (·.1)).Nodup ∧
          sectionsPresent (BitVec.ofNat 11 d) (ss.map (·.1)) = true) ∧
      ∃ g v ts, readGeneral ((sectionOf 0x01 ss).getD []) = some g ∧ ((sectionOf 0x02 ss).getD []).length = 100 ∧
        readChannels ((sectionOf 0x02 ss).getD []) = some v ∧ readTempTypes ((sectionOf 0x02 ss).getD []) = some ts ∧
        v.toList.all (ownerFits (BitVec.ofNat 11 d)) = true ∧ auxDraws v ≤ 25500 ∧
        ∃ battery, optional (holdsDuty .battery (BitVec.ofNat 11 d)) 0x03 ss readBattery (checkBattery v ts) = some battery ∧
        ∃ tanks, optional (holdsDuty .tanks (BitVec.ofNat 11 d)) 0x04 ss readTanksCfg (·.all (checkTank v)) = some tanks ∧
        ∃ pump, optional (holdsDuty .pump (BitVec.ofNat 11 d)) 0x05 ss readPump (checkPump v) = some pump ∧
        ∃ frost, optional (holdsDuty .frost (BitVec.ofNat 11 d)) 0x06 ss readFrost (checkFrost v ts) = some frost ∧
        ∃ heater, optional (holdsDuty .heater (BitVec.ofNat 11 d)) 0x07 ss readHeater (checkHeater v ts) = some heater ∧
        ((sectionOf 0x08 ss).map (·.length)).getD 18 = 18 ∧
        ∃ awning, optionalUnit (holdsDuty .awning (BitVec.ofNat 11 d)) (holdsDuty .step (BitVec.ofNat 11 d)) ss 0 5 120 (checkUnit v .awning) = some awning ∧
        ∃ step, optionalUnit (holdsDuty .step (BitVec.ofNat 11 d)) (holdsDuty .awning (BitVec.ofNat 11 d)) ss 9 1 30 (checkUnit v .step) = some step ∧
        ∃ wind, optional (holdsDuty .wind (BitVec.ofNat 11 d)) 0x09 ss readWind (checkWind v) = some wind ∧
        ∃ lights, optional (holdsDuty .lights (BitVec.ofNat 11 d)) 0x0A ss readLightsCfg (checkLights v) = some lights ∧
        (holdsDuty .travel (BitVec.ofNat 11 d) = true → (travelInputs v).length = 1) ∧
        c = {
          ident, duties := BitVec.ofNat 11 d, orphan := g.1, map := g.2, chans := v, temps := ts, battery, tanks, pump
          frost, heater, awning, step, wind, lights
          travel := if holdsDuty .travel (BitVec.ofNat 11 d) then (travelInputs v).head? else none
          aux := holdsDuty .aux (BitVec.ofNat 11 d) } := by
  generalize hb : BitVec.ofNat 11 d = b
  have all : (ss.map (·.1)).all (within 0x01 0x0A) = true ↔ ∀ s ∈ ss, Ranges 0x01 0x0A s.1 := by
    simp [List.all_eq_true]
  have tr : ∀ v, (!holdsDuty .travel b || (travelInputs v).length == 1) = true ↔
      (holdsDuty .travel b = true → (travelInputs v).length = 1) := by
    intro v; cases holdsDuty .travel b <;> simp
  constructor
  · intro h
    obtain ⟨_, h0, h⟩ := Option.bind_eq_some_iff.1 h
    obtain ⟨g, hg, h⟩ := Option.bind_eq_some_iff.1 h
    obtain ⟨_, h1, h⟩ := Option.bind_eq_some_iff.1 h
    obtain ⟨v, hv, h⟩ := Option.bind_eq_some_iff.1 h
    obtain ⟨ts, ht, h⟩ := Option.bind_eq_some_iff.1 h
    obtain ⟨_, h2, h⟩ := Option.bind_eq_some_iff.1 h
    obtain ⟨b1, k1, h⟩ := Option.bind_eq_some_iff.1 h
    obtain ⟨b2, k2, h⟩ := Option.bind_eq_some_iff.1 h
    obtain ⟨b3, k3, h⟩ := Option.bind_eq_some_iff.1 h
    obtain ⟨b4, k4, h⟩ := Option.bind_eq_some_iff.1 h
    obtain ⟨b5, k5, h⟩ := Option.bind_eq_some_iff.1 h
    obtain ⟨_, h3, h⟩ := Option.bind_eq_some_iff.1 h
    obtain ⟨b6, k6, h⟩ := Option.bind_eq_some_iff.1 h
    obtain ⟨b7, k7, h⟩ := Option.bind_eq_some_iff.1 h
    obtain ⟨b8, k8, h⟩ := Option.bind_eq_some_iff.1 h
    obtain ⟨b9, k9, h⟩ := Option.bind_eq_some_iff.1 h
    obtain ⟨_, h4, h⟩ := Option.bind_eq_some_iff.1 h
    rw [must_some] at h0 h1 h2 h3 h4
    simp only [Bool.and_eq_true, decide_eq_true_eq, beq_iff_eq] at h1 h2 h3
    rw [Bool.and_eq_true, Bool.and_eq_true, all, distinct_eq] at h0
    exact ⟨⟨h0.1.1, h0.1.2, h0.2⟩, g, v, ts, hg, h1, hv, ht, h2.1, h2.2, b1, k1, b2, k2, b3, k3, b4, k4, b5, k5, h3,
        b6, k6, b7, k7, b8, k8, b9, k9,
      (tr v).1 h4, (Option.some.inj h).symm⟩
  · rintro ⟨⟨h0, h0', h0''⟩, g, v, ts, hg, h1, hv, ht, h2, h2', b1, k1, b2, k2, b3, k3, b4, k4, b5, k5, h3, b6, k6,
      b7, k7, b8, k8, b9, k9, h4, rfl⟩
    refine Option.bind_eq_some_iff.2 ⟨(), ?_, ?_⟩
    · rw [must_some, Bool.and_eq_true, Bool.and_eq_true, all, distinct_eq]; exact ⟨⟨h0, h0'⟩, h0''⟩
    refine Option.bind_eq_some_iff.2 ⟨g, hg, ?_⟩
    refine Option.bind_eq_some_iff.2 ⟨(), by rw [must_some, beq_iff_eq]; exact h1, ?_⟩
    refine Option.bind_eq_some_iff.2 ⟨v, hv, ?_⟩
    refine Option.bind_eq_some_iff.2 ⟨ts, ht, ?_⟩
    refine Option.bind_eq_some_iff.2 ⟨(), by rw [must_some, Bool.and_eq_true, decide_eq_true_eq]; exact ⟨h2, h2'⟩, ?_⟩
    refine Option.bind_eq_some_iff.2 ⟨b1, k1, ?_⟩
    refine Option.bind_eq_some_iff.2 ⟨b2, k2, ?_⟩
    refine Option.bind_eq_some_iff.2 ⟨b3, k3, ?_⟩
    refine Option.bind_eq_some_iff.2 ⟨b4, k4, ?_⟩
    refine Option.bind_eq_some_iff.2 ⟨b5, k5, ?_⟩
    refine Option.bind_eq_some_iff.2 ⟨(), by rw [must_some, beq_iff_eq]; exact h3, ?_⟩
    refine Option.bind_eq_some_iff.2 ⟨b6, k6, ?_⟩
    refine Option.bind_eq_some_iff.2 ⟨b7, k7, ?_⟩
    refine Option.bind_eq_some_iff.2 ⟨b8, k8, ?_⟩
    refine Option.bind_eq_some_iff.2 ⟨b9, k9, ?_⟩
    exact Option.bind_eq_some_iff.2 ⟨(), by rw [must_some]; exact (tr v).2 h4, rfl⟩

theorem readSections_fit (ident d : Nat) (ss : List (Nat × List Byte)) :
    (∃ c, readSections ident (BitVec.ofNat 11 d) ss = some c) ↔ SectionsFit d ss := by
  simp only [readSections_some]
  constructor
  · rintro ⟨c, ⟨h0, hn, hp⟩, g, v, ts, hg, h1, hv, ht, h2, h2', b1, k1, b2, k2, b3, k3, b4, k4, b5, k5, h3, b6, k6,
      b7, k7, b8, k8, b9, k9, h4, -⟩
    have hs : ∀ k p, (k, p) ∈ ss → sectionOf k ss = some p := fun k p => (sectionOf_eq hn k p).2
    refine ⟨h0, hn, (sectionsPresent_eq d _).1 hp, fun p hp => ?_, fun cp hcp => ?_⟩
    · rw [hs _ _ hp] at hg; exact ((readGeneral_eq p g.1 g.2).1 hg).1
    · rw [hs _ _ hcp] at h1 hv ht
      simp only [Option.getD_some] at h1 hv ht
      refine ⟨(channels_fit d cp).2 ⟨h1, v, ts, hv, ht, h2, h2'⟩,
          fun e => (travel_one hv).1 (h4 (by rw [holdsDuty_ofNat]; exact e)), fun p =>
        ⟨fun m => (battery_fits hv ht p).1 (optional_exists.1 ⟨_, k1⟩ p (hs _ _ m)),
            fun m => (tanks_fit hv p).1 (optional_exists.1 ⟨_, k2⟩ p (hs _ _ m)),
         fun m => (pump_fits hv p).1 (optional_exists.1 ⟨_, k3⟩ p (hs _ _ m)),
             fun m => (frost_fits hv ht p).1 (optional_exists.1 ⟨_, k4⟩ p (hs _ _ m)),
         fun m => (heater_fits hv ht p).1 (optional_exists.1 ⟨_, k5⟩ p (hs _ _ m)), fun m => ⟨?_, fun e => ?_,
             fun e => ?_⟩,
         fun m => (wind_fits hv p).1 (optional_exists.1 ⟨_, k8⟩ p (hs _ _ m)),
             fun m => (lights_fit hv p).1 (optional_exists.1 ⟨_, k9⟩ p (hs _ _ m))⟩⟩
      · rw [hs _ _ m] at h3; exact h3
      · exact (unit_fits hv .awning 5 120 p 0).1 (optionalUnit_exists.1 ⟨_,
          k6⟩ p (hs _ _ m) (by simpa only [holdsDuty_ofNat] using e))
      · exact (unit_fits hv .step 1 30 p 9).1 (optionalUnit_exists.1 ⟨_,
          k7⟩ p (hs _ _ m) (by simpa only [holdsDuty_ofNat] using e))
  · rintro ⟨h0, hn, hp, hg, hc⟩
    have hs : ∀ k p, sectionOf k ss = some p → (k, p) ∈ ss := fun k p => (sectionOf_eq hn k p).1
    obtain ⟨gp, eg⟩ := section_of_mem hp.1
    obtain ⟨cp, ec⟩ := section_of_mem hp.2.1
    obtain ⟨hcf, htr, hx⟩ := hc cp (hs _ _ ec)
    obtain ⟨h1, v, ts, hv, ht, h2, h2'⟩ := (channels_fit d cp).1 hcf
    have hg' : readGeneral gp = some (longAt gp 0, (gp.drop 5).map BitVec.toNat) :=
        (readGeneral_eq _ _ _).2 ⟨hg gp (hs _ _ eg), rfl, rfl⟩
    obtain ⟨b1, k1⟩ := optional_exists (held :=
        holdsDuty .battery (BitVec.ofNat 11 d)) |>.2 fun p m => (battery_fits hv ht p).2 ((hx p).1 (hs _ _ m))
    obtain ⟨b2, k2⟩ := optional_exists (held :=
        holdsDuty .tanks (BitVec.ofNat 11 d)) |>.2 fun p m => (tanks_fit hv p).2 ((hx p).2.1 (hs _ _ m))
    obtain ⟨b3, k3⟩ := optional_exists (held :=
        holdsDuty .pump (BitVec.ofNat 11 d)) |>.2 fun p m => (pump_fits hv p).2 ((hx p).2.2.1 (hs _ _ m))
    obtain ⟨b4, k4⟩ := optional_exists (held :=
        holdsDuty .frost (BitVec.ofNat 11 d)) |>.2 fun p m => (frost_fits hv ht p).2 ((hx p).2.2.2.1 (hs _ _ m))
    obtain ⟨b5, k5⟩ := optional_exists (held :=
        holdsDuty .heater (BitVec.ofNat 11 d)) |>.2 fun p m => (heater_fits hv ht p).2 ((hx p).2.2.2.2.1 (hs _ _ m))
    have hm : ∀ p, sectionOf 0x08 ss = some p → MotionFits d cp p := fun p m => (hx p).2.2.2.2.2.1 (hs _ _ m)
    obtain ⟨b6, k6⟩ := optionalUnit_exists (held := holdsDuty .awning (BitVec.ofNat 11 d)) (other :=
        holdsDuty .step (BitVec.ofNat 11 d)) |>.2 fun p m e =>
      (unit_fits hv .awning 5 120 p 0).2 ((hm p m).2.1 (by simpa only [holdsDuty_ofNat] using e))
    obtain ⟨b7, k7⟩ := optionalUnit_exists (held := holdsDuty .step (BitVec.ofNat 11 d)) (other :=
        holdsDuty .awning (BitVec.ofNat 11 d)) |>.2 fun p m e =>
      (unit_fits hv .step 1 30 p 9).2 ((hm p m).2.2 (by simpa only [holdsDuty_ofNat] using e))
    obtain ⟨b8, k8⟩ := optional_exists (held :=
        holdsDuty .wind (BitVec.ofNat 11 d)) |>.2 fun p m => (wind_fits hv p).2 ((hx p).2.2.2.2.2.2.1 (hs _ _ m))
    obtain ⟨b9, k9⟩ := optional_exists (held :=
        holdsDuty .lights (BitVec.ofNat 11 d)) |>.2 fun p m => (lights_fit hv p).2 ((hx p).2.2.2.2.2.2.2 (hs _ _ m))
    refine ⟨_, ⟨h0, hn, (sectionsPresent_eq d _).2 hp⟩, _, v, ts, by rw [eg]; exact hg', by rw [ec]; exact h1,
        by rw [ec]; exact hv, by rw [ec]; exact ht, h2, h2',
      b1, k1, b2, k2, b3, k3, b4, k4, b5, k5, ?_, b6, k6, b7, k7, b8, k8, b9, k9,
          fun e => (travel_one hv).2 (htr (by rw [← holdsDuty_ofNat]; exact e)), rfl⟩
    cases e : sectionOf 0x08 ss with
    | none => rfl
    | some p => exact (hm p e).1

theorem optionalUnit_gives {d : Nat} {o o' : Duty} {ss : List (Nat × List Byte)} {i lo hi : Nat}
    {check : UnitCfg → Bool} {x : Option UnitCfg}
    (hx : optionalUnit (holdsDuty o (BitVec.ofNat 11 d)) (holdsDuty o' (BitVec.ofNat 11 d)) ss i lo hi check = some x)
    {p : List Byte} (hp : sectionOf 0x08 ss = some p) :
    GivenBy (holdsDuty o (BitVec.ofNat 11 d)) (UnitGives p i) x := by
  have := (optionalUnit_eq x).1 hx |>.1 p hp
  unfold GivenBy
  cases e : holdsDuty o (BitVec.ofNat 11 d)
  · rw [e] at this
    split at this
    · simpa using this
    · obtain ⟨c, -, -, rfl⟩ := this; simp
  · rw [e, if_neg (by simp)] at this
    obtain ⟨c, hr, -, rfl⟩ := this
    simpa using ((readUnitCfg_eq p i lo hi c).1 hr).2.2.2

/-- The reader takes an image exactly when its bytes hold a valid one (R204). -/
theorem image_iff (bytes : List Byte) : (∃ c, readImage bytes = some c) ↔ ∃ ss, ImageFits bytes ss := by
  have hlen : 11 ≤ wordAt bytes 1 → wordAt bytes 1 ≤ bytes.length → ((bytes.take (wordAt bytes 1 - 2)).drop 7).length < wordAt bytes 1 := by
    intro h1 h2; simp; omega
  unfold readImage
  simp only [Option.bind_eq_bind, Option.bind_eq_some_iff, must_some, exists_const, Bool.and_eq_true,
      decide_eq_true_eq, beq_iff_eq, within_eq]
  constructor
  · rintro ⟨c, ⟨⟨⟨h1, h2⟩, h3⟩, h4⟩, h5, ss, h6, h7⟩
    obtain ⟨h6, h8⟩ := (splitSections_eq _ _ _ (hlen h3.1 h4)).1 h6
    obtain ⟨a, b, e, f, g⟩ := (readSections_fit _ _ _).1 ⟨c, h7⟩
    exact ⟨ss, h2, ⟨h3, h4⟩, h5, h6, fun s hs => ⟨a s hs, (h8 s hs).2⟩, b, e, f, g⟩
  · rintro ⟨ss, h2, ⟨h3, h4⟩, h5, h6, h8, b, e, f, g⟩
    obtain ⟨c, hc⟩ := (readSections_fit (wordAt bytes 3) (wordAt bytes 5) ss).2 ⟨fun s hs => (h8 s hs).1, b, e, f, g⟩
    exact ⟨c, ⟨⟨⟨by have := h3.1; omega, h2⟩, h3⟩, h4⟩, h5, ss, (splitSections_eq _ _ _ (hlen h3.1 h4)).2 ⟨h6,
        fun s hs => ⟨by have := (h8 s hs).1.2; omega, (h8 s hs).2⟩⟩, hc⟩

theorem optional_none {α : Type} {code : Nat} {ss : List (Nat × List Byte)} {read : List Byte → Option α} {check : α → Bool}
    {x : Option α} (hx : optional false code ss read check = some x) : x = none := by
  have h := (optional_eq x).1 hx
  cases e : sectionOf code ss with
  | none => exact h.2 e
  | some p => obtain ⟨c, -, -, rfl⟩ := h.1 p e; rfl

theorem optionalUnit_none {other : Bool} {ss : List (Nat × List Byte)} {i lo hi : Nat} {check : UnitCfg → Bool}
    {x : Option UnitCfg} (hx : optionalUnit false other ss i lo hi check = some x) : x = none := by
  have h := (optionalUnit_eq x).1 hx
  cases e : sectionOf 0x08 ss with
  | none => exact h.2 e
  | some p =>
    have h := h.1 p e
    split at h
    · exact h
    · obtain ⟨c, -, -, rfl⟩ := h; rfl

/-- What a valid image gives is what the reader answers (R204, section 12.4). -/
theorem image_gives (bytes : List Byte) (ss : List (Nat × List Byte)) (c : Image) (hc : readImage bytes = some c) (hf : ImageFits bytes ss) :
    ImageGives bytes ss c := by
  have hlen : 11 ≤ wordAt bytes 1 → wordAt bytes 1 ≤ bytes.length → ((bytes.take (wordAt bytes 1 - 2)).drop 7).length < wordAt bytes 1 := by
    intro h1 h2; simp; omega
  unfold readImage at hc
  simp only [Option.bind_eq_bind, Option.bind_eq_some_iff, must_some, exists_const, Bool.and_eq_true,
      decide_eq_true_eq, beq_iff_eq, within_eq] at hc
  obtain ⟨⟨⟨⟨h1, h2⟩, h3⟩, h4⟩, h5, ss', h6, h7⟩ := hc
  have := (splitSections_eq _ _ ss (hlen h3.1 h4)).2 ⟨hf.fill, fun s hs => ⟨by have := (hf.codes s hs).1.2; omega,
      (hf.codes s hs).2⟩⟩
  rw [this] at h6; cases h6
  obtain ⟨⟨h0, hn, hp⟩, g, v, ts, hg, h1, hv, ht, h2, h2', b1, k1, b2, k2, b3, k3, b4, k4, b5, k5, h3, b6, k6, b7,
      k7, b8, k8, b9, k9, h4, rfl⟩ := (readSections_some _ _ _ _).1 h7
  have hs : ∀ k p, (k, p) ∈ ss → sectionOf k ss = some p := fun k p => (sectionOf_eq hn k p).2
  have all : ∀ i : Fin 16, ownerFits (BitVec.ofNat 11 (wordAt bytes 5)) v[i] = true := by
    intro i; exact (List.all_eq_true.1 h2) _ (by simp)
  refine ⟨⟨rfl, rfl⟩, fun p hp => ?_, fun cp hcp => ?_, fun p => ⟨fun m => ?_, fun m => ?_, fun m => ?_,
      fun m => ?_, fun m => ?_, fun m => ⟨?_, ?_⟩, fun m => ?_, fun m => ?_⟩,
    ⟨fun e => ?_, fun e => ?_, fun e => ?_, fun e => ?_, fun e => ?_, fun e => ?_, fun e => ?_, fun e => ?_,
        fun e => ?_⟩, rfl⟩
  · rw [hs _ _ hp] at hg; exact ((readGeneral_eq p g.1 g.2).1 hg).2
  · rw [hs _ _ hcp] at h1 hv ht
    simp only [Option.getD_some] at h1 hv ht
    refine ⟨fun i => channel_gives ((readChannels_eq _ _).1 hv i) (all i), (readTempTypes_eq _ _).1 ht, ?_⟩
    show GivenBy (holdsDuty .travel (BitVec.ofNat 11 (wordAt bytes 5))) _ (if _ then _ else _)
    unfold GivenBy
    cases e : holdsDuty .travel (BitVec.ofNat 11 (wordAt bytes 5))
    · simp
    · obtain ⟨i, hi, hb⟩ := travel_head hv (h4 e)
      simp [hi, hb]
  · exact optional_gives k1 (hs _ _ m) fun c e => ((readBattery_eq _ _).1 e).2.2.2.2.2.2.2.2.2.2
  · exact optional_gives k2 (hs _ _ m) fun c e => by
      obtain ⟨-, -, a, b⟩ := (readTanksCfg_eq _ _).1 e
      exact ⟨a, fun k t ht => ((readTankCfg_eq _ _).1 (b k t ht)).2.2.2.2⟩
  · exact optional_gives k3 (hs _ _ m) fun c e => ((readPump_eq _ _).1 e).2.2.2.2.2.2
  · exact optional_gives k4 (hs _ _ m) fun c e => ((readFrost_eq _ _).1 e).2.2.2
  · exact optional_gives k5 (hs _ _ m) fun c e => ((readHeater_eq _ _).1 e).2.2.2.2.2.2.2.2
  · exact optionalUnit_gives k6 (hs _ _ m)
  · exact optionalUnit_gives k7 (hs _ _ m)
  · exact optional_gives k9 (hs _ _ m) fun c e => ((readLightsCfg_eq _ _).1 e).2.2.2.2
  · exact optional_gives k8 (hs _ _ m) fun c e => ((readWind_eq _ _).1 e).2.2.2
  · rw [show holdsDuty .battery (BitVec.ofNat 11 (wordAt bytes 5)) = false from e] at k1
    exact optional_none k1
  · rw [show holdsDuty .tanks (BitVec.ofNat 11 (wordAt bytes 5)) = false from e] at k2
    exact optional_none k2
  · rw [show holdsDuty .pump (BitVec.ofNat 11 (wordAt bytes 5)) = false from e] at k3
    exact optional_none k3
  · rw [show holdsDuty .frost (BitVec.ofNat 11 (wordAt bytes 5)) = false from e] at k4
    exact optional_none k4
  · rw [show holdsDuty .heater (BitVec.ofNat 11 (wordAt bytes 5)) = false from e] at k5
    exact optional_none k5
  · rw [show holdsDuty .awning (BitVec.ofNat 11 (wordAt bytes 5)) = false from e] at k6
    exact optionalUnit_none k6
  · rw [show holdsDuty .step (BitVec.ofNat 11 (wordAt bytes 5)) = false from e] at k7
    exact optionalUnit_none k7
  · rw [show holdsDuty .lights (BitVec.ofNat 11 (wordAt bytes 5)) = false from e] at k9
    exact optional_none k9
  · rw [show holdsDuty .wind (BitVec.ofNat 11 (wordAt bytes 5)) = false from e] at k8
    exact optional_none k8

end Sys2Proof.Machine
end

