-- ==== Sys2Proof/WellFormed.lean ====
section
/-! DEFINITION. Which commands can come from a part that keeps the manual's own limits: what a frame, a character, the
converters and the configuration memory can give. Execution is defined on every command; these checks say which
operands the manual's units can produce. -/

namespace Sys2Proof

/-- A frame has 5 to 33 characters (R184). -/
def wfFrame (bytes : List Byte) : Bool := 5 ≤ bytes.length && bytes.length ≤ 33

/-- A character's place in its frame (R184). -/
def wfIndex (index : Nat) : Bool := index < 33

/-- The configuration memory is read for at most 1 024 bytes and the header (R204). -/
def wfMemory (bytes : List Byte) : Bool := bytes.length ≤ 1031

/-- The converters' results are 17-bit counts at most (R3, R4: results beyond the limits exist and are clamped). -/
def wfSample (shunt : Int) (volt : Nat) : Bool := shunt.natAbs ≤ 65536 && volt ≤ 65535

/-- A station of a peer entry (R36). -/
def wfStation (station : Nat) : Bool := 1 ≤ station && station ≤ 14

/-- A command is well formed when its operands lie within what the manual's units give. -/
def Instr.wellFormed : Instr → Bool
  | .startDecision _ eeprom _ => wfMemory eeprom
  | .measurementEvent _ shunt volt => wfSample shunt volt
  | .peerAgeOut _ station => wfStation station
  | .frameCharacterFault _ index _ => wfIndex index
  | .frameComplete _ bytes => wfFrame bytes
  | _ => true

end Sys2Proof
end

