-- ==== Sys2Proof/Tests/Slice0.lean ====
section
/-! SUPPORT. Small checks of the model: ill-formed commands that the checks refuse, worked examples of the spec, one
step of each family, and for each statement a state that meets its hypotheses. -/

namespace Sys2Proof.Tests

set_option Elab.async false

open Sys2Proof Sys2Proof.Machine

/-! ## Ill-formed commands -/

theorem test_wf_frame_too_short : (Instr.frameComplete 0 [0xC3, 1, 0x12, 0]).wellFormed = false := by decide
theorem test_wf_frame_too_long : (Instr.frameComplete 0 (List.replicate 34 0)).wellFormed = false := by decide
theorem test_wf_index : (Instr.frameCharacterFault 0 33 0).wellFormed = false := by decide
theorem test_wf_memory : (Instr.startDecision 0 (List.replicate 1032 0) (.replicate 16 .low)).wellFormed = false := by
  decide +kernel
theorem test_wf_sample : (Instr.measurementEvent 0 65537 0).wellFormed = false := by decide
theorem test_wf_station : (Instr.peerAgeOut 0 15).wellFormed = false := by decide
theorem test_wf_good : (Instr.frameComplete 0 [0xC3, 3, 0x12, 1, 0, 0x46]).wellFormed = true := by decide

/-! ## The states of the tests -/

/-- One node holding every duty, its sixteen channels bound by hand. -/
def pumpSet : PumpCfg := { output := 0, switch := 1, draw := 6000, modeOn := true, maxRun := 600000 }

def frostSet : FrostCfg :=
  { openCoil := 2, closeCoil := 3, contact := 4, temp := some 0, threshold := 40, delay := 600000 }

def heaterSet : HeaterCfg :=
  { glow := 5, fan := 6, fuel := 7, exhaust := 1, cabin := some 2, mode := .heat, setpoint := 200, start := 12000
    levels := [1000, 1500, 2200, 3200], duties := [30, 50, 75, 100], startDuty := 40, ventDuty := 50, vent := 1000
    cooldown := 2000, flameLost := 800 }

def awningSet : UnitCfg := { ext := 8, ret := 9, travel := 30000, jam := 8000, claim := 6000 }
def stepSet : UnitCfg := { ext := 10, ret := 11, travel := 6000, jam := 8000, claim := 6000 }
def windSet : WindCfg := { channel := 12, factor := 24, limit := 100 }

def lampSet : LightCfg :=
  { output := 13, current := 2000, main := true, courtesy := true, fade := 50, switch := some 14
    scenes := [10, 20, 30, 40, 50, 60] }

def lightSet : LightsCfg := { door := none, courtesyLevel := 30, cap := 60, channels := [lampSet] }

def tankSets : List TankCfg :=
  [{ kind := .fresh, method := .sender 14 [(10, 1000), (180, 0)], full := 900 },
   { kind := .grey, method := .ladder [1, 4, 8] 15, full := 900 }]

def batterySet : BatteryCfg :=
  { capacityAh := 200, shunt := 100, eta := 95, startSoc := 500, restCurrent := 500, restMinutes := 60
    fullVoltage := 14200, tailCurrent := 4000, economy := 400, reserve := 150, cutoffVoltage := 10800
    recoveryMargin := 1200, aNorm := 60000, aEcon := 30000, aRes := 10000, aHook := 90000, td1 := 0, td2 := -200
    temp := none, charge := none, table := [(11800, 0), (12700, 1000)] }

def role (r : Role) (d : Duty) : ChanCfg := { role := r, owner := some d }

def demo : Image :=
  { ident := 7, duties := 0x7FF, orphan := 3000, map := [23, 0, 4]
    chans := #v[role .out .pump, role .inp .pump, role .out .frost, role .out .frost, role .inp .frost,
      role .out .heater, role .out .heater, role .out .heater, role .inp .awning, role .inp .awning,
      role .inp .step, role .inp .step, role .pulse .wind, role .out .lights, role .inp .lights, role .inp .travel]
    temps := #v[.ntc, .high, .ntc, .unused]
    battery := some batterySet, tanks := some tankSets, pump := some pumpSet, frost := some frostSet
    heater := some heaterSet, awning := some awningSet, step := some stepSet, wind := some windSet
    lights := some lightSet, travel := some 15, aux := true }

/-- The demo image with other roles on two channels. -/
def demoOut (d : Option Duty) : Image :=
  { demo with chans := (demo.chans.set 13 { role := .out, owner := d }).set 14 { role := .ain, owner := some .tanks } }

/-- An ACTIVE node, station 3, ten million milliseconds after its start. -/
def up : Node :=
  { held := false, now := 10000000, checked := true, station := some 3, state := some .active, cfg := some demo
    lights := { channels := [{}] }, tanks := { records := [{}, {}] }
    bank := { chans := Vector.replicate 16 { accepted := some false } } }

def st (n : Node) : State := { node := n }

/-- The node a command leaves. -/
def after (c : Instr) (s : State) : Node :=
  match exec c s with
  | .next t => t.node
  | _ => State.reset.node

/-- A state whose arrival list holds a frame of station 5, just received. -/
def hearing (n : Node) (f : Frame) : State :=
  { node := n, rx := { arrival := [{ stamp := n.now, source := 5, frame := f }] } }

/-- A COMMAND to station 3, tag 9. -/
def order (code : Nat) (args : List Byte) : CommandBody := { target := 3, tag := 9, code := code, args := args }

def told (n : Node) (code : Nat) (args : List Byte) : State := hearing n (.command (order code args))

/-- The frame that heads such an arrival list. -/
def heard (n : Node) (b : CommandBody) : RxFrame := { stamp := n.now, source := 5, frame := .command b }

theorem admitted_of (s : State) (dt : Nat) (x : RxFrame) (rest : List RxFrame)
    (h : (s.found dt).up = true ∧ s.rx.arrival = x :: rest ∧ 1 ≤ x.source ∧ x.source ≤ 14 ∧
      (s.found dt).station ≠ some x.source ∧ (s.found dt).now ≤ x.stamp + peerAge ∧
      (s.found dt).view.peers.length < peerLimit) : Admitted s dt x rest :=
  ⟨h.1, h.2.1, h.2.2.1, h.2.2.2.1, h.2.2.2.2.1, h.2.2.2.2.2.1, .inr h.2.2.2.2.2.2⟩

theorem heard_of (s : State) (dt code : Nat) (x : RxFrame) (rest : List RxFrame) (b : CommandBody)
    (a : Admitted s dt x rest) (h : x.frame = .command b ∧ b.code = code ∧
      (s.found dt).station = some b.target ∧ (s.found dt).station ≠ some 0) : Heard s dt code x rest b :=
  { a with frame := h.1, code := h.2.1, target := .inl h.2.2.1, station := h.2.2.2 }

/-- What a node needs to hear a frame of station 5 received now. -/
abbrev hears (n : Node) : Prop :=
  let m := (st n).found 0
  m.up = true ∧ m.station = some 3 ∧ m.now = n.now ∧ m.view.peers.length < peerLimit

theorem hearing_admitted (n : Node) (f : Frame) (h : hears n) :
    Admitted (hearing n f) 0 { stamp := n.now, source := 5, frame := f } [] :=
  admitted_of _ _ _ _ ⟨h.1, rfl, by show 1 ≤ 5; decide, by show 5 ≤ 14; decide, by
    show ((st n).found 0).station ≠ some 5
    rw [h.2.1]; decide, by
    show ((st n).found 0).now ≤ n.now + peerAge
    rw [h.2.2.1]; exact Nat.le_add_right _ _, h.2.2.2⟩

/-- A COMMAND of any code and arguments is heard by such a node. -/
theorem told_heard (n : Node) (code : Nat) (args : List Byte) (h : hears n) :
    Heard (told n code args) 0 code (heard n (order code args)) [] (order code args) :=
  heard_of _ _ _ _ _ _ (hearing_admitted n _ h) ⟨rfl, rfl, h.2.1, by
    show ((st n).found 0).station ≠ some 0
    rw [h.2.1]; decide⟩

/-- The node that executes the COMMAND. -/
def executes (n : Node) (code : Nat) (args : List Byte) : Node :=
  (told n code args).admitted 0 (heard n (order code args))

theorem witness_hears : hears up := by decide

/-! ## The block, reset and start -/

theorem witness_queue : (State.reset.withPending [.powerOnReset 0]).pending = [.powerOnReset 0] := by decide

theorem witness_invariants :
    let s := State.reset.withPending [.start 0 true 3]
    s.sound = true ∧ s.node.shedLaw = true ∧ completes s = true ∧ (st up).sound = true ∧ up.shedLaw = true := by
  decide

/-- A sound state with a unit under way, a bridge that waits out its dwell, a queue in attempt and peers. -/
def busyState : State :=
  { rx := { phase := .filling, arrival := List.replicate 7 ⟨10000000, 5, .lights []⟩ }
    node := { up with
      tx := { queue := [⟨4, .draw [], 2⟩, ⟨5, .draw [], 0⟩], attempt := .sending, nextId := 6 }
      view := { peers := [{ station := 5, heard := 10000000 }, { station := 14, heard := 10000000, wind := true }]
                wind := true }
      motion := { awning := { state := .reversing }, list := [⟨.awning, .retract, .wind, .active⟩,
        ⟨.awning, .retract, .command 5 9, .queued⟩, ⟨.step, .extend, .command 5 8, .waitingEnergy⟩] }
      bank := { up.bank with
        bridgeA := { state := .coast, last := some .extend, coastSince := some 9999600, pending := some .retract }
        bridgeB := { state := .forward, last := some .extend, coastSince := none, due := some 10000004 } } } }

theorem witness_sound : busyState.sound = true ∧ (queuedPart busyState.node.tx).length = 1 ∧
    ({ busyState with node := { busyState.node with motion := { list := [⟨.awning, .extend, .command 5 9, .queued⟩] } } }
      : State).sound = false := by decide

/-- A drive against the last direction begins at the five hundredth millisecond in COAST, and not before (R179). -/
theorem test_dwell_of_a_step :
    ((after (.bridgeDwellComplete 100 .awning) busyState).bridge .awning).state = .reverse ∧
    ((after (.bridgeDwellComplete 99 .awning) busyState).bridge .awning).state = .coast ∧
    dwellComplete 10000100 (busyState.node.bridge .awning) .retract = true ∧
    dwellComplete 10000099 (busyState.node.bridge .awning) .retract = false := by decide +kernel

theorem witness_end_of_event :
    let n := (st up).found 0
    n.ev.restart = false ∧ n.ev.reset = false ∧ n.cmd.restart = none ∧ { n with cfg := none }.lightsCfg = none := by
  decide

theorem witness_resets : State.reset.node.held = true ∧ up.held = false := by decide

theorem test_brown_out_20 : (after (.brownOut 5 20) (st up)).now = 10000005 := by decide
theorem test_brown_out_21 : (after (.brownOut 5 21) (st up)).cause = 3 ∧ (after (.brownOut 5 21) (st up)).held := by
  decide
theorem test_start_straps : (after (.start 0 true 14) State.reset).station = some 14 ∧
    (after (.start 0 true 15) State.reset).station = none ∧ (after (.start 0 true 0) State.reset).station = none := by
  decide
theorem test_start_halted : (after (.start 0 false 3) State.reset).state = some .halted ∧
    (after (.start 0 false 3) State.reset).faultPin = true := by decide

/-- A node right after a commanded RESTART: its hold has ended, the time base has gone on, the start has not run. -/
def restarted : State := { node := { State.reset.node with cause := 4, held := false } }

theorem witness_restarted :
    restarted.node.held = false ∧ restarted.node.checked = false ∧ restarted.node.state = none ∧
      (after (.start 3 true 5) restarted).now = 3 ∧ (after (.start 3 true 5) restarted).station = some 5 ∧
      (after (.start 3 true 5) restarted).cause = 4 ∧ (after (.resetPin 3) restarted).cause = 2 := by decide

/-- A node in its start, station 3. -/
def starts : State := { node := { held := false, checked := true, station := some 3, now := 100 } }

/-- An image of format 1, ident 7, with the AUX duty alone: GENERAL with an orphan allowance of 3 000 mA and the map
[23], CHANNELS with channel 0 an OUT of AUX (trip 5 000 mA, draw 1 000 mA), no temperature input. -/
def imageBody : List Byte :=
  [1, 119, 0, 7, 0, 0, 4] ++ ([1, 6] ++ [0xB8, 0x0B, 0, 0, 1, 23]) ++
    ([2, 100] ++ [0x51, 0x88, 0x13, 0, 0xE8, 0x03] ++ List.replicate 94 0)

/-- The image with the two bytes that bring its sum to 0xA55A. -/
def imageBytes : List Byte := imageBody ++ word (0xA55A - byteSum imageBody)

theorem witness_start_decision :
    let n := advance 0 starts.node
    n.held = false ∧ n.checked = true ∧ n.state = none ∧ (readImage imageBytes).isSome = true ∧ readImage [] = none := by
  decide +kernel

/-- Bytes that hold a valid image, and bytes that hold none. -/
theorem witness_images : (∃ ss, ImageFits imageBytes ss) ∧ ∀ ss, ¬ ImageFits [] ss := by
  refine ⟨(image_iff imageBytes).1 (Option.isSome_iff_exists.1 (by decide +kernel)), fun ss h => ?_⟩
  obtain ⟨c, hc⟩ := (image_iff []).2 ⟨ss, h⟩
  cases hc

/-- Every class of field at the end of its range: the image of section 12.4 with a SENDER tank, the pump, the wind and
one light, its sum made right. -/
def fullBody : List Byte :=
  let channel (role owner : Nat) : List Byte := [BitVec.ofNat 8 (role + 8 * owner), 0x10, 0x27, 0, 0, 0]
  let content : List (Nat × List Byte) :=
    [(1, [0xA0, 0x86, 1, 0, 12, 0, 1, 2, 3, 4, 5, 6, 7, 8, 9, 10, 23]),
     (2, channel 3 1 ++ channel 1 2 ++ channel 2 2 ++ channel 4 9 ++ channel 1 7 ++ channel 2 8 ++
       List.replicate 60 0 ++ [0, 1, 2, 0]),
     (4, [1, 1, 1, 0xE8, 3] ++ List.replicate 10 0 ++ [0, 2, 0, 0, 0xE8, 3, 0x90, 1, 0, 0] ++ List.replicate 120 0),
     (5, [1, 2, 0x20, 0x4E, 1, 0x84, 3]), (9, [3, 0x88, 0x13, 0x90, 1]),
     (10, [1, 0xFF, 100, 100, 4, 0x10, 0x27, 3, 100, 0xFF, 100, 0, 0, 0, 0, 0] ++ List.replicate 84 0)]
  let sections := content.flatMap fun x => BitVec.ofNat 8 x.1 :: BitVec.ofNat 8 x.2.length :: x.2
  [1] ++ word (sections.length + 9) ++ [7, 0, 0x86, 3] ++ sections

theorem test_full_image :
    (readImage (fullBody ++ word ((2 * 65536 + 0xA55A - byteSum fullBody) % 65536))).map
      (fun c => (c.map.length, c.tanks, c.pump.map (·.maxRun), c.wind.map (·.factor), c.travel)) =
      some (12, some [⟨.grey, .sender 0 [(0, 1000), (400, 0)], 1000⟩], some 900000, some 5000, some 5) := by
  decide +kernel

theorem test_decision_listens :
    let n := after (.startDecision 0 imageBytes (.replicate 16 .low)) starts
    n.state = some .listening ∧ n.view.listen = some 1600 ∧ n.cmd.map = [23] ∧
      (n.cfg.map fun c => (c.ident, c.orphan, c.aux, c.chans[0].draw)) = some (7, 3000, true, 1000) := by decide +kernel
theorem test_decision_enables :
    (after (.startDecision 0 imageBytes (.replicate 16 .low)) starts).tx.since = some 100 := by decide +kernel
theorem test_decision_bad_sum :
    (after (.startDecision 0 (imageBody ++ [0, 0]) (.replicate 16 .low)) starts).state = some .listenOnly := by
  decide +kernel

theorem test_decision_unconfigured :
    ((after (.startDecision 0 [] (.replicate 16 .low)) starts).tx.queue.map (·.frame)) =
      [.presence ⟨1, 0, 1, false, false, true, false, false, false, 0⟩] := by decide +kernel

theorem witness_halted :
    let n : Node := { up with state := some .halted }
    n.state = some .halted ∧ n.held = false ∧ (after (.restart 7) (st n)).now = n.now + 7 := by decide

/-! ## The battery accountant -/

/-- A sample is due at this moment, and a minute has passed since the sync. -/
def sampling : Node := { up with
  battery := { q := 360000000, due := some 10000000, syncAt := some 9940000, minutes := 0 } }

theorem witness_battery :
    let n := (st sampling).found 0
    n.up = true ∧ n.batteryCfg = some batterySet ∧ n.battery.due = some n.now ∧ n.battery.syncAt = some 9940000 ∧
      9940000 + 60000 * (n.battery.minutes + 1) = n.now ∧ n.view.source ≠ some .own ∧
      (sampleBattery batterySet (-1234) 12500 n.now none false n.battery).last.isSome = true := by decide

theorem witness_own_source :
    let n := (st { sampling with view := { source := some .own } }).found 0
    n.view.source = some .own ∧ n.state ≠ some .silent := by decide

/-- A raw result of −1 234 at 100 µΩ is −30 850 mA (R3). -/
theorem test_sample : (after (.measurementEvent 0 (-1234) 12500) (st sampling)).battery.last.map
    (fun r => (r.current, r.voltage, r.soc, r.band)) = some (-30850, 12500, 499, .economy) := by decide +kernel
theorem test_minute : (after (.minutesSinceSyncTick 0) (st sampling)).battery.minutes = 1 := by decide
theorem test_minute_early : (after (.minutesSinceSyncTick 0) (st { sampling with now := 9999999 })).battery.minutes = 0 := by
  decide

theorem witness_charge : ∃ (q1 : Int) (f1 : Nat), f1 ≤ 999 ∧ 1000 * q1 + f1 = 1000 * (5 : Nat) + (200 : Nat) + (-1500 : Int) ∧
    0 ≤ q1 ∧ q1 < 10 ∧ applyCharge 10 (-1500) 5 200 = (3, 700) := ⟨3, 700, by decide⟩
theorem test_charge_empty : applyCharge 10 (-1500) 1 200 = (0, 0) := by decide
theorem test_charge_full : applyCharge 10 5000 7 1 = (10, 0) := by decide

theorem witness_soc : 0 < batterySet.capacityAh ∧ (∀ p ∈ batterySet.table, p.2 ≤ 1000) ∧
    socOf (capacity batterySet) 719999 = 0 ∧ socOf (capacity batterySet) 720000 = 1 ∧
    socOf (capacity batterySet) 720000000 = 1000 := by decide

/-- The 36 000th sample at rest, and the 1 200th on charge at the full voltage, each complete their timer. -/
theorem witness_syncs :
    let c := batterySet
    let b : Battery := { q := 5, restCount := 35999, fullCount := 1199 }
    shuntCurrent 20 c.shunt = 500 ∧ (500 : Int).natAbs ≤ c.restCurrent ∧ c.restMinutes * 600 ≤ b.restCount + 1 ∧
      1200 ≤ b.fullCount + 1 ∧ (sampleBattery c 20 12250 7 none false b).q = 360000000 ∧
      (sampleBattery c 20 14200 7 none true b).q = 720000000 ∧ (sampleBattery c 21 12250 7 none false b).restCount = 0 := by
  decide +kernel

theorem witness_table :
    let t := batterySet.table
    2 ≤ t.length ∧ t.length ≤ 8 ∧ t.Pairwise (fun p q => p.1 < q.1 ∧ p.2 < q.2) ∧ mapTable 11799 t = 0 ∧
      mapTable 11801 t = 1 ∧ mapTable 12699 t = 998 ∧ mapTable 12700 t = 1000 := by decide

/-- The hundredth sample below the cutoff voltage, and the three hundredth above the recovery voltage. -/
theorem witness_band :
    let c := batterySet
    let at_ (b : Battery) (v : Nat) (charge : Bool) := (sampleBattery c 0 v 7 none charge b).last.map (·.band)
    at_ { q := 360000000, cutoffRun := 99, synced := true, band := .normal } 10799 false = some .cutoff ∧
      at_ { q := 360000000, cutoffRun := 98, synced := true, band := .normal } 10799 false = some .normal ∧
      at_ { q := 360000000, recoveryRun := 299, synced := true, band := .cutoff } 12000 false = some .normal ∧
      at_ { q := 360000000, recoveryRun := 298, band := .cutoff } 12000 false = some .cutoff ∧
      at_ { q := 287999999, synced := true, band := .normal } 12000 false = some .economy ∧
      at_ { q := 129600000, synced := true, band := .reserve } 12000 false = some .economy ∧
      at_ { q := 129599999, synced := true, band := .reserve } 12000 false = some .reserve ∧
      at_ { q := 129599999, band := .reserve } 12000 true = some .normal := by decide +kernel

/-- The factor at −8.0 °C is 80 (R20). -/
theorem test_derate : derate batterySet (some (-80)) = 80 ∧ derate batterySet (some 0) = 100 ∧
    derate batterySet (some (-1)) = 99 ∧ derate batterySet (some (-200)) = 50 ∧ batterySet.td2 < batterySet.td1 := by decide

/-- At an allowance of 22 500 mA the twentieth sample above 25 750 mA raises the step, and the three hundredth at or
below 20 250 mA lowers it. -/
theorem witness_overdraw :
    let c := batterySet
    let b : Battery := { q := 360000000, riseRun := 19, fallRun := 299, step := 1 }
    (sampleBattery c (-1031) 12000 7 none false b).step = 2 ∧ (sampleBattery c (-1030) 12000 7 none false b).step = 1 ∧
      (sampleBattery c (-810) 12000 7 none false b).step = 0 ∧ (sampleBattery c (-811) 12000 7 none false b).fallRun = 0 ∧
      ((sampleBattery c (-1031) 12000 7 none false b).last.map (·.allowance)) = some 22500 := by decide +kernel

/-! ## The station view and the claims -/

def isFrame (k : Kind) (n : Node) : Bool := n.tx.queue.any fun e => kindOf e.frame == k

/-- Every period is due at this moment. -/
def publishing : Node := { up with
  battery := { last := some ⟨0, 12500, 500, none, false, .normal, 45000, 0, true, false⟩ }
  pub := { presence := some 9999000, draw := some 9999500, allowance := some 9999500, tanks := some 9998000
           climate := some 9999000, motion := some 9999000, lights := some 9998000 } }

theorem witness_periods :
    let n := (st publishing).found 0
    n.isActive = true ∧ n.calm = true ∧ (st publishing).sound = true ∧ n.tx.queue.length ≤ 4 ∧
      [Duty.battery, .tanks, .frost, .heater, .awning, .wind, .lights].all n.has = true ∧
      (allowanceBody n).isSome = true ∧ n.heaterCfg = some heaterSet ∧
      n.pub = { publishing.pub with presence := some (n.now - 1000) } := by decide

/-- PRESENCE in LISTEN-ONLY without an image, and DRAW in LISTENING with a claim that is shown (R34, R52). -/
theorem witness_periods_elsewhere :
    let bare : Node := { publishing with cfg := none, state := some .listenOnly }
    let listens : Node := { publishing with
      state := some .listening, claims := up.claims.set 3 { state := .holding, cls := 4, held := 9 } }
    ((st bare).found 0).calm = true ∧ (st bare).sound = true ∧ isFrame .presence (after (.presencePeriod 0) (st bare)) ∧
      ((st listens).found 0).calm = true ∧ (st listens).sound = true ∧ broadcastList ((st listens).found 0) ≠ [] ∧
      isFrame .draw (after (.drawPeriod 0) (st listens)) ∧
      (let m : Node := { up with state := some .listening, claims := listens.claims }
       let silent : Node := { m with state := some .silent }
       queueFits m = true ∧ isFrame .draw ((st up).ended 0 {} m).node ∧
         ((st up).ended 0 {} silent).node.tx = silent.tx) := by decide +kernel

theorem test_periods :
    isFrame .presence (after (.presencePeriod 0) (st publishing)) ∧ isFrame .draw (after (.drawPeriod 0) (st publishing)) ∧
      isFrame .allowance (after (.allowancePeriod 0) (st publishing)) ∧
      isFrame .tanks (after (.tanksPeriod 0) (st publishing)) ∧
      isFrame .climate (after (.climatePeriod 0) (st publishing)) ∧
      isFrame .motion (after (.motionPeriod 0) (st publishing)) ∧
      isFrame .lights (after (.lightsPeriod 0) (st publishing)) := by decide +kernel

def waitingClaim : Claim := { state := .waiting, cls := 1, wanted := 60, stamp := 5, deadline := some 10000000 }

/-- What an event publishes on change: a node that has just become ACTIVE, and one whose travel flag, tanks, heater, awning
and lights have changed. -/
theorem witness_frames_on_change :
    let n := (st { up with state := some .listening }).found 0
    let m : Node := { up with
      heater := { mode := .heat }, motion := { awning := { state := .extending } }
      lights := { channels := [{ target := 9 }] }, ev := { allowance := true } }
    n.isActive = false ∧ m.isActive = true ∧ queueFits m = true ∧ m.ev.restart = false ∧ m.ev.reset = false ∧ m.cmd.restart = none ∧
      m.has .battery = true ∧ m.has .tanks = true ∧ m.has .lights = true ∧ m.heaterCfg = some heaterSet ∧
      m.heater.mode ≠ up.heater.mode ∧ (m.unit .awning).state ≠ (up.unit .awning).state ∧
      (m.lights.channels.map (·.target)) ≠ (up.lights.channels.map (·.target)) ∧
      (let t := (st up).ended 0 {} m
       isFrame .climate t.node ∧ isFrame .motion t.node ∧ isFrame .lights t.node ∧ ¬ isFrame .tanks t.node ∧
         t.node.tx.queue.length < 6) := by decide +kernel

theorem witness_measure_changes :
    let b : Battery := { q := 360000000, last := some ⟨0, 12500, 500, none, false, .normal, 45000, 0, false, false⟩ }
    let m := measure batterySet 0 12500 { up with battery := b }
    b.last.map (·.band) = some .normal ∧ m.battery.last.map (·.band) = some .economy ∧ m.ev.allowance = true := by
  decide +kernel

/-- The slots of a DRAW: a holding pump's and an asking lamp's; a claim that waits without energy is not listed (R51). -/
theorem test_broadcast_list :
    broadcastList { up with claims := (((up.claims.set 2 { waitingClaim with state := .holding, held := 60 }).set 1
      { waitingClaim with state := .asking, asked := 60, held := 7 }).set 5 waitingClaim) } =
      [⟨1, 1, true, 7, 60⟩, ⟨2, 1, false, 60, 60⟩] := by decide +kernel

/-- A LISTENING node whose timer ends now, its pump in demand. -/
def waking : Node := { up with
  state := some .listening, view := { listen := some 10000000 }, pump := { modeOn := true }
  bank := { up.bank with chans := up.bank.chans.set 1 { accepted := some true } } }

theorem witness_listening :
    let n := (st waking).found 0
    n.state = some .listening ∧ n.view.listen = some n.now ∧ n.pumpCfg = some pumpSet ∧ n.pump.modeOn = true ∧
      demand pumpSet n = true ∧ pumpInhibit pumpSet n = none ∧ (n.claim slotPump).state = .idle ∧ n.calm = true := by
  decide +kernel

theorem test_listening : (after (.listeningTimerExpiry 0) (st waking)).state = some .active ∧
    ((after (.listeningTimerExpiry 0) (st waking)).claim slotPump).wanted = 60 := by decide +kernel

def presenceOf (travel : Bool) : Frame := .presence ⟨3, 1, 1, false, false, false, false, travel, false, 0⟩

theorem witness_dispatch : Admitted (hearing up (presenceOf true)) 0 ⟨up.now, 5, presenceOf true⟩ [] ∧
    dispatchRow 0 (kindOf (presenceOf true)) = some (.dispatchPresence 0) :=
  ⟨hearing_admitted up _ witness_hears, rfl⟩

theorem test_dispatch_travel : (after (.dispatchPresence 0) (hearing up (presenceOf true))).view.travel = true ∧
    (after (.dispatchPresence 0) (hearing up (presenceOf true))).view.source = some .own := by decide +kernel

/-- A table of thirteen others, and the frame of a fourteenth that comes 3 500 ms late or from no station. -/
def crowd : List Peer := (List.range 13).map fun i => { station := i + 6, heard := 10000000 }

theorem witness_discards :
    let n := (st { up with view := { peers := crowd } }).found 0
    n.up = true ∧ 13 ≤ n.view.peers.length ∧ n.view.peers.any (·.station == 5) = false ∧ n.station ≠ some 5 ∧
      ((st up).found 3501).now = up.now + 3501 ∧ frameRow 0 (.lights []) = .dispatchLights 0 ∧
      frameRow 0 (.command (order 0x29 [3])) = .stepStop 0 ∧ frameRow 0 (.command (order 0x40 [])) = .unknownCommand 0 :=
  by decide

/-- A COMMAND from station 5 to station 4, heard at station 3. -/
theorem witness_other_target :
    let b : CommandBody := { order 0x3F [] with target := 4 }
    Admitted (hearing up (.command b)) 0 (heard up b) [] ∧ b.target ≠ 0 ∧ up.station ≠ some b.target ∧
      commandRow 0 b = .restart 0 ∧ (up.view.peers.any (·.station == 5)) = false :=
  ⟨hearing_admitted up _ (by decide), by decide⟩

theorem test_dispatch_stale :
    (after (.dispatchLights 3501) (hearing up (.lights []))).view.peers = [] ∧
      ((after (.dispatchLights 3500) (hearing up (.lights []))).view.peers.map (·.station)) = [5] := by decide +kernel

/-- A frame of the node's own number, and a sighting 10 000 ms or 10 001 ms before it. -/
def sighted (t : Nat) : State := { hearing { up with view := { sighting := some t } } (.lights []) with
  rx := { arrival := [⟨up.now, 3, .lights []⟩] } }

theorem witness_sighting :
    let n := (sighted 9990000).found 0
    n.station = some 3 ∧ n.state = some .active ∧ n.view.sighting = some 9990000 ∧ up.now ≤ 9990000 + 10000 ∧
      9989999 + 10000 < up.now := by decide

theorem test_sighting : (after (.dispatchLights 0) (sighted 9990000)).state = some .silent ∧
    (after (.dispatchLights 0) (sighted 9989999)).state = some .active ∧
    (after (.dispatchLights 0) (sighted 9989999)).view.sighting = some 10000000 := by decide +kernel

/-- A COMMAND of the node's own number is not executed, nor is one that comes to a SILENT node. -/
theorem test_own_command :
    let b : CommandBody := order 0x3F []
    let own (st : NodeState) : State := { node := { up with state := some st }, rx := { arrival := [⟨up.now, 3, .command b⟩] } }
    frameRow 0 (.command b) = .restart 0 ∧ (after (.restart 0) (own .active)).cmd.restart = none ∧
      hasFlag .duplicateSeen (after (.restart 0) (own .active)) = true ∧
      (after (.restart 0) (own .silent)).cmd.flags = 0 ∧ (after (.restart 0) (own .silent)).now = up.now := by decide +kernel

/-- A node without a battery, and an ALLOWANCE from station 5. -/
def noBattery : Node := { up with cfg := some { demo with duties := 0x7FE, battery := none } }

def budget : AllowanceBody := ⟨450, 1, 0, true, false, false, true, 500, 12500, -100, 0, 3⟩

theorem witness_acceptance :
    Admitted (hearing noBattery (.allowance budget)) 0 ⟨noBattery.now, 5, .allowance budget⟩ [] ∧
      (∀ p ∈ noBattery.view.peers, isBatteryStation p = true → 5 ≤ p.station) ∧ noBattery.has .battery = false ∧
      noBattery.state = some .active ∧ isBatteryStation { station := 4, heard := 0, battery := some budget } = true :=
  ⟨hearing_admitted noBattery _ (by decide), by decide⟩

/-- A node that is its own source at station 3 hears station 5; at station 9 it is in conflict (R39, R41). -/
theorem witness_own_acceptance :
    let f := Frame.allowance budget
    up.has .battery = true ∧ up.rankNumber < 5 ∧
      (∀ p ∈ ((st up).found 0).view.peers, isBatteryStation p = true → up.rankNumber < p.station) ∧
      (after (.dispatchAllowance 0) (hearing up f)).view.source = some .own ∧
      (after (.dispatchAllowance 0) (hearing up f)).view.conflict = false ∧
      (after (.dispatchAllowance 0) (hearing { up with station := some 9 } f)).view.conflict = true ∧
      (after (.dispatchAllowance 0) (hearing { up with station := some 9 } f)).view.source = some (.peer 5) := by
  decide +kernel

theorem test_acceptance : (after (.dispatchAllowance 0) (hearing noBattery (.allowance budget))).view.allowance = 450 ∧
    (after (.dispatchAllowance 0) (hearing noBattery (.allowance budget))).view.shed = 1 ∧
    (after (.dispatchAllowance 0) (hearing up (.allowance budget))).view.allowance = 0 := by decide +kernel

def aging : Node := { noBattery with
  view := { peers := [{ station := 5, heard := 9996500, battery := some budget }], source := some (.peer 5)
            orphanRef := some 9998000 } }

theorem witness_view_expiries :
    let n := (st aging).found 0
    n.up = true ∧ n.view.peers.any (fun p => p.station == 5 && p.heard + 3500 == n.now) = true ∧
      n.view.orphaned = false ∧ n.view.source ≠ some .own ∧ n.view.orphanRef = some (n.now - 2000) ∧
      n.cfg.isSome = true ∧ n.state = some .active := by decide

theorem test_age_out : (after (.peerAgeOut 0 5) (st aging)).view.peers = [] ∧
    (after (.peerAgeOut 0 5) (st aging)).view.source = none := by decide +kernel
theorem test_orphan : (after (.orphanExpiry 0) (st aging)).view.shed = 2 ∧
    (after (.orphanExpiry 0) (st aging)).view.allowance = 30 := by decide +kernel

/-- Class, then station, then slot. -/
theorem witness_rank : outranks (3, 9, 7) (2, 1, 0) = true ∧ outranks (2, 1, 7) (2, 2, 0) = true ∧
    outranks (2, 2, 4) (2, 2, 5) = true ∧ outranks (2, 2, 4) (2, 2, 4) = false := by decide

def claiming (c : Claim) (i : Fin 8) (allowance : Nat) : Node := { up with
  claims := up.claims.set i c, view := { allowance := allowance, source := some .own } }

def waitingPump : Claim := waitingClaim
def askingPump : Claim := { waitingPump with state := .asking, asked := 60, settle := some 10000000 }
def askingLamp : Claim := { askingPump with deadline := none, degradable := true }

theorem witness_claims :
    let c := (claiming { waitingPump with state := .holding, held := 60 } 2 60).claim 2
    c.state = .holding ∧ c.cls ≠ 4 ∧ c.wanted < 61 ∧ 59 < c.wanted ∧ 59 ≤ c.held ∧
      (claiming { waitingPump with held := 10 } 2 60).claim 2 = { waitingPump with held := 10 } ∧ 11 < waitingPump.wanted := by
  decide

theorem test_reduce_waiting : ((reduceClaim 2 11 (claiming { waitingPump with held := 10 } 2 60)).claim 2).wanted = 11 := by
  decide
theorem test_raise_holding :
    ((raiseClaim 2 61 (some 7) (claiming { waitingPump with state := .holding, held := 60 } 2 60)).claim 2).deadline =
      some 10000007 := by decide

/-- One waiting claim and the headroom it meets: what it wants, and one unit less; forbidden at a shed level of 2. -/
theorem witness_wait_service :
    let n := claiming waitingPump 2 60
    let m := claiming { waitingPump with degradable := true } 2 1
    n.isActive = true ∧ (n.claim 2).state = .waiting ∧ (∀ j : Fin 8, j ≠ 2 → (n.claim j).state ≠ .waiting) ∧
      headroom [] 2 n = 60 ∧ headroom [] 2 (claiming waitingPump 2 59) = 59 ∧ headroom [] 2 m = 1 ∧
      (m.claim 2).degradable = true ∧ forbids 2 (n.claim 2).cls = true ∧ forbids 1 (n.claim 2).cls = false := by decide

/-- The headroom of slot 2 at station 3 (R57): 100, less what is held, less what outranking asks would add. -/
theorem witness_headroom :
    let asks (cls held asked : Nat) : DrawClaim := ⟨1, cls, true, held, asked⟩
    let peer (k : Nat) (d : DrawClaim) : Peer := { station := k, heard := 10000000, claims := some [d] }
    let n : Node := { claiming waitingPump 2 100 with
      view := { allowance := 100, peers := [peer 2 (asks 1 5 9), peer 4 (asks 1 5 9), peer 9 (asks 2 5 8)] } }
    n.station = some 3 ∧ tableFits n = true ∧ headroom [] 2 n = 100 - 15 - 4 - 3 := by decide +kernel

theorem witness_settle_end :
    let n := (st (claiming askingPump 2 60)).found 0
    n.up = true ∧ (n.claim 2).state = .asking ∧ (n.claim 2).settle = some n.now ∧
      (∀ j : Fin 8, j ≠ 2 → (n.claim j).state ≠ .asking) ∧ headroom [] 2 n = 60 ∧ n.view.shed ≤ (n.claim 2).cls ∧
      headroom [] 1 (claiming askingLamp 1 1) = 1 ∧ headroom [] 1 (claiming askingLamp 1 0) = 0 := by decide

theorem test_settle_grants : ((after (.settleEnd 0) (st (claiming askingPump 2 60))).claim 2).held = 60 := by decide +kernel
theorem test_settle_fails : ((after (.settleEnd 0) (st (claiming askingPump 2 59))).claim 2).held = 0 := by
  decide +kernel

/-- A waiting pump, a pending raise, a waiting entry and a pending AUX output, each at its deadline. -/
def entry (u : MotionUnit) (a : Action) (e : EntryState) : Entry := ⟨u, a, .command 5 9, e⟩

theorem witness_deadline :
    let n := (st { claiming waitingPump 2 0 with pump := { state := .waiting } }).found 0
    n.up = true ∧ (n.claim 2).state = .waiting ∧ (n.claim 2).deadline = some n.now ∧ n.pumpCfg = some pumpSet ∧
      n.pump.state = .waiting ∧ n.heaterCfg = some heaterSet ∧ n.unitCfg .step = some stepSet := by decide

theorem test_pump_no_energy :
    (after (.waitDeadline 0 2) (st { claiming waitingPump 2 0 with pump := { state := .waiting } })).pump.reason =
      some .noEnergy := by decide +kernel
theorem test_step_no_energy :
    let s := st { claiming waitingPump 5 0 with motion := { list := [entry .step .extend .waitingEnergy] } }
    (after (.waitDeadline 0 5) s).motion.step.outcome = .noEnergy ∧ (after (.waitDeadline 0 5) s).motion.list = [] := by
  decide +kernel

theorem witness_grants :
    let n := { claiming { waitingPump with state := .holding, held := 60 } 2 60 with pump := { state := .waiting } }
    n.pump.state = .waiting ∧ units pumpSet.draw = 60 ∧ (n.claim slotPump).held = 60 ∧
      findEntry .step .waitingEnergy true { n with motion := { list := [entry .step .extend .waitingEnergy] } } =
        some (entry .step .extend .waitingEnergy) ∧
      unitUnits stepSet = 60 ∧ (tellGranted slotPump n).pump.state = .running ∧
      (n.setAux 13 .pending).auxState 13 = .pending ∧ auxDraw (· == .on) (n.setAux 13 .pending) = 0 := by decide +kernel

theorem witness_sheds :
    let n := { up with pump := { state := .running }, heater := { state := .glow }
                       motion := { list := [entry .awning .extend .active] } }
    n.pump.state = .running ∧ n.heater.state = .glow ∧ heaterSet.fan ≠ heaterSet.glow ∧ heaterSet.fan ≠ heaterSet.fuel ∧
      (n.bridge .awning).state ≠ .fault ∧ ¬ (extStop awningSet n = true ∧ retStop awningSet n = true) ∧
      ((tellGranted (slotUnit .step) { claiming { waitingPump with state := .holding, held := 60 } 5 60 with
        motion := { step := { dir := .retract, pos := none }, list := [entry .step .extend .waitingEnergy] } }).unit
          .step).state = .retracting ∧
      (tellShed slotHeater n).heater.state = .standby ∧ (tellShed slotPump n).pump.toldShed = true ∧
      ((tellShed (slotUnit .awning) n).bridge .awning).state = .coast := by
  decide +kernel

/-! ## Tanks, pump and frost -/

def scanning : Node := { up with
  tanks := { records := [{ window := [490, 500] }, { run := 2 }], due := some 10000000, complete := some 10000000 }
  bank := { up.bank with
    chans := (up.bank.chans.set 14 { reading := some 95 }).set 15 { commanded := 100 } } }

theorem witness_scans :
    let n := (st scanning).found 0
    n.up = true ∧ n.tanks.due = some n.now ∧ n.tanks.complete = some n.now ∧
      n.tankCfgs[0]? = tankSets[0]? ∧ n.tanks.records[0]? = some { window := [490, 500] } ∧
      scanTank n { kind := .fresh, method := .sender 14 [(10, 1000), (180, 0)], full := 900 } = .sender 500 ∧
      scanTank (scanning.setChan 14 { reading := some 601 })
        { kind := .fresh, method := .sender 14 [(10, 1000), (180, 0)], full := 900 } = .senderFault ∧
      scanTank (scanning.setChan 8 { instant := true })
        { kind := .grey, method := .ladder [1, 4, 8] 15, full := 900 } = .ladder 0 false := by decide +kernel

theorem test_scan_level : ((after (.scanComplete 0) (st scanning)).tanks.records.map (·.level)) = [some 500, none] := by
  decide +kernel
theorem test_scan_start : (after (.scanStart 0) (st scanning)).tanks.complete = some 10000050 := by decide +kernel

theorem witness_ladder : [true, false, true, false, false] = List.replicate 1 true ++ false :: [true, false, false] ∧
    [true, true] = List.replicate 2 true ∧ ladderLevel [true, true] = 1000 ∧ ladderLevel [true, true, false] = 666 := by
  decide

theorem witness_level :
    let c : TankCfg := { kind := .fresh, method := .sender 14 [], full := 900 }
    let t (w : List Nat) : Tank := { window := w, low := true, empty := true }
    (t [1, 2, 3]).window.length = 3 ∧ (applyResult c 100 (t [100, 200])).low = true ∧
      (applyResult c 149 (t [149, 149])).low = true ∧ (applyResult c 150 (t [150, 0])).low = false ∧
      (applyResult c 50 (t [50, 50])).empty = false ∧ (applyResult c 49 (t [49, 49])).empty = true ∧
      (applyResult { c with kind := .grey } 900 (t [900, 900])).full = true ∧
      (applyResult { c with kind := .grey } 851 { t [851, 851] with full := true }).full = true ∧
      (applyResult { c with kind := .grey } 850 { t [850, 850] with full := true }).full = false := by decide

theorem witness_pump_commands :
    hears waking ∧ (executes up 0x18 [1]).has .pump = true ∧ (executes up 0x18 [1]).pumpCfg = some pumpSet ∧
      pumpInhibit pumpSet (executes up 0x18 [1]) = none ∧ (executes up 0x18 [1]).isActive = true ∧
      demand pumpSet { up with bank := waking.bank } = true ∧
      pumpInhibit pumpSet { up with frost := { state := .drained } } = some .frost := by decide +kernel

theorem test_pump_on : (after (.pumpMode 0) (told up 0x18 [1])).pump.modeOn = true ∧
    (after (.pumpMode 0) (told { up with pump := { state := .running, modeOn := true } } 0x18 [0])).pump.state = .idle := by
  decide +kernel
theorem test_pump_reset : (after (.pumpReset 0) (told { up with pump := { state := .dryFault } } 0x19 [])).pump.state = .idle ∧
    ((after (.pumpReset 0) (told up 0x19 [])).tx.queue.any fun e => e.frame == .reply ⟨5, 9, 0x19, 7, 0⟩) = true := by
  decide +kernel

def pumping : Node := { up with pump := { state := .running, run := some 9400000, low := some 9990000, dryCount := 65535 } }

theorem witness_pump_stops :
    let n := (st pumping).found 0
    n.up = true ∧ n.pumpCfg = some pumpSet ∧ n.pump.state = .running ∧ n.pump.run = some (n.now - pumpSet.maxRun) ∧
      n.pump.low = some (n.now - 10000) ∧
      pumpInhibit pumpSet { pumping with frost := { state := .dumping } } = some .frost ∧
      (let m := { pumping with frost := { state := .dumping }
                               claims := up.claims.set 2 { waitingPump with state := .holding, held := 60 } }
       m.shedLaw = true ∧ (pumpEvaluate pumpSet m).pump.state = .inhibited ∧
         ((pumpEvaluate pumpSet m).claim slotPump).state = .idle) := by
  decide +kernel

theorem test_pump_run_out : (after (.pumpRunTimeout 0) (st pumping)).pump.state = .dryFault ∧
    (after (.pumpRunTimeout 0) (st pumping)).pump.dryCount = 65535 := by decide +kernel
theorem test_pump_low : (after (.pumpLowTimeout 0) (st pumping)).pump.state = .dryFault := by decide +kernel

/-- The closed contact is known and active, the water is at a temperature, the last reading was one minute ago. -/
def frosty (f : Frost) (temp : Option Int) : Node := { up with
  frost := f
  bank := { up.bank with chans := up.bank.chans.set 4 { accepted := some true }
                         temps := up.bank.temps.set 0 { reading := some temp } } }

theorem witness_frost_clocks :
    let n := (st (frosty { grace := 9940000 } none)).found 0
    n.up = true ∧ n.frostCfg = some frostSet ∧ sourceTemp frostSet n = none ∧ n.frost.grace + 60000 = n.now ∧
      contactKnown frostSet n = true ∧ heatPresent n = false ∧ n.frost.state = .armed ∧ viewCutoff n = false ∧
      viewCutoff { n with view := { band := some 3 } } = true ∧ n.inputActive 4 = true ∧
      waterCold frostSet (frosty {} (some 40)) = true ∧ waterCold frostSet (frosty {} (some 41)) = false := by
  decide +kernel

theorem test_grace_end : (after (.frostGraceEnd 0) (st (frosty { grace := 9940000 } none))).frost.state = .countdown := by
  decide +kernel
theorem test_countdown_end :
    let f : Frost := { state := .countdown, countdown := some 10000000 }
    (after (.countdownExpiry 0) (st (frosty f (some 40)))).frost.state = .dumping ∧
      (after (.countdownExpiry 0) (st (frosty f (some 41)))).frost.state = .armed := by decide +kernel
theorem test_valve_end :
    (after (.valveMoveEnd 0) (st (frosty { state := .dumping, moveEnd := some 10000000 } none))).frost.state =
      .valveFault ∧
    (after (.valveMoveEnd 0) (st (frosty { state := .closing, moveEnd := some 10000000 } (some 41)))).frost.state =
      .armed := by decide +kernel

theorem witness_frost_commands :
    let k := executes (frosty { state := .drained } (some 80)) 0x22 []
    hears (frosty { state := .drained } (some 80)) ∧ k.has .frost = true ∧ k.frostCfg = some frostSet ∧
      contactKnown frostSet k = true ∧ k.frost.state = .drained ∧ tempUsed frostSet k = some (frostSet.threshold + 40) ∧
      contactKnown frostSet { up with bank := {} } = false := by decide +kernel

theorem test_frost_close :
    (after (.frostClose 0) (told (frosty { state := .drained } (some 80)) 0x22 [])).frost.state = .closing ∧
    (after (.frostClose 0) (told (frosty { state := .drained } (some 79)) 0x22 [])).frost.state = .drained := by
  decide +kernel
theorem test_frost_arm :
    (after (.frostArm 0) (told (frosty { state := .disarmed } (some 30)) 0x20 [])).frost.state = .countdown ∧
    (after (.frostDisarm 0) (told (frosty {} (some 50)) 0x21 [])).frost.state = .disarmed := by decide +kernel

/-! ## Heater -/

def heating (h : Heater) (exhaust cabin : Option Int) : Node := { up with
  heater := { h with exhaustSeen := true }
  bank := { up.bank with
    temps := (up.bank.temps.set 1 { reading := some exhaust, due := some 10000000 }).set 2 { reading := some cabin } }
  claims := up.claims.set 3 { state := .holding, cls := 3, held := 30, wanted := 30 } }

theorem witness_heater_commands :
    let k := executes (heating { state := .run, mode := .heat } (some 900) (some 190)) 0x10 [1, 0xD2, 0]
    hears (heating {} none none) ∧ k.has .heater = true ∧ k.heaterCfg = some heaterSet ∧ modeOfCode 1 = some .heat ∧
      modeOfCode 3 = some .vent ∧ modeOfCode 4 = none ∧ signed 16 (0xD2 + 256 * 0) = 210 ∧ k.heater.state = .run := by
  decide +kernel

theorem test_heater_mode :
    let n := after (.heaterMode 0) (told (heating {} (some 20) (some 190)) 0x10 [1, 0xD3, 0])
    n.heater.state = .standby ∧ n.heater.setpoint = 210 ∧
      n.tx.queue.any (fun e => e.frame == .reply ⟨5, 9, 0x10, 1, 210⟩) = true := by decide +kernel
theorem test_heater_reset :
    (after (.heaterReset 0) (told (heating { state := .lockout, attempts := 2 } none none) 0x11 [])).heater.state = .off := by
  decide +kernel

theorem witness_heater_starts :
    let n := (st (heating { state := .ignite, phaseEnd := some 10000000, rate := 16, rateStart := 9999375, pulses := 1
                            pulseEnd := some 10000000 } none none)).found 0
    n.up = true ∧ n.heaterCfg = some heaterSet ∧ n.heater.phaseEnd = some n.now ∧ n.heater.state = .ignite ∧
      0 < n.heater.rate ∧ n.heater.rateStart + n.heater.pulses * 10000 / n.heater.rate = n.now ∧
      n.heater.pulseEnd = some n.now ∧ (n.chan heaterSet.glow).protection ≠ .latchedOff := by decide

theorem test_purge_end :
    (after (.purgeEnd 0) (st (heating { state := .purge, phaseEnd := some 10000000 } none none))).heater.phaseEnd =
      some 10040000 := by decide +kernel
theorem test_glow_end :
    (after (.glowEnd 0) (st (heating { state := .glow, phaseEnd := some 10000000 } (some 20) none))).heater.baseline =
      some 20 := by decide +kernel
theorem test_ignition_limit :
    let h := (after (.ignitionLimit 0) (st (heating { state := .ignite, phaseEnd := some 10000000, attempts := 1 }
      none none))).heater
    h.state = .cooldown ∧ h.lockout = true := by decide +kernel
theorem test_fuel_pulse :
    let h : Heater := { state := .run, rate := 10, rateStart := 9999000, pulses := 1, pulseEnd := some 10000000 }
    ((after (.fuelPulseStart 0) (st (heating h none none))).chan 7).commanded = 100 ∧
      ((after (.fuelPulseStart 0) (st (heating { h with rateStart := 9999001 } none none))).chan 7).commanded = 0 ∧
      (after (.fuelPulseEnd 0) (st (heating h none none))).heater.pulseEnd = none := by decide +kernel

def holding (level : Nat) (cabin : Option Int) : Node :=
  heating { state := .run, mode := .heat, setpoint := 200, level := level, holdEnd := some 10000000 } (some 900) cabin

theorem witness_level_hold :
    let n := (st (holding 3 (some 190))).found 0
    n.up = true ∧ n.heaterCfg = some heaterSet ∧ n.heater.holdEnd = some n.now ∧ n.heater.raise = none ∧
      wantedLevel heaterSet n = 2 ∧ wantedLevel heaterSet (holding 3 none) = 2 ∧
      wantedLevel heaterSet (holding 3 (some 191)) = 1 ∧ wantedLevel heaterSet (holding 3 (some 170)) = 4 ∧
      (n.claim slotHeater).state = .holding ∧ levelUnits heaterSet 2 = 15 ∧ levelUnits heaterSet 4 = 32 := by
  decide +kernel

theorem test_level_down : (after (.levelHoldExpiry 0) (st (holding 3 (some 190)))).heater.level = 2 ∧
    ((after (.levelHoldExpiry 0) (st (holding 3 (some 190)))).claim 3).held = 15 := by decide +kernel
theorem test_level_up : (after (.levelHoldExpiry 0) (st (holding 3 (some 170)))).heater.raise = some 4 ∧
    (after (.levelHoldExpiry 0) (st (holding 3 (some 170)))).heater.level = 3 := by decide +kernel

def stopping : Node := heating
  { state := .run, satisfied := some 9700000, loss := some 9990000, flame := some 9400000, phaseEnd := some 10000000 }
  (some 500) (some 220)

theorem witness_heater_stops :
    let n := (st stopping).found 0
    n.up = true ∧ n.heaterCfg = some heaterSet ∧ n.heater.satisfied = some (n.now - 300000) ∧
      n.heater.loss = some (n.now - 10000) ∧ n.heater.flame = some (n.now - 600000) ∧
      (n.claim slotHeater).state ≠ .idle ∧ n.heater.phaseEnd = some n.now := by decide

theorem test_satisfied : (after (.satisfiedExpiry 0) (st stopping)).heater.reason = .satisfied := by decide +kernel
theorem test_flame_loss : (after (.flameLossExpiry 0) (st stopping)).heater.lockout = true := by decide +kernel
theorem test_cooldown_limit :
    (after (.cooldownLimit 0) (st (heating { state := .cooldown, lockout := true, phaseEnd := some 10000000 }
      none none))).heater.state = .lockout := by decide +kernel

/-! ## Motion and wind -/

def moving (m : MoveUnit) (b : Bridge) (list : List Entry) : Node := { up with
  motion := { awning := m, list := list }, bank := { up.bank with bridgeA := b }
  claims := up.claims.set 4 { state := .holding, cls := 2, held := 60, wanted := 60 } }

theorem witness_moves :
    let k := executes up 0x28 [1]
    hears up ∧ k.has (unitDuty .awning) = true ∧ k.unitCfg .awning = some awningSet ∧ motionLength [1] = true ∧
      actionOf .awning [1] = some .extend ∧ actionOf .awning [4, 0xE8, 3] = some (.extendTo 1000) ∧
      actionOf .awning [4, 0xE9, 3] = none ∧ moveRow 0 .awning (.extendTo 1000) = some (.awningExtendTo 0) ∧
      k.isActive = true ∧ (k.unit .awning).state ≠ .fault ∧ k.view.travel = false ∧ k.view.wind = false ∧
      k.motion.list = [] ∧ standsThere awningSet .extend .awning k = false ∧
      standsThere awningSet .extend .awning (up.setChan 8 { accepted := some true }) = true ∧
      (k.claim (slotUnit .awning)).state = .idle := by decide +kernel

theorem witness_moves_taken_over :
    let n := moving { state := .extending, dir := .extend } { state := .forward } [entry .awning .extend .active]
    n.motion.list = [⟨.awning, .extend, .command 5 9, .active⟩] ∧ isDriving (n.unit .awning) = true ∧
      (n.bridge .awning).state = driveState .extend ∧ needsPosition .retract = false ∧
      actionDir .retract none ≠ (n.unit .awning).dir ∧ hears n := by decide +kernel

/-- The same moves with an entry of the step before and behind; an EXTEND_TO to the place under way, and to a place behind
it. -/
theorem witness_moves_among_others :
    let step_ := entry .step .extend .waitingEnergy
    let m : MoveUnit := { state := .extending, dir := .extend, pos := some 0, segStart := 9985000, segPos := some 0 }
    let b : Bridge := { state := .forward, last := some .extend, coastSince := none, due := some 10000003 }
    let n (e : Entry) := moving m b [step_, e]
    hears (n (entry .awning .extend .active)) ∧ (∀ e ∈ [step_], e.unit ≠ .awning) ∧
      actionOf .awning [4, 0xF4, 1] = some (.extendTo 500) ∧
      estimate awningSet ((n step_).unit .awning) 10000000 = some 500 ∧
      (let t := after (.awningExtendTo 0) (told (n (entry .awning .extend .active)) 0x28 [4, 0xF4, 1])
       t.motion.list = [step_] ∧ t.motion.awning.pos = some 500 ∧ t.motion.awning.state = .partway) ∧
      (let t := after (.awningExtendTo 0) (told (n (entry .awning .extend .active)) 0x28 [4, 0xF3, 1])
       t.motion.awning.state = .reversing ∧ t.motion.awning.dir = .retract ∧ t.bank.bridgeA.state = .coast) ∧
      (let t := after (.awningRetract 0) (told (moving m b [⟨.awning, .retract, .travel, .active⟩, step_,
         entry .awning .retract .queued]) 0x28 [2])
       t.motion.awning.outcome = .replaced ∧ t.motion.list = [⟨.awning, .retract, .travel, .active⟩, step_,
         entry .awning .retract .queued]) := by decide +kernel

/-- Safety requests (R139): from rest, over a waiting entry, and over an active one, the awning part way out. -/
theorem witness_safety :
    let idle : MoveUnit := { state := .partway, pos := some 300 }
    let n (m : MoveUnit) (l : List Entry) : Node := { up with motion := { awning := m, list := l } }
    let safe : Entry := ⟨.awning, .retract, .travel, .active⟩
    stopsKnown awningSet up = true ∧ retStop awningSet up = false ∧ ((n idle []).claim (slotUnit .awning)).state = .idle ∧
      (let t := safetyRequest .awning .travel (n idle [entry .step .extend .waitingEnergy])
       t.motion.list = [safe, entry .step .extend .waitingEnergy] ∧ (t.claim 4).cls = 4 ∧
         (t.unit .awning).state = .retracting) ∧
      (let t := safetyRequest .awning .travel (n idle [entry .awning .extend .waitingEnergy])
       t.motion.list = [safe] ∧ (t.unit .awning).outcome = .replaced) ∧
      (let t := safetyRequest .awning .travel (moving { state := .extending, dir := .extend }
         { state := .forward, last := some .extend, coastSince := none } [entry .awning .extend .active])
       t.motion.list = [safe] ∧ (t.unit .awning).state = .reversing) ∧
      safetyRequest .awning .wind (n idle [safe]) = n idle [safe] ∧
      hasFlag .stepNotStowed (safetyRequest .step .travel { up with motion := { step := { state := .fault } } }) = true := by
  decide +kernel

/-- Interlocks (R147, R148): a waiting extend ends INTERLOCK; the view turns true at a peer's flag; at the first delivery
of the stops and when a unit leaves RETRACTED by hand the travel view brings a safety RETRACT (R133). -/
theorem witness_interlocks :
    let n (m : MoveUnit) (l : List Entry) : Node := { up with motion := { awning := m, list := l } }
    let safe : Entry := ⟨.awning, .retract, .travel, .active⟩
    let i := interlockUnit .travel .awning (n { state := .partway } [entry .awning .extend .waitingEnergy])
    let r := interlockUnit .travel .awning (n { state := .retracted } [entry .awning .extend .waitingEnergy])
    let travels (m : MoveUnit) : Node := { n m [] with view := { travel := true } }
    (i.unit .awning).outcome = .interlock ∧ i.motion.list = [safe] ∧ (r.unit .awning).outcome = .interlock ∧
      r.motion.list = [] ∧
      (endStopChange .awning false (travels { state := .retracted })).motion.list = [safe] ∧
      (endStopChange .awning true (travels { state := .unknown })).motion.list = [safe] ∧
      (refreshTravel { up with view := { peers := [{ station := 5, heard := 10000000, travel := true }] } }).motion.list =
        [⟨.awning, .retract, .travel, .active⟩, ⟨.step, .retract, .travel, .active⟩] ∧
      (refreshWind { up with view := { peers := [{ station := 5, heard := 10000000, wind := true }] } }).motion.list =
        [⟨.awning, .retract, .wind, .active⟩] := by decide +kernel

theorem test_move_files : (after (.awningExtend 0) (told up 0x28 [1])).motion.list = [entry .awning .extend .waitingEnergy] ∧
    ((after (.stepRetract 0) (told up 0x29 [2])).claim 5).deadline = some 10010000 := by decide +kernel
theorem test_move_interlock :
    (after (.stepExtend 0) (told { up with view := { travel := true } } 0x29 [1])).motion.list = [] ∧
    ((after (.awningExtendTo 0) (told up 0x28 [4, 10, 0])).motion.list) = [] := by decide +kernel
theorem test_move_reverses :
    let n := after (.awningRetract 0) (told (moving { state := .extending } { state := .forward, last := some .extend }
      [entry .awning .extend .active]) 0x28 [2])
    n.motion.awning.state = .reversing ∧ n.motion.awning.dwellEnd = some 10000500 := by decide +kernel

theorem witness_stops :
    let n := moving { state := .extending } { state := .forward } [entry .awning .extend .active]
    hears n ∧ (order 0x28 [3]).args = [3] ∧ (n.bridge .awning).state ≠ .fault ∧ extStop awningSet n = false ∧
      retStop awningSet n = false ∧ hears (moving {} {} [⟨.awning, .retract, .travel, .active⟩]) ∧
      hears (moving {} {} [entry .awning .extend .waitingEnergy]) := by decide +kernel

/-- A STOP on a unit in FAULT (R138): it rests by its stops, and retracts while the travel view is true, its stops known or
not. -/
theorem witness_stop_in_fault :
    let f : MoveUnit := { state := .fault, cause := .jam, pos := some 300 }
    let step_ := entry .step .extend .waitingEnergy
    let n (travel : Bool) : Node := { up with motion := { awning := f, list := [step_] }, view := { travel := travel } }
    let blind : Node := { n true with bank := {} }
    let t (k : Node) := after (.awningStop 0) (told k 0x28 [3])
    hears (n true) ∧ hears (n false) ∧ ((n true).claim 4).state = .idle ∧ retStop awningSet (n true) = false ∧
      (t (n false)).motion.awning.state = .partway ∧ (t (n false)).motion.awning.cause = .none ∧
      (t (n false)).motion.list = [step_] ∧
      (t (n true)).motion.list = [⟨.awning, .retract, .travel, .active⟩, step_] ∧
      (t (n true)).motion.awning.state = .retracting ∧ stopsKnown awningSet blind = false ∧
      (t blind).motion.list = [⟨.awning, .retract, .travel, .active⟩, step_] := by decide +kernel

theorem test_stop_moving :
    let n := after (.awningStop 0) (told (moving { state := .extending, segStart := 9985000, segPos := some 0 }
      { state := .forward } [entry .awning .extend .active]) 0x28 [3])
    n.motion.awning.pos = some 500 ∧ n.bank.bridgeA.state = .brake ∧ n.motion.awning.outcome = .stopped := by
  decide +kernel
theorem test_stop_nothing : (after (.stepStop 0) (told up 0x29 [3])).motion.list = [] := by decide +kernel

def driven : Node := moving
  { state := .extending, run := some 9955000, jam := some 9999700, segStart := 9985000, segPos := some 0 }
  { state := .forward, last := some .extend, coastSince := none, due := some 10000000 }
  [entry .awning (.extendTo 500) .active]

def resting : Node := moving { state := .reversing, dir := .retract, dwellEnd := some 10000000 }
  { state := .coast, last := some .extend, coastSince := some 9999500, pending := some .retract }
  [entry .awning .retract .active]

theorem witness_motion_events :
    let n := (st driven).found 0
    n.up = true ∧ n.unitCfg .awning = some awningSet ∧ isDriving (n.unit .awning) = true ∧
      estimate awningSet (n.unit .awning) n.now = some 500 ∧ (n.unit .awning).jam = some (n.now - 300) ∧
      (n.unit .awning).run = some (n.now - awningSet.travel * 3 / 2) ∧ (n.bridge .awning).state = .forward ∧
      (resting.unit .awning).state = .reversing ∧ (resting.unit .awning).dwellEnd = some resting.now ∧
      (resting.bridge .awning).coastSince = some (resting.now - 500) := by decide

theorem test_dwell_and_target : (after (.dwellEnd 0 .awning) (st resting)).bank.bridgeA.state = .reverse ∧
    (after (.targetReached 0 .awning) (st driven)).motion.awning.pos = some 500 := by decide +kernel
theorem test_jam_and_timeout : (after (.jam 0 .awning) (st driven)).motion.awning.cause = .jam ∧
    (after (.motionTimeout 0 .awning) (st driven)).motion.awning.cause = .timeout := by decide +kernel
/-- A reading acts when it is due, every 10 ms; the overcurrent limit holds in BRAKE and COAST too (R144, R180). -/
theorem witness_bridges :
    let braked := moving { state := .partway } { state := .brake, coastSince := none } []
    let read (due : Nat) (n : Node) := after (.bridgeCurrentReading 0 .awning 8001)
      (st { n with bank := { n.bank with bridgeA := { n.bank.bridgeA with due := some due } } })
    (driven.bridge .awning).due = some driven.now ∧ (read 10000000 driven).bank.bridgeA.due = some 10000010 ∧
      (read 10000000 driven).motion.awning.jam = some 9999700 ∧ (read 10000001 driven).bank.bridgeA.due = some 10000001 ∧
      (after (.bridgeOvercurrent 0 .awning 30001) (st braked)).bank.bridgeA.state = .fault ∧
      (after (.bridgeOvercurrent 0 .awning 30001) (st braked)).motion.awning.state = .partway ∧
      (after (.bridgeOvercurrent 0 .awning 30001) (st resting)).bank.bridgeA.pending = none ∧
      (after (.bridgeOvercurrent 0 .awning 30001) (st resting)).motion.awning.state = .fault := by decide +kernel

theorem test_bridge : (after (.bridgeOvercurrent 0 .awning 30001) (st driven)).bank.bridgeA.state = .fault ∧
    (after (.bridgeOvercurrent 0 .awning 30000) (st driven)).bank.bridgeA.state = .forward ∧
    (after (.bridgeCurrentReading 0 .awning 8000) (st driven)).motion.awning.jam = none ∧
    (after (.bridgeDwellComplete 0 .awning) (st resting)).bank.bridgeA.last = some .retract := by decide +kernel

def windy (counts : List Nat) (gust : Nat) : Node := { up with
  wind := { counts := counts, gust := gust, due := some 10000000, lockoutEnd := some 10000000 }
  bank := { up.bank with chans := up.bank.chans.set 12 { due := some 10000000, count := 9 } } }

theorem witness_wind :
    let n := (st (windy [10, 11, 10, 11, 10, 11, 10, 11] 12)).found 0
    n.up = true ∧ n.windCfg = some windSet ∧ n.role 12 = .pulse ∧ (n.chan 12).due = some n.now ∧
      n.wind.counts.length = 8 ∧ n.wind.due = some n.now ∧ n.has .wind = true ∧ n.wind.lockoutEnd = some n.now ∧
      windSpeed windSet.factor n.wind.counts = 100 := by decide

theorem test_wind_gust : (after (.windEvaluation 0) (st (windy [10, 11, 10, 11, 10, 11, 10, 11] 12))).wind.lockoutEnd =
    some 10600000 ∧ (after (.windEvaluation 0) (st (windy [10, 11, 10, 11, 10, 11, 10, 10] 12))).wind.gust = 0 := by
  decide +kernel
theorem test_wind_count : (after (.pulseCountPeriod 0 12) (st (windy [1, 2] 0))).wind.counts = [1, 2, 9] ∧
    (after (.windLockoutEnd 0) (st (windy [] 0))).wind.lockoutEnd = none := by decide +kernel

/-! ## Lights -/

def lit (l : Light) : Node := { up with
  lights := { channels := [l], courtesy := .hold 10000000 }
  claims := up.claims.set 1 { state := .holding, cls := 1, held := 20, wanted := 20 } }

theorem witness_lights :
    let k := executes up 0x01 [1, 101]
    hears up ∧ k.has .lights = true ∧ k.lamps = [(lampSet, {})] ∧ Nat.testBit 1 0 = true ∧ Nat.testBit 2 0 = false ∧
      lampSet.scenes[5]? = some 60 := by decide +kernel

theorem test_light_level :
    ((after (.lightLevel 0) (told up 0x01 [1, 101])).lights.channels.map fun l => (l.target, l.last)) =
      [(100, some 100)] ∧
    ((after (.scene 0) (told up 0x02 [6])).lights.channels.map (·.target)) = [60] ∧
    ((after (.lightsAllOff 0) (told (lit { target := 40 }) 0x03 [])).lights.channels.map (·.target)) = [0] := by
  decide +kernel

theorem witness_light_clocks :
    let l : Light := { level := 4, goal := 10, aim := 10, target := 10, fadeStart := 9999900, fadeSteps := 4 }
    let n := (st (lit l)).found 0
    n.up = true ∧ n.lamps[0]? = some (lampSet, l) ∧ l.level ≠ l.goal ∧
      l.fadeStart + (l.fadeSteps + 1) * 1000 / lampSet.fade = n.now ∧ n.lights.courtesy = .hold n.now ∧
      ((lit { press := .down 9999500 }).lamps.map (·.2.press)) = [.down (n.now - 500)] := by decide

/-- Two lamps of the main class with a cap of 60 in ECONOMY: each aims at 60 and is CAPPED, the claim asks for both, and
what is held is shared in channel order (R155 to R158). -/
theorem witness_light_shares :
    let two : LightsCfg := { lightSet with channels := [lampSet, { lampSet with output := 9 }] }
    let m : Node := { lit {} with
      cfg := some { demo with lights := some two }, view := { band := some 1 }
      lights := { channels := [{ target := 100 }, { target := 100 }] } }
    let t := ((st { m with lights := { channels := [{}, {}] } }).ended 0 {} m).node
    m.lightsCfg = some two ∧ m.ev.restart = false ∧ m.ev.reset = false ∧ m.cmd.restart = none ∧
      (t.lights.channels.map fun l => (l.aim, l.capped, l.limit, l.goal, l.degraded)) =
        [(60, true, 60, 60, false), (60, true, 40, 40, true)] ∧
      (t.claim 1).wanted = 24 ∧ (t.claim 1).held = 20 := by decide +kernel

/-- An earlier light that rises leaves a later part-risen one what it draws (R50, log entry 57): of 20 units held, 80 % for
the first and 26 % for the second. -/
theorem test_share_reserves :
    let two : LightsCfg := { lightSet with cap := 100, channels := [lampSet, { lampSet with output := 9, current := 1500 }] }
    let m : Node := { up with
      cfg := some { demo with lights := some two }
      claims := up.claims.set 1 { state := .waiting, cls := 1, held := 20, wanted := 25, degradable := true }
      lights := { channels := [{ target := 100, level := 80 }, { target := 60, level := 26 }] } }
    let lower : Node := { m with lights := { channels := [{ target := 100, level := 60 }, { target := 60, level := 26 }] } }
    (lightsUpdate m).lights.channels.map (·.limit) = [80, 26] ∧
      (lightsUpdate lower).lights.channels.map (·.limit) = [80, 26] := by decide +kernel

theorem test_fade_step :
    let l : Light := { level := 4, goal := 10, aim := 10, target := 10, fadeStart := 9999900, fadeSteps := 4 }
    ((after (.fadeStep 0 0) (st (lit l))).chan 13).commanded = 5 := by decide +kernel
theorem test_press_and_hold :
    ((after (.longPress 0 0) (st (lit { press := .down 9999500 }))).lights.channels.map (·.press)) = [.ramping] ∧
    (after (.courtesyHoldExpiry 0) (st (lit {}))).lights.courtesy = .off := by decide +kernel

/-! ## Channel bank -/

def withChan (i : Fin 16) (c : Channel) : Node := { up with bank := { up.bank with chans := up.bank.chans.set i c } }

theorem witness_inputs :
    let n := (st (withChan 1 { instant := true, filter := some 9999980, accepted := some false })).found 0
    n.up = true ∧ n.role 1 = .inp ∧ (n.chan 1).filter = some (n.now - (n.chanCfg 1).time) ∧ n.owner 1 = some .pump ∧
      n.pumpCfg = some pumpSet ∧ pumpSet.switch = 1 ∧ pumpInhibit pumpSet n = none ∧ n.pump.state = .idle ∧
      n.owner 4 = some .frost ∧ n.owner 8 = some (unitDuty .awning) ∧ awningSet.ext = 8 ∧ awningSet.ret ≠ 8 ∧
      n.owner 14 = some .lights ∧ lampSet.switch = some 14 ∧ n.owner 15 = some .travel ∧
      (n.cfg.bind (·.travel)) = some 15 ∧ n.role 12 = .pulse ∧ (n.chanCfg 1).activeLow = false := by decide +kernel

theorem test_input_change : ((after (.inputChange 0 1 .high) (st up)).chan 1).filter = some 10000000 := by decide +kernel
theorem witness_floating_input : up.role 1 = .inp ∧ (up.chanCfg 1).pull = .none := by decide +kernel
theorem test_input_accepted :
    ((after (.inputAccepted 0 1) (st { withChan 1 { instant := true, filter := some 9999980, accepted := some false } with
      pump := { modeOn := true } })).claim 2).wanted = 60 ∧
    (after (.inputAccepted 0 15) (st (withChan 15 { instant := true, filter := some 9999980 }))).view.travel = true := by
  decide +kernel
/-- End stops (R133, R143): the end of an extend at its stop, and a unit at rest that is moved by hand. -/
theorem test_end_stops :
    let stop (ch : Fin 16) (on : Bool) (m : MoveUnit) (b : Bridge) (l : List Entry) : State :=
      st { withChan ch { instant := on, filter := some 1, accepted := some !on } with
        motion := { awning := m, list := l }, bank := { up.bank with
          bridgeA := b, chans := up.bank.chans.set ch { instant := on, filter := some 1, accepted := some !on } } }
    let out := after (.inputAccepted 0 8) (stop 8 true { state := .extending, dir := .extend }
      { state := .forward, last := some .extend, coastSince := none } [entry .awning .extend .active])
    out.motion.awning.state = .extended ∧ out.motion.awning.outcome = .done ∧ out.motion.list = [] ∧
      (after (.inputAccepted 0 9) (stop 9 true { state := .partway, pos := some 300 } {} [])).motion.awning.pos = some 0 ∧
      (after (.inputAccepted 0 9) (stop 9 false { state := .retracted, pos := some 0 } {} [])).motion.awning.state =
        .partway := by decide +kernel

theorem test_pulse_counted : ((after (.pulseCounted 0 12 1000) (st up)).chan 12).count = 1 ∧
    ((after (.pulseCounted 0 12 999) (st up)).chan 12).count = 0 := by decide +kernel

def sender : Node := { withChan 14 { due := some 10000000 } with cfg := some (demoOut (some .lights)) }

theorem test_conversion : sender.role 14 = .ain ∧ ((after (.ainConversion 0 14 1001) (st sender)).chan 14).reading =
    some 1000 ∧ ((after (.ainConversion 0 14 (-3)) (st sender)).chan 14).reading = some 0 := by decide +kernel

theorem witness_temps :
    let n := (st (heating { state := .ignite, baseline := some 20 } none none)).found 0
    n.up = true ∧ tempTypeOf 1 n = .high ∧ (n.bank.temps[(1 : Fin 4)]).due = some n.now ∧ n.heaterCfg = some heaterSet ∧
      heaterSet.exhaust = 1 ∧ heaterSet.cabin ≠ some 1 ∧ n.frostCfg.any (·.temp == some 1) = false ∧
      n.heater.exhaustSeen = true ∧ tempValue .high 500 320 = some 320 ∧ tempValue .high 499 320 = none ∧
      tempValue .ntc 100 900 = some 850 ∧ tempValue .ntc 1000001 0 = none := by decide +kernel

/-- A cabin reading in STANDBY evaluates a start (R113), with the first of several missing conditions as the reason; in RUN
it sets the satisfied clock and the level (R118, R121). -/
theorem witness_cabin_readings :
    let n (h : Heater) : Node := { heating { h with setpoint := 200 } (some 20) none with
      claims := up.claims, bank := { up.bank with
        temps := (up.bank.temps.set 1 { reading := some (some 20) }).set 2 { due := some 10000000 } } }
    let read (k : Node) (t : Int) := after (.tempReading 0 2 1000 t) (st k)
    let heat : Heater := { state := .standby, mode := .heat, setpoint := 200 }
    let run : Heater := { state := .run, mode := .heat, level := 2, setpoint := 200 }
    heaterSet.cabin = some 2 ∧ heaterSet.exhaust ≠ 2 ∧ (n heat).bank.temps[(2 : Fin 4)].due = some up.now ∧
      ((n heat).frostCfg.any (·.temp == some 2)) = false ∧ ((n heat).heaterCfg = some heaterSet) ∧
      ((read (n heat) 190).claim 3).wanted = 120 ∧ ((read (n heat) 191).claim 3).state = .idle ∧
      (read { n heat with view := { shed := 4 } } 190).heater.reason = .shed ∧
      ((read (n { heat with mode := .vent }) 500).claim 3).wanted = 10 ∧
      (read (n run) 210).heater.satisfied = some 10000000 ∧ (read (n run) 210).heater.level = 1 ∧
      (read (n run) 209).heater.satisfied = none := by decide +kernel

theorem test_flame_seen :
    let n := heating { state := .ignite, baseline := some 20 } none none
    (after (.tempReading 0 1 1000 320) (st n)).heater.state = .run ∧
      (after (.tempReading 0 1 1000 319) (st n)).heater.state = .ignite := by decide +kernel
theorem test_overheat :
    (after (.tempReading 0 1 1000 3500) (st (heating { state := .standby } none none))).heater.lockout = true ∧
    hasFlag .sensorFault (after (.tempReading 0 1 5001 3500) (st (heating {} none none))) = true := by decide +kernel

def driving_ (c : Channel) : Node := { withChan 0 { c with commanded := 100, protection := .normal } with
  pump := { state := .running } }

theorem witness_outputs :
    let n := (st (driving_ { tripClock := some 9999990, lowOn := some 9999980, trips := 3 })).found 0
    n.up = true ∧ n.role 0 = .out ∧ isOn (n.chan 0) = true ∧ (n.chan 0).tripClock = some (n.now - 10) ∧
      (n.chan 0).lowOn = some (n.now - (n.chanCfg 0).time) ∧ n.owner 0 = some .pump ∧ n.pump.state = .running ∧
      n.owner 2 = some .frost ∧ n.owner 13 = some .lights ∧ n.lamps[0]? = some (lampSet, ({} : Light)) ∧
      isOn ((withChan 0 { highOff := some 9999980 }).chan 0) = false := by decide +kernel

/-- The heater's outputs trip and are released in its states. -/
def firing (st : HeaterState) (ch : Fin 16) (c : Channel) : Node := { withChan ch c with
  heater := { state := st, mode := .heat, attempts := 1, exhaustSeen := true }
  claims := up.claims.set slotHeater { state := .holding, cls := 3, held := 120, wanted := 120 }
  bank := { (withChan ch c).bank with temps := up.bank.temps.set 1 { reading := some (some 250) } } }

theorem witness_output_owners :
    let n := (st (firing .glow 5 { commanded := 100, tripClock := some 9999990 })).found 0
    let idle := (st { withChan 0 { protection := .tripped, retry := some 10000000 } with
      pump := { state := .inhibited, reason := some .channel, modeOn := true } }).found 0
    n.owner 5 = some .heater ∧ n.owner 6 = some .heater ∧ n.owner 7 = some .heater ∧ n.heaterCfg = some heaterSet ∧
      heaterSet.glow = 5 ∧ heaterSet.fan = 6 ∧ heaterSet.fuel = 7 ∧ isOn (n.chan 5) = true ∧ n.view.shed < 4 ∧
      n.validTemp heaterSet.exhaust = some 250 ∧ frostInhibit idle = false ∧ greyInhibit idle = false ∧
      usedFresh idle = some (false, false) ∧ idle.isActive = true ∧ demand pumpSet idle = false ∧
      (idle.chan 0).protection = .tripped ∧ (idle.chan 0).retry = some idle.now ∧
      { withChan 13 {} with cfg := some (demoOut (some .aux)) }.owner 13 = some .aux ∧ idle.owner 13 = some .lights := by
  decide +kernel

theorem test_heater_trip :
    let trip (s : HeaterState) (ch : Fin 16) : Node :=
      after (.outputTrip 0 ch) (st (firing s ch { commanded := 100, tripClock := some 9999990 }))
    (trip .glow 5).heater.state = .cooldown ∧ (trip .glow 5).heater.lockout = true ∧ (trip .glow 5).heater.attempts = 2 ∧
      (trip .purge 6).heater.state = .standby ∧ (trip .purge 6).heater.reason = .channel ∧
      (trip .run 7).heater.state = .cooldown ∧ (trip .run 7).heater.lockout = true ∧
      (trip .venting 6).heater.state = .standby ∧ (trip .run 5).heater.state = .run := by decide +kernel

theorem test_pump_retry :
    let idle (d : Bool) : Node := { withChan 0 { protection := .tripped, retry := some 10000000 } with
      pump := { state := .inhibited, reason := some .channel, modeOn := true } }.setChan 1 { accepted := some d }
    (after (.retry 0 0) (st (idle false))).pump.state = .idle ∧
      (after (.retry 0 0) (st (idle true))).pump.state = .waiting := by decide +kernel

theorem test_trip : ((after (.outputTrip 0 0) (st (driving_ { tripClock := some 9999990, trips := 3 }))).chan 0).protection =
      .latchedOff ∧
    ((after (.readbackTrip 0 0) (st (driving_ { lowOn := some 9999980, trips := 2 }))).chan 0).retry = some 10005000 := by
  decide +kernel
theorem test_output_clocks :
    ((after (.outputCurrentChange 0 0 5001) (st (driving_ {}))).chan 0).tripClock = some 10000000 ∧
    ((after (.outputPinReadChange 0 0 false) (st (driving_ {}))).chan 0).lowOn = some 10000000 := by decide +kernel
theorem test_backfed :
    ((after (.backfedMarkSet 0 0) (st (withChan 0 { highOff := some 9999980 }))).chan 0).backfed = true ∧
    ((after (.backfedMarkClear 0 0) (st (withChan 0 { lowOff := some 9999980, backfed := true }))).chan 0).backfed =
      false := by decide +kernel
theorem test_retry :
    ((after (.retry 0 2) (st (withChan 2 { protection := .tripped, retry := some 10000000 }))).chan 2).protection =
      .normal ∧
    ((after (.tripCountClear 0 0) (st (driving_ { trips := 2, onSince := some 9970000 }))).chan 0).trips = 0 := by
  decide +kernel

def auxNode : Node := { withChan 13 {} with cfg := some (demoOut (some .aux)) }

theorem witness_bank_commands :
    let k := executes auxNode 0x30 [13, 1]
    hears auxNode ∧ hears up ∧ k.has .aux = true ∧ isAuxOut k 13 = true ∧ isAuxOut k 12 = false ∧
      k.auxState 13 = .off ∧ k.isActive = true ∧ isHeldOff (k.chan 13) = false ∧ (k.claim slotAux).state = .idle ∧
      (∀ j, k.auxState j = .off) ∧ 0 < (k.chanCfg 13).draw ∧
      isHeldOff ((withChan 13 { protection := .latchedOff }).chan 13) = true := by decide +kernel

theorem test_aux : ((after (.auxOutput 0) (told auxNode 0x30 [13, 1])).claim 7).wanted = 10 ∧
    (after (.auxOutput 0) (told (auxNode.setAux 13 .on) 0x30 [13, 0])).auxState 13 = .off := by decide +kernel
theorem test_channel_reset :
    ((after (.channelReset 0) (told (withChan 2 { protection := .latchedOff, trips := 4 }) 0x31 [16])).chan 2).protection =
      .normal := by decide +kernel

/-! ## Habitation link -/

def lineState (phase : RxPhase) (waiting : Nat) : State :=
  { node := up, rx := { phase := phase, arrival := List.replicate waiting ⟨10000000, 5, .lights []⟩ } }

/-- The empty DRAW of station 3 carries CHECK 0x46 (R184). -/
theorem test_check : frameBytes 3 (.draw []) = [0xC3, 0x03, 0x12, 0x01, 0x00, 0x46] := by decide +kernel
theorem test_read_draw : readFrame [0xC3, 0x03, 0x12, 0x01, 0x00, 0x46] = some (3, .draw []) ∧
    readFrame [0xC3, 0x03, 0x12, 0x01, 0x00, 0x47] = none := by decide +kernel

/-- An empty LIGHTS frame, written out by hand: 5 + 0x17 + 1 + 0 + CHECK is 0x5C. -/
def lightsBytes : List Byte := [0xC3, 0x05, 0x17, 0x01, 0x00, 0x3F]

theorem witness_receive :
    let n := (lineState .filling 7).found 0
    n.up = true ∧ n.tx.attempt = .none ∧ (lineState .filling 7).rx.arrival.length < 8 ∧
      8 ≤ (lineState .idle 8).rx.arrival.length ∧ readFrame lightsBytes = some (5, .lights []) ∧
      readFrame [] = none ∧ characterFault 0 0b10110000110#11 = false ∧ characterFault 0 0b00110000110#11 = true ∧
      characterFault 0 0b11110000110#11 = true ∧ characterFault 0 0b10000000000#11 = true := by decide +kernel

theorem test_frame_begin :
    (match exec (.frameBegin 0 16) (lineState .idle 8) with
     | .next t => (t.rx.phase, counter .noBuffer t.node)
     | _ => (.idle, 0)) = (.dropping, 1) := by decide +kernel
theorem test_frame_complete :
    (match exec (.frameComplete 0 lightsBytes) (lineState .filling 0) with
     | .next t => (t.rx.arrival, counter .good t.node)
     | _ => ([], 0)) = ([⟨10000000, 5, .lights []⟩], 1) := by decide +kernel
theorem test_frame_discards :
    counter .bad (after (.frameCharacterFault 0 3 0b10000111010#11) (lineState .filling 0)) = 1 ∧
    counter .broken (after (.frameBroken 0 901) (lineState .filling 0)) = 1 ∧
    counter .broken (after (.frameBroken 0 900) (lineState .filling 0)) = 0 := by decide +kernel

/-- A queue whose head is in an attempt. -/
def sending (a : Attempt) (attempts : Nat) : Node := { up with
  tx := { queue := [{ id := 4, frame := .draw [], attempts := attempts }], attempt := a, nextId := 5
          since := some 9999999 }
  claims := up.claims.set 2 { waitingPump with state := .asking, asked := 60, carrier := some 4 } }

theorem witness_transmit :
    let n := (st (sending .none 7)).found 0
    n.up = true ∧ n.tx.queue ≠ [] ∧ n.tx.attempt = .none ∧ n.tx.jabber = false ∧ n.station = some 3 ∧
      n.isActive = true ∧ 16 + 4 * 3 = 28 ∧ (sending .jamming 7).tx.attempt = .jamming ∧
      (sending .sending 6).tx.attempt = .sending ∧ (sending .sending 6).state ≠ some .silent ∧
      ((sending .sending 6).claim 2).carrier = some 4 ∧ ((sending .sending 6).claim 2).settle = none := by decide

theorem test_attempt : (after (.attemptStart 0 28) (st (sending .none 0))).tx.attempt = .sending ∧
    (after (.attemptStart 0 27) (st (sending .none 0))).tx.attempt = .none ∧
    (after (.attemptStart 0 28) { st (sending .none 0) with rx := { phase := .dropping } }).tx.attempt = .none ∧
    (after (.collision 0 1 false) (st (sending .sending 0))).tx.attempt = .jamming := by decide +kernel

/-- Bit 0 of 0xC3 is the dominant start bit and bit 1 a recessive data bit; in 1 ms the line carries 38.4 bit times. -/
theorem witness_bits :
    let bytes := frameBytes 3 (.draw [])
    sentBit bytes 0 = some false ∧ sentBit bytes 1 = some true ∧ sentBit bytes 10 = some true ∧ sentBit bytes 66 = none ∧
      sentChar 0xC3 = 0b10110000110#11 ∧
      (after (.collision 0 0 false) (st (sending .sending 0))).tx.attempt = .sending ∧
      (after (.attemptStart 0 28) (st { sending .none 0 with tx := { (sending .none 0).tx with
        since := some 10000000 } })).tx.attempt = .none ∧
      (10000000 - 9999999) * 384 / 10 = 38 := by decide +kernel

/-- A newer DRAW behind the failed head takes its place, with the claims it carries (R53, R187). -/
theorem witness_newer_behind :
    let claim : DrawClaim := ⟨2, 1, true, 0, 60⟩
    let n : Node := { sending .jamming 3 with
      tx := { (sending .jamming 3).tx with
        queue := [⟨4, .draw [], 3⟩, ⟨6, .lights [], 0⟩, ⟨7, .draw [claim], 0⟩], nextId := 8 }
      claims := up.claims.set 2 { waitingPump with state := .asking, asked := 60, carrier := some 7 } }
    let m := after (.jamEnd 0 22) (st n)
    m.tx.queue = [⟨4, .draw [claim], 4⟩, ⟨6, .lights [], 0⟩] ∧ (m.claim 2).carrier = some 4 ∧ (st n).sound = true := by
  decide +kernel

theorem test_jam_end : ((after (.jamEnd 0 22) (st (sending .jamming 6))).tx.queue.map (·.attempts)) = [7] ∧
    counter .giveUps (after (.jamEnd 0 22) (st (sending .jamming 7))) = 1 := by decide +kernel
theorem test_frame_sent : ((after (.frameSent 0) (st (sending .sending 0))).claim 2).settle = some 10000080 := by
  decide +kernel
theorem test_jabber : hasFlag .jabber (after (.jabberCut 0 20000) (st up)) = true ∧
    (after (.jabberCut 0 19999) (st up)).tx.jabber = false ∧
    (after (.jabberRecoveryEnd 0 1000) (st { up with tx := { jabber := true } })).tx.jabber = false := by decide +kernel

theorem witness_frames : fitsPayload (.draw (List.replicate 8 ⟨7, 4, true, 255, 255⟩)) = true ∧
    fitsPayload (.report (.quantities 0 6 (List.replicate 6 (-2147483648)))) = true ∧
    fitsPayload (.climate ⟨5, 4, 1, 300, none, some (-32767), 8, 2⟩) = true ∧
    readFrame (frameBytes 14 (.climate ⟨5, 4, 1, 300, none, some (-32767), 8, 2⟩)) =
      some (14, .climate ⟨5, 4, 1, 300, none, some (-32767), 8, 2⟩) := by decide +kernel

/-- Frames that are no good frame (R185): a DRAW whose count of slots exceeds its length, and an ALLOWANCE too short. -/
theorem test_frames_not_read : readFrame [0xC3, 0x03, 0x12, 0x01, 0x01, 0x45] = none ∧
    readFrame [0xC3, 0x03, 0x13, 0x01, 0x00, 0x45] = none ∧ readFrame [0xC2, 0x03, 0x12, 0x01, 0x00, 0x46] = none := by
  decide +kernel

/-- Six entries, a REPLY among them. -/
def fullQueue (f : Frame) : Node := { up with tx := { nextId := 6, queue :=
  [⟨0, .draw [], 0⟩, ⟨1, .lights [], 0⟩, ⟨2, f, 0⟩, ⟨3, .motion [] none, 0⟩, ⟨4, .tanks [] none, 0⟩,
   ⟨5, .allowance budget, 0⟩] } }

theorem witness_placing :
    let r : Frame := .reply ⟨5, 1, 1, 0, 0⟩
    queueFits (fullQueue r) = true ∧ (fullQueue r).tx.queue.length = 6 ∧ kindOf r = .reply ∧
      ((fullQueue r).tx.queue.filter fun y => kindOf y.frame == .draw) = [⟨0, .draw [], 0⟩] ∧
      (∀ y ∈ (fullQueue r).tx.queue, kindOf y.frame ≠ .presence) ∧
      (∀ y ∈ (fullQueue (presenceOf true)).tx.queue, kindOf y.frame ≠ .climate ∧ kindOf y.frame ≠ .reply ∧
        kindOf y.frame ≠ .report) ∧ queueFits up = true ∧ up.tx.queue.length < 6 := by decide +kernel

theorem test_push_out : ((placePeriodic (presenceOf true) (fullQueue (.reply ⟨5, 1, 1, 0, 0⟩))).1.tx.queue.map (·.id)) =
    [0, 1, 3, 4, 5, 6] := by decide +kernel

/-! ## Commands, reports and counters -/

theorem witness_checks :
    hears up ∧ (executes up 0x18 []).station = some 3 ∧ (executes noBattery 0x18 [1]).has .battery = false ∧
      hears { up with cfg := none } ∧ (executes { up with cfg := none } 0x18 [1]).has .pump = false ∧
      (executes up 0x39 []).isActive = true := by decide +kernel

/-- The REPLYs in a transmit queue, as their results. -/
def results (n : Node) : List Nat := n.tx.queue.filterMap fun e =>
  match e.frame with
  | .reply b => some b.result
  | _ => none

/-- A query at a node that is not ACTIVE, and one at a node whose queue holds five entries (R195, REFUSED_BUSY). -/
theorem witness_busy :
    let five : Node := { up with tx := { nextId := 5, queue := [⟨0, .draw [], 0⟩, ⟨1, .lights [], 0⟩,
      ⟨2, .motion [] none, 0⟩, ⟨3, .tanks [] none, 0⟩, ⟨4, .allowance budget, 0⟩] } }
    hears five ∧ 4 < (executes five 0x3A []).tx.queue.length ∧ hears { up with state := some .silent } ∧
      (executes { up with state := some .silent } 0x3A []).isActive = false ∧
      results (after (.queryCounters 0) (told five 0x3A [])) = [resultCode .refusedBusy] := by decide +kernel

theorem test_wrong_length : results (after (.pumpMode 0) (told up 0x18 [])) = [5] ∧
    results (after (.pumpMode 0) (told { up with cfg := none } 0x18 [1])) = [6] := by decide +kernel

/-- AWNING and STEP (R136, checks 1 and 2): a wrong length, no duty, an unknown action, a target of 1 001, EXTEND_TO on
the step. -/
theorem witness_motion_checks :
    results (after (.awningExtendTo 0) (told up 0x28 [4, 1])) = [resultCode .refusedRange] ∧
    results (after (.stepRetract 0) (told { up with cfg := none } 0x29 [2])) = [resultCode .refusedNoDuty] ∧
    results (after (.awningExtend 0) (told up 0x28 [5])) = [resultCode .refusedRange] ∧
    results (after (.awningExtendTo 0) (told up 0x28 [4, 0xE9, 3])) = [resultCode .refusedRange] ∧
    results (after (.awningExtendTo 0) (told up 0x28 [4, 0xE8, 3])) = [resultCode .refusedState] ∧
    results (after (.stepExtend 0) (told up 0x29 [4, 0xE8, 3])) = [resultCode .refusedRange] ∧
    up.unitCfg .awning ≠ none ∧ up.unitCfg .step ≠ none ∧ (up.has .awning && up.has .step) = true := by decide +kernel

theorem witness_command_unit :
    let k := executes up 0x39 [2, 7]
    k.isActive = true ∧ k.calm = true ∧ k.tx.queue = [] ∧ k.station = some 3 ∧ k.cmd.map.length = 1 ∧
      (order 0x39 [0, 7]).args = [0, 7] ∧ selectPlaces [0xF7, 3, 0, 0, 0, 0, 0, 0] = [23, 31, 0, 0, 0, 0, 0, 0, 0, 0, 0, 0] ∧
      0x55 ∉ commandCodes := by decide +kernel

theorem test_report_select : (after (.reportSelect 0) (told up 0x38 [0xF7, 3, 0, 0, 0, 0, 0, 0])).cmd.map = [23] ∧
    results (after (.reportSelect 0) (told up 0x38 [31, 0, 0, 0, 0, 0, 0, 0])) = [5] := by decide +kernel
theorem test_query_report : results (after (.queryReport 0) (told up 0x39 [0, 7])) = [1] ∧
    results (after (.queryReport 0) (told up 0x39 [1, 1])) = [5] ∧
    ((after (.queryReport 0) (told up 0x39 [0, 1])).tx.queue.any fun e => e.frame == .report (.quantities 0 1 [10000])) =
      true := by decide +kernel
theorem test_query_counters :
    counter .jams (after (.queryCounters 0) (told (bump .jams up) 0x3A [])) = 0 ∧
    hasFlag .dryFault (after (.queryFlags 0) (told (setFlag .dryFault up) 0x3B [])) = false := by decide +kernel
theorem test_quantities :
    quantity 12 { up with pump := { state := .inhibited, reason := some .shed } } = 53 ∧ quantity 5 up = -2147483648 ∧
    quantity 21 { sender with cfg := some (demoOut (some .aux)) } = -2147483648 ∧ quantity 23 up = 10000 ∧
    quantity 22 (withChan 15 { backfed := true }) = 32768 := by decide +kernel
theorem test_standing :
    let fault : MoveUnit := { state := .fault, cause := .jam }
    standing .motionJam { up with motion := { step := fault } } = true ∧
    standing .motionJam { up with motion := { step := { fault with state := .partway } } } = false ∧
    standing .sensorFault { up with bank := { up.bank with temps := up.bank.temps.set 3 { reading := some none } } } =
      false ∧
    standing .sensorFault { up with bank := { up.bank with temps := up.bank.temps.set 0 { reading := some none } } } =
      true ∧ standing .channelTrip (withChan 13 { protection := .latchedOff }) = true := by decide +kernel
theorem test_unknown : results (after (.unknownCommand 0) (told up 0x55 [])) = [8] := by decide +kernel

theorem witness_restart :
    let k := executes up 0x3F []
    k.calm = true ∧ k.isActive = true ∧ k.tx.queue = [] ∧ k.station = some 3 ∧
      hears { up with state := some .silent } ∧ (st (sending .sending 0)).sound = true := by decide +kernel

theorem test_restart : (after (.restart 0) (told up 0x3F [])).cmd.restart.map (·.2) = some 10000200 ∧
    (after (.restart 0) (told { up with state := some .silent } 0x3F [])).cause = 4 ∧
    (after (.restart 0) (told { up with state := some .silent } 0x3F [])).held = false := by decide +kernel
/-- A second RESTART while the first REPLY waits; the check, and the sending of either REPLY (R200). -/
theorem witness_second_restart :
    let r : Frame := .reply ⟨5, 1, 0x3F, 0, 0⟩
    let n : Node := { up with cmd := { restart := some (4, 10000100) }, tx := { queue := [⟨4, r, 0⟩], nextId := 5 } }
    let k := executes n 0x3F []
    let t := after (.restart 0) (told n 0x3F [])
    let two : Node := { n with cmd := { restart := some (4, 10000100), restartAgain := [5] }
                               tx := { queue := [⟨5, r, 0⟩, ⟨4, r, 0⟩], attempt := .sending, nextId := 6 } }
    hears n ∧ k.ev = {} ∧ k.isActive = true ∧ k.tx.queue = [⟨4, r, 0⟩] ∧ k.cmd.restart = some (4, 10000100) ∧
      k.cmd.restartAgain = [] ∧ t.cmd.restart = some (4, 10000100) ∧ t.cmd.restartAgain = [5] ∧
      (t.tx.queue.map (·.id)) = [4, 5] ∧ (st two).sound = true ∧ (after (.frameSent 0) (st two)).cause = 4 ∧
      (restartCheck { two with tx := { two.tx with queue := [⟨4, r, 0⟩] } }).ev.reset = true ∧ restartCheck two = two := by
  decide +kernel

theorem test_restart_deadline :
    (after (.restartDeadline 0) (st { up with cmd := { restart := some (4, 10000000) }
                                              tx := { queue := [⟨4, .draw [], 0⟩], nextId := 5 } })).cause = 4 := by
  decide +kernel

end Sys2Proof.Tests
end

section
/-! The battery accountant's sample (chapter 1): what each stage of a sample answers and what it leaves as it was, what
the sample as a whole answers, and the statements about its charge, its state of charge, its rest-voltage table, its
allowance and its overdraw step. -/

namespace Sys2Proof.Machine

/-! ## The charge counter (R6 to R8) -/

theorem chargeStep_of_neg {current : Int} (eta : Nat) (h : current < 0) : chargeStep current eta = current * 100 :=
  if_pos h

theorem chargeStep_of_nonneg {current : Int} (eta : Nat) (h : 0 ≤ current) :
    chargeStep current eta = current * eta :=
  if_neg (not_lt.mpr h)

/-- The pair of counter and remainder stands for `1000 * q1 + f1` thousandths, and there is one such pair: it is what
the charge update clamps. -/
theorem applyCharge_eq {cap q f f1 : Nat} {dq q1 : Int} (hf1 : f1 ≤ 999) (h : 1000 * q1 + f1 = 1000 * q + f + dq) :
    applyCharge cap dq q f =
      if q1 < 0 then (0, 0) else if (cap : Int) ≤ q1 then (cap, 0) else (q1.toNat, f1) := by
  have hq : (q : Int) + (f + dq) / 1000 = q1 := by omega
  have hf : (f + dq) % 1000 = (f1 : Int) := by omega
  simp only [applyCharge, hq, hf, Int.toNat_natCast]

theorem applyCharge_bounds (cap : Nat) (dq : Int) (q f : Nat) :
    (applyCharge cap dq q f).1 ≤ cap ∧ (applyCharge cap dq q f).2 ≤ 999 := by
  rw [applyCharge_eq (q1 := q + (f + dq) / 1000) (f1 := ((f + dq) % 1000).toNat) (by omega) (by omega)]
  split_ifs with hneg hfull
  · exact ⟨Nat.zero_le _, Nat.zero_le _⟩
  · exact ⟨le_rfl, Nat.zero_le _⟩
  · constructor <;> dsimp only <;> omega

theorem socOf_le {cap q : Nat} (h : q ≤ cap) : socOf cap q ≤ 1000 :=
  Nat.div_le_of_le_mul (Nat.mul_le_mul_right 1000 h)

theorem socOf_eq_thousand_iff {cap q : Nat} (hcap : 0 < cap) (h : q ≤ cap) : socOf cap q = 1000 ↔ q = cap := by
  have hge : 1000 ≤ socOf cap q ↔ 1000 * cap ≤ q * 1000 := Nat.le_div_iff_mul_le hcap
  have hle := socOf_le h
  omega

theorem socOf_eq_zero {cap q : Nat} (h : q * 1000 < cap) : socOf cap q = 0 := Nat.div_eq_of_lt h

theorem capacity_pos {c : BatteryCfg} (h : 0 < c.capacityAh) : 0 < capacity c := Nat.mul_pos h (by decide)

/-! ## The rest-voltage table (R11) -/

theorem mapTable_of_lt_head {v : Nat} {p : Nat × Nat} {rest : List (Nat × Nat)} (h : v < p.1) :
    mapTable v (p :: rest) = p.2 := by
  cases rest with
  | nil => rfl
  | cons q rest => exact if_pos h

theorem mapTable_skip {v : Nat} {p q : Nat × Nat} {rest : List (Nat × Nat)} (hp : p.1 ≤ v) (hq : q.1 ≤ v) :
    mapTable v (p :: q :: rest) = mapTable v (q :: rest) :=
  (if_neg (not_lt.mpr hp)).trans (if_neg (not_lt.mpr hq))

theorem mapTable_segment {v : Nat} {p q : Nat × Nat} {rest : List (Nat × Nat)} (hp : p.1 ≤ v) (hq : v < q.1) :
    mapTable v (p :: q :: rest) =
      ((p.2 : Int) + ((v : Int) - p.1) * ((q.2 : Int) - p.2) / ((q.1 : Int) - p.1)).toNat :=
  (if_neg (not_lt.mpr hp)).trans (if_pos hq)

/-- On a rising segment the whole of R11's quotient is one of natural numbers. -/
theorem mapTable_rising_segment {v : Nat} {p q : Nat × Nat} {rest : List (Nat × Nat)} (hp : p.1 ≤ v) (hq : v < q.1)
    (hl : p.2 ≤ q.2) : mapTable v (p :: q :: rest) = p.2 + (v - p.1) * (q.2 - p.2) / (q.1 - p.1) := by
  rw [mapTable_segment hp hq, ← Nat.cast_sub hp, ← Nat.cast_sub hl, ← Nat.cast_sub (hp.trans hq.le)]
  exact Int.toNat_natCast _

theorem rising_segment_le {v : Nat} {p q : Nat × Nat} (hq : v < q.1) (hl : p.2 ≤ q.2) :
    p.2 + (v - p.1) * (q.2 - p.2) / (q.1 - p.1) ≤ q.2 := by
  have hpart : (v - p.1) * (q.2 - p.2) / (q.1 - p.1) ≤ q.2 - p.2 :=
    Nat.div_le_of_le_mul (Nat.mul_le_mul_right _ (by omega))
  omega

/-- Points whose successors the voltage has reached play no part: the scan of the table comes to the last point at or
below the voltage. -/
theorem mapTable_append {v : Nat} {p : Nat × Nat} {rest : List (Nat × Nat)} (hp : p.1 ≤ v) :
    ∀ before : List (Nat × Nat), (before ++ p :: rest).Pairwise (fun a b => a.1 < b.1 ∧ a.2 < b.2) →
      mapTable v (before ++ p :: rest) = mapTable v (p :: rest)
  | [], _ => rfl
  | [a], h => mapTable_skip ((List.rel_of_pairwise_cons h (by simp)).1.le.trans hp) hp
  | a :: b :: before, h => by
    have below : ∀ x ∈ a :: b :: before, x.1 ≤ v := fun x hx =>
      ((List.pairwise_append.mp h).2.2 x hx p List.mem_cons_self).1.le.trans hp
    have hskip : mapTable v (a :: b :: (before ++ p :: rest)) = mapTable v (b :: (before ++ p :: rest)) :=
      mapTable_skip (below a (by simp)) (below b (by simp))
    exact hskip.trans (mapTable_append hp (b :: before) h.of_cons)

/-- At a point the table gives the point's own level. -/
theorem mapTable_point {p : Nat × Nat} {rest : List (Nat × Nat)} (h : ∀ q ∈ rest, p.1 < q.1) :
    mapTable p.1 (p :: rest) = p.2 := by
  cases rest with
  | nil => rfl
  | cons q rest => simp [mapTable_segment le_rfl (h q List.mem_cons_self)]

/-- A part of a segment rises by no more than the whole segment, and on a falling segment not at all. -/
theorem segment_quotient_le {k w : Int} (h : Int) (hk : 0 ≤ k) (hkw : k ≤ w) : k * h / w ≤ max 0 h := by
  rcases hk.eq_or_lt with rfl | hpos
  · simp
  · refine Int.ediv_le_of_le_mul (hpos.trans_le hkw) ?_
    rcases le_total 0 h with hh | hh
    · rw [max_eq_right hh, mul_comm h]
      exact mul_le_mul_of_nonneg_right hkw hh
    · rw [max_eq_left hh, zero_mul]
      exact mul_nonpos_of_nonneg_of_nonpos hk hh

/-- Whatever the order of its points, a table answers no level above its highest. -/
theorem mapTable_le {v top : Nat} : ∀ table : List (Nat × Nat), (∀ p ∈ table, p.2 ≤ top) → mapTable v table ≤ top
  | [], _ => Nat.zero_le _
  | [p], h => h p List.mem_cons_self
  | p :: q :: rest, h => by
    have hp : p.2 ≤ top := h p (by simp)
    have hq : q.2 ≤ top := h q (by simp)
    rcases lt_or_ge v p.1 with below | hpv
    · rwa [mapTable_of_lt_head below]
    · rcases lt_or_ge v q.1 with within | hqv
      · have quotient := segment_quotient_le (k := (v : Int) - p.1) (w := (q.1 : Int) - p.1)
          ((q.2 : Int) - p.2) (by omega) (by omega)
        rw [mapTable_segment hpv within]
        omega
      · rw [mapTable_skip hpv hqv]
        exact mapTable_le (q :: rest) fun x hx => h x (List.mem_cons_of_mem p hx)

/-! ## The stages of a sample: what each leaves as it was -/

section
variable (c : BatteryCfg) (current : Int) (limit charge : Bool) (volt now soc a d : Nat) (b : Battery)

/-- A sync, at whatever level, leaves the timers, the band and the overdraw step alone. -/
@[simp] theorem syncTo_frame (level : Nat) : let b' := syncTo level now b
    b'.q = level ∧ b'.f = 0 ∧ b'.restCount = b.restCount ∧ b'.restSpent = b.restSpent ∧
      b'.fullCount = b.fullCount ∧ b'.fullSpent = b.fullSpent ∧ b'.cutoffRun = b.cutoffRun ∧
      b'.recoveryRun = b.recoveryRun ∧ b'.band = b.band ∧ b'.riseRun = b.riseRun ∧ b'.fallRun = b.fallRun ∧
      b'.step = b.step := by
  simp [syncTo]

@[simp] theorem restStage_frame : let b' := restStage c current limit volt now b
    b'.fullCount = b.fullCount ∧ b'.fullSpent = b.fullSpent ∧ b'.cutoffRun = b.cutoffRun ∧
      b'.recoveryRun = b.recoveryRun ∧ b'.band = b.band ∧ b'.riseRun = b.riseRun ∧ b'.fallRun = b.fallRun ∧
      b'.step = b.step := by
  unfold restStage
  split_ifs <;> simp

@[simp] theorem fullStage_frame : let b' := fullStage c current limit charge volt now b
    b'.restCount = b.restCount ∧ b'.restSpent = b.restSpent ∧ b'.cutoffRun = b.cutoffRun ∧
      b'.recoveryRun = b.recoveryRun ∧ b'.band = b.band ∧ b'.riseRun = b.riseRun ∧ b'.fallRun = b.fallRun ∧
      b'.step = b.step := by
  unfold fullStage
  split_ifs <;> simp

@[simp] theorem bandStage_frame : let b' := bandStage c volt soc charge b
    b'.q = b.q ∧ b'.f = b.f ∧ b'.synced = b.synced ∧ b'.syncAt = b.syncAt ∧ b'.minutes = b.minutes ∧
      b'.restCount = b.restCount ∧ b'.restSpent = b.restSpent ∧ b'.fullCount = b.fullCount ∧
      b'.fullSpent = b.fullSpent ∧ b'.riseRun = b.riseRun ∧ b'.fallRun = b.fallRun ∧ b'.step = b.step := by
  simp only [bandStage]
  split_ifs <;> simp

@[simp] theorem riseStage_frame : let b' := riseStage a d b
    b'.q = b.q ∧ b'.f = b.f ∧ b'.synced = b.synced ∧ b'.syncAt = b.syncAt ∧ b'.minutes = b.minutes ∧
      b'.restCount = b.restCount ∧ b'.restSpent = b.restSpent ∧ b'.fullCount = b.fullCount ∧
      b'.fullSpent = b.fullSpent ∧ b'.cutoffRun = b.cutoffRun ∧ b'.recoveryRun = b.recoveryRun ∧
      b'.band = b.band ∧ b'.fallRun = b.fallRun := by
  unfold riseStage
  split_ifs <;> simp

@[simp] theorem fallStage_frame : let b' := fallStage a d b
    b'.q = b.q ∧ b'.f = b.f ∧ b'.synced = b.synced ∧ b'.syncAt = b.syncAt ∧ b'.minutes = b.minutes ∧
      b'.restCount = b.restCount ∧ b'.restSpent = b.restSpent ∧ b'.fullCount = b.fullCount ∧
      b'.fullSpent = b.fullSpent ∧ b'.cutoffRun = b.cutoffRun ∧ b'.recoveryRun = b.recoveryRun ∧
      b'.band = b.band ∧ b'.riseRun = b.riseRun := by
  unfold fallStage
  split_ifs <;> simp

end

/-! ## The stages of a sample: what each answers -/

section
variable {c : BatteryCfg} {current : Int} {limit charge : Bool} {volt now soc a d : Nat} {b : Battery}

/-- The rest timer keeps the counter, or its sync replaces it by the level of the table (R10 to R12). -/
theorem restStage_charge (c : BatteryCfg) (current : Int) (limit : Bool) (volt now : Nat) (b : Battery) :
    ((restStage c current limit volt now b).q = b.q ∧ (restStage c current limit volt now b).f = b.f) ∨
      ((restStage c current limit volt now b).q = mapTable volt c.table * capacity c / 1000 ∧
        (restStage c current limit volt now b).f = 0 ∧ c.restMinutes * 600 ≤ b.restCount + 1) := by
  unfold restStage
  split_ifs with hrest hspent hshort
  · exact .inl ⟨rfl, rfl⟩
  · exact .inl ⟨rfl, rfl⟩
  · exact .inl ⟨rfl, rfl⟩
  · exact .inr ⟨by simp, by simp, not_lt.mp hshort⟩

/-- The full timer keeps the counter, or its sync fills it (R13). -/
theorem fullStage_charge (c : BatteryCfg) (current : Int) (limit charge : Bool) (volt now : Nat) (b : Battery) :
    ((fullStage c current limit charge volt now b).q = b.q ∧ (fullStage c current limit charge volt now b).f = b.f) ∨
      ((fullStage c current limit charge volt now b).q = capacity c ∧
        (fullStage c current limit charge volt now b).f = 0 ∧ 1200 ≤ b.fullCount + 1) := by
  unfold fullStage
  split_ifs with hfull hspent hshort
  · exact .inl ⟨rfl, rfl⟩
  · exact .inl ⟨rfl, rfl⟩
  · exact .inl ⟨rfl, rfl⟩
  · exact .inr ⟨by simp, by simp, not_lt.mp hshort⟩

/-- With the charge source active a sample is in NORMAL or in CUTOFF (R15, R17, R18). -/
theorem bandStage_band_of_charge (c : BatteryCfg) (volt soc : Nat) (b : Battery) :
    (bandStage c volt soc true b).band = .normal ∨ (bandStage c volt soc true b).band = .cutoff := by
  simp only [bandStage]
  split_ifs with hcut <;> simp [hcut]

/-! The allowance (R20, R21). -/

/-- Between its two temperatures the derate factor is the spec's line, whose rise is never negative (R20). -/
theorem derate_between {t : Int} (h2 : c.td2 < t) (h1 : t < c.td1) :
    (derate c (some t) : Int) = 50 + 50 * (t - c.td2) / (c.td1 - c.td2) := by
  have rise : 0 ≤ 50 * (t - c.td2) / (c.td1 - c.td2) := Int.ediv_nonneg (by omega) (by omega)
  simp only [derate, if_neg (not_le.mpr h1), if_neg (not_le.mpr h2)]
  omega

theorem derate_of_ge {t : Int} (h : c.td1 ≤ t) : derate c (some t) = 100 := if_pos h

theorem derate_of_le {t : Int} (h : c.td2 < c.td1) (ht : t ≤ c.td2) : derate c (some t) = 50 :=
  (if_neg (not_le.mpr (ht.trans_lt h))).trans (if_pos ht)

theorem derate_le (c : BatteryCfg) (temp : Option Int) : derate c temp ≤ 100 := by
  cases temp with
  | none => exact (by decide : 75 ≤ 100)
  | some t =>
    rcases le_or_gt c.td1 t with warm | below
    · exact (derate_of_ge warm).le
    · rcases le_or_gt t c.td2 with cold | above
      · simp [derate, not_le.mpr below, cold]
      · have line := derate_between above below
        have part : 50 * (t - c.td2) / (c.td1 - c.td2) ≤ 50 := Int.ediv_le_of_le_mul (by omega) (by omega)
        omega

theorem allowanceOf_le (c : BatteryCfg) (band : Band) (charge : Bool) (temp : Option Int) :
    allowanceOf c band charge temp ≤ baseLimit c band charge := by
  refine Nat.div_le_of_le_mul ?_
  rw [mul_comm 100]
  exact Nat.mul_le_mul_left _ (derate_le c temp)

theorem allowanceOf_cutoff (c : BatteryCfg) (charge : Bool) (temp : Option Int) :
    allowanceOf c .cutoff charge temp = 0 :=
  Nat.le_zero.mp (allowanceOf_le c .cutoff charge temp)

/-! The runs of the overdraw test (R22, R23). -/

theorem riseStage_of_within (h : d ≤ a + overdrawMargin a) : riseStage a d b = { b with riseRun := 0 } := if_pos h

theorem riseStage_of_run (h : a + overdrawMargin a < d) (hrun : b.riseRun + 1 < 20) :
    riseStage a d b = { b with riseRun := b.riseRun + 1 } :=
  (if_neg (not_le.mpr h)).trans (if_pos hrun)

theorem riseStage_of_full_run (h : a + overdrawMargin a < d) (hrun : 20 ≤ b.riseRun + 1) :
    riseStage a d b = { b with riseRun := 0, step := min 4 (b.step + 1) } :=
  (if_neg (not_le.mpr h)).trans (if_neg (not_lt.mpr hrun))

theorem fallStage_of_above (h : a * 9 / 10 < d) : fallStage a d b = { b with fallRun := 0 } := if_pos h

theorem fallStage_of_run (h : d ≤ a * 9 / 10) (hrun : b.fallRun + 1 < 300) :
    fallStage a d b = { b with fallRun := b.fallRun + 1 } :=
  (if_neg (not_lt.mpr h)).trans (if_pos hrun)

theorem fallStage_of_full_run (h : d ≤ a * 9 / 10) (hrun : 300 ≤ b.fallRun + 1) :
    fallStage a d b = { b with fallRun := 0, step := b.step - 1 } :=
  (if_neg (not_lt.mpr h)).trans (if_neg (not_lt.mpr hrun))

/-- A discharge above the rise threshold is above the fall threshold. -/
theorem fall_lt_of_rise (h : a + overdrawMargin a < d) : a * 9 / 10 < d := by
  unfold overdrawMargin at h
  omega

theorem riseStage_step (h : ¬(a + overdrawMargin a < d ∧ 20 ≤ b.riseRun + 1)) : (riseStage a d b).step = b.step := by
  rcases le_or_gt d (a + overdrawMargin a) with within | heavy
  · rw [riseStage_of_within within]
  · rw [riseStage_of_run heavy (not_le.mp fun run => h ⟨heavy, run⟩)]

theorem fallStage_step (h : ¬(d ≤ a * 9 / 10 ∧ 300 ≤ b.fallRun + 1)) : (fallStage a d b).step = b.step := by
  rcases le_or_gt d (a * 9 / 10) with slight | above
  · rw [fallStage_of_run slight (not_le.mp fun run => h ⟨slight, run⟩)]
  · rw [fallStage_of_above above]

theorem riseStage_step_le (h : b.step ≤ 4) : (riseStage a d b).step ≤ 4 := by
  unfold riseStage
  split_ifs
  · exact h
  · exact h
  · exact min_le_left _ _

theorem fallStage_step_le (h : b.step ≤ 4) : (fallStage a d b).step ≤ 4 := by
  unfold fallStage
  split_ifs
  · exact h
  · exact h
  · exact (Nat.sub_le _ _).trans h

/-- The two stages together: a run that the sample does not continue starts anew, one that it completes moves the step,
and no sample moves the step both ways. -/
theorem overdraw_stages (a d : Nat) (b : Battery) :
    let b' := fallStage a d (riseStage a d b)
    let heavy : Prop := a + overdrawMargin a < d
    let slight : Prop := d ≤ a * 9 / 10
    (¬ heavy → b'.riseRun = 0) ∧
    (heavy → b.riseRun + 1 < 20 → b'.riseRun = b.riseRun + 1) ∧
    (heavy → 20 ≤ b.riseRun + 1 → b'.riseRun = 0 ∧ b'.step = min 4 (b.step + 1)) ∧
    (¬ slight → b'.fallRun = 0) ∧
    (slight → b.fallRun + 1 < 300 → b'.fallRun = b.fallRun + 1) ∧
    (slight → 300 ≤ b.fallRun + 1 → b'.fallRun = 0 ∧ b'.step = b.step - 1) ∧
    (¬ (heavy ∧ 20 ≤ b.riseRun + 1) → ¬ (slight ∧ 300 ≤ b.fallRun + 1) → b'.step = b.step) := by
  intro b' heavy slight
  have hfall : (riseStage a d b).fallRun = b.fallRun := by simp
  have hrise : b'.riseRun = (riseStage a d b).riseRun := by simp [b']
  have not_heavy (h : slight) : riseStage a d b = { b with riseRun := 0 } :=
    riseStage_of_within (not_lt.mp fun hh => not_lt.mpr h (fall_lt_of_rise hh))
  refine ⟨fun h => ?_, fun h run => ?_, fun h run => ⟨?_, ?_⟩, fun h => ?_, fun h run => ?_, fun h run => ?_,
    fun h h' => ?_⟩
  · rw [hrise, riseStage_of_within (not_lt.mp h)]
  · rw [hrise, riseStage_of_run h run]
  · rw [hrise, riseStage_of_full_run h run]
  · rw [fallStage_step (fun hs => not_lt.mpr hs.1 (fall_lt_of_rise h)), riseStage_of_full_run h run]
  · exact congrArg Battery.fallRun (fallStage_of_above (not_le.mp h))
  · exact (congrArg Battery.fallRun (fallStage_of_run h (hfall ▸ run))).trans (congrArg (· + 1) hfall)
  · simp only [b', fallStage_of_full_run h (hfall ▸ run), not_heavy h, and_self]
  · rw [fallStage_step (hfall ▸ h'), riseStage_step h]

theorem bandFloor_le (band : Band) : bandFloor band ≤ 4 := by cases band <;> decide

end

/-! ## The sample as a whole (R2) -/

section
variable (c : BatteryCfg) (raw : Int) (volt now : Nat) (temp : Option Int) (charge : Bool) (b : Battery)

/-- The current of a sample (R3). -/
def sampleCurrent : Int := shuntCurrent (shuntCount raw).1 c.shunt

/-- The record after stage 2: the charge update. -/
def countedBattery : Battery :=
  let qf := applyCharge (capacity c) (chargeStep (sampleCurrent c raw) c.eta) b.q b.f
  { b with q := qf.1, f := qf.2 }

/-- The record after the rest timer. -/
def restedBattery : Battery :=
  restStage c (sampleCurrent c raw) (shuntCount raw).2 (sampleVoltage volt) now (countedBattery c raw b)

/-- The record after stage 3, with both timers and their syncs. -/
def chargedBattery : Battery :=
  fullStage c (sampleCurrent c raw) (shuntCount raw).2 charge (sampleVoltage volt) now (restedBattery c raw volt now b)

/-- The record after stage 5: the band of the state of charge. -/
def bandedBattery : Battery :=
  bandStage c (sampleVoltage volt) (socOf (capacity c) (chargedBattery c raw volt now charge b).q) charge
    (chargedBattery c raw volt now charge b)

/-- The record after stage 7: the overdraw step at the allowance of the band. -/
def steppedBattery : Battery :=
  let banded := bandedBattery c raw volt now charge b
  let a := allowanceOf c banded.band charge temp
  let d := dischargeOf (sampleCurrent c raw)
  fallStage a d (riseStage a d banded)

/-- A sample runs its stages, and records what they give. -/
theorem sampleBattery_eq : sampleBattery c raw volt now temp charge b =
    let b' := steppedBattery c raw volt now temp charge b
    { b' with last := some {
        current := sampleCurrent c raw, voltage := sampleVoltage volt
        soc := socOf (capacity c) (chargedBattery c raw volt now charge b).q, temp := temp
        charge := charge, band := b'.band
        allowance := allowanceOf c (bandedBattery c raw volt now charge b).band charge temp, shed := shedLevel b'
        unsynced := !b'.synced, overdraw := decide (0 < b'.step) } } := rfl

/-- The stages after the syncs leave the counter, and those after the band's stage the band. -/
theorem sampleBattery_frame : let b' := sampleBattery c raw volt now temp charge b
    b'.q = (chargedBattery c raw volt now charge b).q ∧ b'.f = (chargedBattery c raw volt now charge b).f ∧
      b'.band = (bandedBattery c raw volt now charge b).band := by
  simp [sampleBattery_eq, steppedBattery, bandedBattery]

theorem bandedBattery_runs : let b' := bandedBattery c raw volt now charge b
    b'.riseRun = b.riseRun ∧ b'.fallRun = b.fallRun ∧ b'.step = b.step := by
  simp [bandedBattery, chargedBattery, restedBattery, countedBattery]

/-- The runs and the step of a sample are those of the two overdraw stages at the allowance it records. -/
theorem sampleBattery_overdraw : let b' := sampleBattery c raw volt now temp charge b
    let a := allowanceOf c b'.band charge temp
    let d := dischargeOf (sampleCurrent c raw)
    let stepped := fallStage a d (riseStage a d (bandedBattery c raw volt now charge b))
    b'.riseRun = stepped.riseRun ∧ b'.fallRun = stepped.fallRun ∧ b'.step = stepped.step := by
  dsimp only
  rw [(sampleBattery_frame c raw volt now temp charge b).2.2]
  exact ⟨rfl, rfl, rfl⟩

variable {c raw volt now temp charge b}

/-- What a sample records is read off the record it leaves. -/
theorem sampleBattery_last : let b' := sampleBattery c raw volt now temp charge b
    b'.last = some {
      current := sampleCurrent c raw, voltage := sampleVoltage volt, soc := socOf (capacity c) b'.q, temp := temp
      charge := charge, band := b'.band, allowance := allowanceOf c b'.band charge temp, shed := shedLevel b'
      unsynced := !b'.synced, overdraw := decide (0 < b'.step) } := by
  obtain ⟨hq, -, hband⟩ := sampleBattery_frame c raw volt now temp charge b
  have hstepped : (steppedBattery c raw volt now temp charge b).band = (bandedBattery c raw volt now charge b).band :=
    hband
  refine (congrArg Battery.last (sampleBattery_eq c raw volt now temp charge b)).trans ?_
  dsimp only
  rw [hq, hband, hstepped]
  rfl

/-- A sample that is too early for either timer leaves the counter as the charge update gives it. -/
theorem chargedBattery_of_no_sync (hrest : b.restCount + 1 < c.restMinutes * 600) (hfull : b.fullCount + 1 < 1200) :
    ((chargedBattery c raw volt now charge b).q, (chargedBattery c raw volt now charge b).f) =
      applyCharge (capacity c) (chargeStep (sampleCurrent c raw) c.eta) b.q b.f := by
  have fullCount : (restedBattery c raw volt now b).fullCount = b.fullCount := by
    simp [restedBattery, countedBattery]
  obtain ⟨fullQ, fullF⟩ := (fullStage_charge c (sampleCurrent c raw) (shuntCount raw).2 charge (sampleVoltage volt) now
    (restedBattery c raw volt now b)).resolve_right fun ⟨_, _, full⟩ => by omega
  obtain ⟨restQ, restF⟩ := (restStage_charge c (sampleCurrent c raw) (shuntCount raw).2 (sampleVoltage volt) now
    (countedBattery c raw b)).resolve_right fun ⟨_, _, full⟩ => not_le.mpr hrest full
  exact Prod.ext (fullQ.trans restQ) (fullF.trans restF)

/-- No sample leaves more than the capacity in the counter. -/
theorem chargedBattery_q_le (htable : ∀ p ∈ c.table, p.2 ≤ 1000) :
    (chargedBattery c raw volt now charge b).q ≤ capacity c := by
  have counted : (countedBattery c raw b).q ≤ capacity c := (applyCharge_bounds (capacity c) _ b.q b.f).1
  have level : mapTable (sampleVoltage volt) c.table * capacity c / 1000 ≤ capacity c :=
    Nat.div_le_of_le_mul (Nat.mul_le_mul_right _ (mapTable_le c.table htable))
  have rested : (restedBattery c raw volt now b).q ≤ capacity c := by
    rcases restStage_charge c (sampleCurrent c raw) (shuntCount raw).2 (sampleVoltage volt) now
      (countedBattery c raw b) with ⟨kept, -⟩ | ⟨synced, -⟩
    · exact kept.trans_le counted
    · exact synced.trans_le level
  rcases fullStage_charge c (sampleCurrent c raw) (shuntCount raw).2 charge (sampleVoltage volt) now
    (restedBattery c raw volt now b) with ⟨kept, -⟩ | ⟨synced, -⟩
  · exact kept.trans_le rested
  · exact synced.le

end

/-! ## The statements -/

/-- Settles O13: the clamped pair is the one pair that stands for the sum of thousandths, and a sample too early for a
sync leaves it. -/
theorem chargeStepAndClamps : Obligations.ChargeStepAndClamps := by
  unfold Obligations.ChargeStepAndClamps
  refine ⟨fun current eta => ⟨chargeStep_of_neg eta, chargeStep_of_nonneg eta⟩, fun cap q f dq _ => ?_,
    fun cap q hq hcap => ?_, fun c raw volt now temp charge b hrest hfull => ?_⟩
  · obtain ⟨hle, hrem⟩ := applyCharge_bounds cap dq q f
    refine ⟨hle, hrem, fun _ => socOf_le hle, fun q1 f1 hf1 hsum => ⟨fun neg => ?_, fun full => ?_, fun pos below => ?_⟩⟩
    · rw [applyCharge_eq hf1 hsum, if_pos neg]
    · rw [applyCharge_eq hf1 hsum, if_neg (by omega), if_pos full]
    · rw [applyCharge_eq hf1 hsum, if_neg (not_lt.mpr pos), if_neg (not_le.mpr below)]
  · rw [applyCharge_eq (q1 := (q - 2 : Nat)) (f1 := 700) (by omega) (by omega), if_neg (by omega), if_neg (by omega)]
    rfl
  · obtain ⟨hq, hf, -⟩ := sampleBattery_frame c raw volt now temp charge b
    exact (congrArg₂ Prod.mk hq hf).trans (chargedBattery_of_no_sync hrest hfull)

/-- Settles O14: the counter never passes the capacity, so the division of R8 is 1 000 at the capacity alone. -/
theorem socOfASample : Obligations.SocOfASample := by
  unfold Obligations.SocOfASample
  intro c raw volt now temp charge b hcap htable b'
  have hle : b'.q ≤ capacity c := (sampleBattery_frame c raw volt now temp charge b).1.trans_le
    (chargedBattery_q_le htable)
  refine ⟨_, sampleBattery_last, rfl, socOf_eq_thousand_iff (capacity_pos hcap) hle, socOf_eq_zero, fun h200 => ?_⟩
  have thousandth : capacity c = 720000 * 1000 := by rw [capacity, h200]
  change b'.q * 1000 / capacity c = b'.q / 720000
  rw [thousandth, Nat.mul_div_mul_right _ _ (by decide)]

/-- Settles O16: the scan of a rising table comes to the last point at or below the voltage, and answers there by that
point's segment. -/
theorem restVoltageTable : Obligations.RestVoltageTable := by
  unfold Obligations.RestVoltageTable
  intro table v _ _ rising
  refine ⟨fun p hp below => ?_, fun p hp above => ?_, fun i p q hp hq hpv hvq => ?_, fun p hp at_point => ?_⟩
  · obtain ⟨rest, rfl⟩ := List.head?_eq_some_iff.mp hp
    exact mapTable_of_lt_head below
  · obtain ⟨before, rfl⟩ := List.getLast?_eq_some_iff.mp hp
    exact mapTable_append above before rising
  · obtain ⟨hi, rfl⟩ := List.getElem?_eq_some_iff.mp hp
    obtain ⟨hi', rfl⟩ := List.getElem?_eq_some_iff.mp hq
    have split : table = table.take i ++ table[i] :: table[i + 1] :: table.drop (i + 2) := by
      rw [← List.drop_eq_getElem_cons hi', ← List.drop_eq_getElem_cons hi, List.take_append_drop]
    have levels : table[i].2 ≤ table[i + 1].2 :=
      (List.pairwise_iff_getElem.mp rising i (i + 1) hi hi' (Nat.lt_succ_self i)).2.le
    have scan : mapTable v table = mapTable v (table[i] :: table[i + 1] :: table.drop (i + 2)) := by
      conv_lhs => rw [split]
      exact mapTable_append hpv _ (split ▸ rising)
    rw [scan, mapTable_rising_segment hpv hvq levels]
    exact ⟨rfl, rising_segment_le hvq levels⟩
  · obtain ⟨before, rest, rfl⟩ := List.append_of_mem hp
    subst at_point
    have later : ∀ q ∈ rest, p.1 < q.1 := fun q hq =>
      (List.rel_of_pairwise_cons (List.pairwise_append.mp rising).2.1 hq).1
    exact (mapTable_append le_rfl before rising).trans (mapTable_point later)

/-- Settles O18: the factor is at most 100 per cent, and the band's stage gives NORMAL or CUTOFF with the charge source
active. -/
theorem allowanceOfASample : Obligations.AllowanceOfASample := by
  unfold Obligations.AllowanceOfASample
  refine ⟨fun c => ⟨rfl, fun t => derate_of_ge, fun t => derate_of_le, fun t => derate_between, fun h1 h2 => ?_⟩,
    fun c raw volt now temp charge b r hlast => ?_⟩
  · have percent_per_step : ∀ k : Nat, k ≤ 50 → derate c (some (-4 * k)) = 100 - k := fun k hk => by
      rcases Nat.eq_zero_or_pos k with rfl | hpos
      · exact derate_of_ge (by omega)
      · rcases hk.eq_or_lt with rfl | hlt
        · exact derate_of_le (by omega) (by omega)
        · have line := derate_between (c := c) (t := -4 * k) (by omega) (by omega)
          rw [h1, h2] at line
          omega
    exact ⟨percent_per_step 20 (by decide), percent_per_step⟩
  · obtain rfl := Option.some.inj (sampleBattery_last.symm.trans hlast)
    obtain ⟨-, -, hband⟩ := sampleBattery_frame c raw volt now temp charge b
    refine ⟨rfl, rfl, rfl, rfl, rfl, rfl, rfl, rfl, fun hcharge => ?_, allowanceOf_le _ _ _ _, fun hcut => ?_⟩
    · subst hcharge
      dsimp only
      rw [hband]
      rcases bandStage_band_of_charge c (sampleVoltage volt)
        (socOf (capacity c) (chargedBattery c raw volt now true b).q) (chargedBattery c raw volt now true b)
        with normal | cutoff
      · simp [bandedBattery, normal]
      · simp [bandedBattery, cutoff]
    · dsimp only at hcut ⊢
      rw [hcut, allowanceOf_cutoff]

/-- Settles O19: the two overdraw stages on the record that the band's stage leaves, whose runs and step are those
before the sample. -/
theorem overdrawAndShedLevel : Obligations.OverdrawAndShedLevel := by
  unfold Obligations.OverdrawAndShedLevel
  intro c raw volt now temp charge b r b' hlast
  obtain rfl := Option.some.inj (sampleBattery_last.symm.trans hlast)
  obtain ⟨rise, fall, step⟩ := sampleBattery_overdraw c raw volt now temp charge b
  obtain ⟨rise0, fall0, step0⟩ := bandedBattery_runs c raw volt now charge b
  have stages := overdraw_stages (allowanceOf c (sampleBattery c raw volt now temp charge b).band charge temp)
    (dischargeOf (sampleCurrent c raw)) (bandedBattery c raw volt now charge b)
  simp only [← rise, ← fall, ← step, rise0, fall0, step0] at stages
  obtain ⟨riseEnds, riseRuns, riseFull, fallEnds, fallRuns, fallFull, kept⟩ := stages
  have step_le (h : b.step ≤ 4) : b'.step ≤ 4 :=
    step.trans_le (fallStage_step_le (riseStage_step_le (step0.trans_le h)))
  refine ⟨riseEnds, riseRuns, riseFull, fallEnds, fallRuns, fallFull, kept, rfl, ?_,
    fun h => ⟨step_le h, max_le (bandFloor_le b'.band) (step_le h)⟩⟩
  change max (bandFloor b'.band) b'.step = _
  cases b'.band <;> rfl

end Sys2Proof.Machine
end

section
/-!
# Proofs: draw claims and shedding (chapter 3)

R55 ranks claims by class, then station, then slot. `rankKey` reads that as a lexicographic order, where Mathlib knows
that `<` is asymmetric, transitive and total; `outranks` is its `<`.
-/
namespace Sys2Proof.Machine

/-- A rank as a key of the lexicographic order. The class is dualised: the higher class comes first (R55). -/
def rankKey (a : Nat × Nat × Nat) : Natᵒᵈ ×ₗ (Nat ×ₗ Nat) :=
  toLex (OrderDual.toDual a.1, toLex a.2)

/-- Claims that differ in class, station or slot are never level: the quoted ground of R55 for totality. -/
theorem rankKey_injective : Function.Injective rankKey := by
  intro a b h
  simpa only [rankKey, EmbeddingLike.apply_eq_iff_eq, Prod.mk.injEq, Prod.ext_iff] using h

theorem outranks_iff {a b : Nat × Nat × Nat} :
    outranks a b = true ↔ b.1 < a.1 ∨ a.1 = b.1 ∧ (a.2.1 < b.2.1 ∨ a.2.1 = b.2.1 ∧ a.2.2 < b.2.2) := by
  simp only [outranks, Bool.or_eq_true, Bool.and_eq_true, decide_eq_true_eq, beq_iff_eq]

theorem outranks_iff_rankKey_lt {a b : Nat × Nat × Nat} : outranks a b = true ↔ rankKey a < rankKey b := by
  simp only [outranks_iff, rankKey, Prod.Lex.toLex_lt_toLex, OrderDual.toDual_lt_toDual, OrderDual.toDual_inj]

theorem outranks_asymm {a b : Nat × Nat × Nat} (h : outranks a b = true) : outranks b a = false :=
  Bool.eq_false_iff.mpr fun back =>
    lt_asymm (outranks_iff_rankKey_lt.mp h) (outranks_iff_rankKey_lt.mp back)

theorem outranks_trans {a b c : Nat × Nat × Nat} (hab : outranks a b = true) (hbc : outranks b c = true) :
    outranks a c = true :=
  outranks_iff_rankKey_lt.mpr ((outranks_iff_rankKey_lt.mp hab).trans (outranks_iff_rankKey_lt.mp hbc))

theorem outranks_total {a b : Nat × Nat × Nat} (h : a ≠ b) : outranks a b = true ∨ outranks b a = true :=
  (lt_or_gt_of_ne (rankKey_injective.ne h)).imp outranks_iff_rankKey_lt.mpr outranks_iff_rankKey_lt.mpr

/-- A node that has a number ranks its own claims by it; the 15 of R39 is for a node without one. -/
theorem ownRank_of_station {n : Node} {i : Fin 8} {k : Nat} (h : n.station = some k) :
    ownRank n i = ((n.claim i).cls, k, i.val) := by
  simp only [ownRank, Node.rankNumber, h, Option.getD_some]

/-- Settles O26: `outranks` is the strict part of the lexicographic order of `rankKey`. -/
theorem rankIsTotal : Obligations.RankIsTotal := by
  unfold Obligations.RankIsTotal
  refine ⟨fun a b hcls => ?_, fun a b hcls hstation => ?_, fun a b hcls hstation hslot => ?_,
    fun a b => outranks_asymm, fun a b c => outranks_trans, fun a b => outranks_total,
    fun n i k => ownRank_of_station⟩
  · exact outranks_iff.mpr (.inl hcls)
  · exact outranks_iff.mpr (.inr ⟨hcls, .inl hstation⟩)
  · exact outranks_iff.mpr (.inr ⟨hcls, .inr ⟨hstation, hslot⟩⟩)

end Sys2Proof.Machine
end

section
/-!
# Proofs: the ladder of a tank (chapter 4)

R77 counts the wet probes upward to the first dry one. `wetRun` is that count; every fact here follows from its value
on a run of wet probes, its bound, and the dry probe, or none, that stands at its end.
-/
namespace Sys2Proof.Machine

theorem wetRun_replicate_append (k : Nat) (rest : List Bool) :
    wetRun (List.replicate k true ++ rest) = k + wetRun rest := by
  induction k with
  | zero => simp only [List.replicate_zero, List.nil_append, Nat.zero_add]
  | succ k ih => rw [List.replicate_succ, List.cons_append, wetRun, ih, Nat.add_right_comm]

/-- The two shapes of a ladder in R77: all probes wet, or a first dry probe above `k` wet ones. -/
theorem wetRun_of_shape {k n : Nat} {probes above : List Bool}
    (shape : k = n ∧ probes = List.replicate n true ∨ k < n ∧ probes = List.replicate k true ++ false :: above) :
    wetRun probes = k := by
  rcases shape with ⟨rfl, rfl⟩ | ⟨-, rfl⟩
  · simpa only [List.append_nil, wetRun, Nat.add_zero] using wetRun_replicate_append k []
  · exact wetRun_replicate_append k (false :: above)

theorem wetRun_le_length (probes : List Bool) : wetRun probes ≤ probes.length := by
  induction probes with
  | nil => exact le_rfl
  | cons p rest ih =>
    cases p with
    | false => exact Nat.zero_le _
    | true => exact Nat.succ_le_succ ih

theorem getElem?_wetRun_ne_wet (probes : List Bool) : probes[wetRun probes]? ≠ some true := by
  induction probes with
  | nil => exact nofun
  | cons p rest ih =>
    cases p with
    | false => exact nofun
    | true => simpa only [wetRun, List.getElem?_cons_succ] using ih

/-- The model looks for a wet probe from the end of the wet run on; the probe at the end itself is never wet. -/
theorem inconsistent_iff (probes : List Bool) :
    inconsistent probes = true ↔ ∃ i, wetRun probes < i ∧ probes[i]? = some true := by
  simp only [inconsistent, List.contains_iff_mem, List.mem_iff_getElem?, List.getElem?_drop]
  constructor
  · rintro ⟨j, wet⟩
    have above : j ≠ 0 := by
      rintro rfl
      exact getElem?_wetRun_ne_wet probes wet
    exact ⟨wetRun probes + j, Nat.lt_add_of_pos_right (Nat.pos_of_ne_zero above), wet⟩
  · rintro ⟨i, above, wet⟩
    exact ⟨i - wetRun probes, by rwa [Nat.add_sub_of_le above.le]⟩

/-- A ladder of three probes has four results, one for each length of its wet run. -/
theorem ladderLevel_of_three {probes : List Bool} (three : probes.length = 3) :
    ladderLevel probes ∈ [0, 333, 666, 1000] := by
  have bound : wetRun probes ≤ 3 := three ▸ wetRun_le_length probes
  rw [ladderLevel, three]
  interval_cases wetRun probes <;> decide

/-- Settles O33: the shape of the probes gives the wet run, and the run gives the level and the consistency. -/
theorem ladderResult : Obligations.LadderResult := by
  unfold Obligations.LadderResult
  refine ⟨fun k n probes above _ hlen shape => ?_, by decide, by decide, fun probes => ladderLevel_of_three⟩
  have run : wetRun probes = k := wetRun_of_shape shape
  exact ⟨by rw [ladderLevel, run, hlen], run ▸ inconsistent_iff probes⟩

end Sys2Proof.Machine
end

section
/-!
# Proofs: every step keeps the sound states and the law of sheds

`Fit` (Laws/Sound.lean) is kept by every operation and by the end of an event. Here each row's own effect is put
together from those operations, `EffectKeeps`, and an event whose effect keeps `Fit` keeps both invariants,
`StepKeeps`.
-/
namespace Sys2Proof.Machine

namespace Fit

variable {B W : Prop} {br : MotionUnit → Bridge} {n : Node}

/-! ## Operations that the rows share -/

/-- A decided node state in place of another. -/
theorem withState {st : NodeState} (h : Fit B W br n) : Fit B W br { n with state := some st } where
  decided := rfl
  queue := h.queue
  table := h.table
  counters := h.counters
  law := fun w => (shedLaw_iff _).mpr fun i => ⟨((shedLaw_iff n).mp (h.law w) i).1, .inl rfl⟩
  runs := h.runs
  bridges := h.bridges
  list := h.list

theorem withFree {k : Nat} (h : Fit B W br n) : Fit B W br { n with free := k } :=
  ⟨h.1, h.2, h.3, h.4, h.5, h.6, h.7, h.8⟩

/-- A transmitter with the same queue, whose queued part is no longer than it was. -/
theorem sameQueue {v : Transmitter} (h : Fit B W br n) (hq : v.queue = n.tx.queue) (hn : v.nextId = n.tx.nextId)
    (hs : (queuedPart v).Sublist (queuedPart n.tx)) : Fit B W br (n.setTx v) :=
  h.requeue (by rw [hq]) hn fun b => (periodicKinds_sublist hs).nodup ((queue_iff n).mp (h.queue b)).2.2.2

theorem setBridge {u v} (h : Fit B W br n)
    (hv : bridgeFits (n.bridge u) = true → bridgeFits v = true ∧ DwellKept n.now (n.bridge u) v) :
    Fit B W br (n.setBridge u v) := h.job ((JobKeeps.refl n).setBridge hv)

theorem onHeater {f : HeaterCfg → Node → Node} (h : Fit B W br n) (hf : ∀ c, Fit B W br (f c n)) :
    Fit B W br (onHeater f n) := by
  unfold Machine.onHeater
  split
  · exact hf _
  · exact h

theorem onUnit {u : MotionUnit} {f : UnitCfg → Node → Node} (h : Fit B W br n) (hf : ∀ c, Fit B W br (f c n)) :
    Fit B W br (onUnit u f n) := by
  unfold Machine.onUnit
  split
  · exact hf _
  · exact h

/-! ## The station view and the claim table -/

theorem enterActive (h : Fit B W br n) : Fit B W br (enterActive n) := by
  have active : Fit B W br { n with state := some NodeState.active } := h.withState
  have listened := (active.setView (v := { n.view with listen := none }) active.peers rfl).wantWait
  simp only [Machine.enterActive]
  split
  · exact listened.pumpBegin.heaterCheck
  · exact listened.heaterCheck

theorem settleEnd (h : Fit B W br n) : Fit B W br (settleEnd n) := foldl _ (fun _ _ k => k.tellGranted) _ _ h.settleClaims

theorem fallBack {i} (h : Fit B W br n) (hs : (n.claim i).state ≠ .idle) : Fit B W br (Machine.fallBack i n) :=
  h.job ((JobKeeps.refl n).fallBack hs)

/-! ## Tanks, pump and frost monitor -/

theorem pumpSwitch {c on} (h : Fit B W br n) : Fit B W br (pumpSwitch c on n) := by
  simp only [Machine.pumpSwitch]
  repeat' split
  · exact h.setPump.pumpBegin
  · exact h.setPump.pumpStop.pumpTo
  · exact h.setPump

theorem pumpDryOut (h : Fit B W br n) : Fit B W br (pumpDryOut n) := by
  unfold Machine.pumpDryOut
  split
  · exact h.pumpDry
  · exact h

theorem countdownEnd (h : Fit B W br n) : Fit B W br (countdownEnd n) := by
  unfold Machine.countdownEnd
  split
  · exact h.beginMove.ite h.frostTo
  · exact h

/-! ## Motion and bridges -/

theorem targetEnd {u c} (h : Fit B W br n) : Fit B W br (targetEnd u c n) := h.bridgeBrake.finishMove

theorem currentReading {u mA c} (h : Fit B W br n) (hd : bridgeDrives u n = true) :
    Fit B W br (currentReading u mA c n) := by
  refine (h.setBridge fun f => ?_).setUnit
  have kept := DwellKept.refl (now := n.now) f
  refine ⟨?_, kept.drive, kept.last, kept.coast⟩
  simp only [bridgeDrives, Bool.or_eq_true, beq_iff_eq] at hd
  rcases hd with hd | hd <;> simpa [bridgeFits, hd] using f

theorem bridgeFault {u c} (h : Fit B W br n) : Fit B W br (bridgeFault u c n) := by
  have faulted : Fit B W br (n.setBridge u
      { n.bridge u with state := .fault, coastSince := some n.now, pending := none, due := none }) :=
    h.setBridge fun _ => ⟨by simp [bridgeFits], .idle (fun d => by cases d <;> nofun) rfl (.inr (.inl rfl))⟩
  simp only [Machine.bridgeFault]
  split
  · exact faulted.setFlag.faultUnit
  · exact faulted.setFlag

/-- A pending drive begins when the dwell is complete (R179). -/
theorem dwellDrive {u d} (h : Fit B W br n) (hd : dwellDone u n = true) :
    Fit B W br (n.setBridge u (driving n.now (n.bridge u) d)) := by
  refine h.setBridge fun _ => JobKeeps.driving_kept ?_
  obtain ⟨-, reached⟩ := Bool.and_eq_true_iff.mp hd
  cases hc : (n.bridge u).coastSince with
  | none => simp [later, Node.reached, hc] at reached
  | some t => simp_all [dwellComplete, later, Node.reached]

theorem handCount {ch} (h : Fit B W br n) : Fit B W br (handCount ch n) := by
  simp only [Machine.handCount]
  split
  · exact h.setChan.setWind
  · exact h.setChan

theorem evaluateWind {c} (h : Fit B W br n) : Fit B W br (evaluateWind c n) := h.setWind.refreshWind

/-- A move request whose unit no view forbids to extend (R136, R147, R148). -/
theorem moveAct {u k b} (h : Fit B W br n) : Fit B W br (moveAct u k b n).node := by
  unfold Machine.moveAct
  repeat' split
  · exact h
  · exact h
  · exact h
  · exact h
  · rename_i hlock
    refine Fit.placeRequest ?_ h
    simp only [mayStand, Bool.or_eq_true, Bool.not_eq_true']
    left
    simp only [Bool.and_eq_true, not_and, Bool.not_eq_true] at hlock
    cases he : isExtend _ <;> simp_all

theorem stopUnit {u c m} (h : Fit B W br n) (hs : stopUnit c u n = some m) : Fit B W br m := by
  simp only [Machine.stopUnit] at hs
  split at hs
  · cases hs
    exact (foldl _ (fun _ _ k => k.endEntry) _ _ h.bridgeBrake.upToDate.setUnit).endEntry.releaseClaim
  · split at hs
    · cases hs
      exact h.endEntry.releaseClaim.fileNext
    · repeat' split at hs
      all_goals cases hs
      · exact h.setUnit
      · exact h.setUnit.safetyCheck
      · exact h

theorem stopAct {u k b} (h : Fit B W br n) : Fit B W br (stopAct u k b n).node := by
  unfold Machine.stopAct
  repeat' split
  · exact h
  · exact h.stopUnit ‹_›
  · exact h

/-! ## Lights and channel bank -/

theorem takeStep {i} (h : Fit B W br n) : Fit B W br (takeStep i n) := by
  unfold Machine.takeStep
  split
  · exact h
  · dsimp only
    exact h.ask.mapLamps.setEv.ite h.ask.mapLamps

theorem pinChange {ch l} (h : Fit B W br n) : Fit B W br (pinChange ch l n) := by
  unfold Machine.pinChange
  exact h.withFree.ite h.withFree.setChan

theorem deliver {ch f} (h : Fit B W br n) : Fit B W br (deliver ch f n) := by
  unfold Machine.deliver
  repeat' split
  · exact h.pumpDemand
  · exact h
  · exact h
  · exact h.contactChange
  · exact h
  · exact h
  · exact h.endStopChange
  · exact h
  · exact h.endStopChange
  · exact h
  · exact h.switchChange.courtesyCheck
  · exact h.refreshTravel
  · exact h

theorem acceptInput {ch} (h : Fit B W br n) : Fit B W br (acceptInput ch n) := h.setChan.ite h.setChan.deliver

theorem deliverTemp {i} (h : Fit B W br n) : Fit B W br (deliverTemp i n) := by
  unfold Machine.deliverTemp
  refine onHeater (h.frostCheck.ite h) fun c => ?_
  exact (exhaustReading (h.frostCheck.ite h)).ite (h.frostCheck.ite h) |>.cabinDelivered.ite
    ((exhaustReading (h.frostCheck.ite h)).ite (h.frostCheck.ite h))

theorem readTemp {i o t} (h : Fit B W br n) : Fit B W br (readTemp i o t n) := by
  unfold Machine.readTemp
  refine deliverTemp (ite (setFlag ?_) ?_)
  · exact h.setBank rfl rfl
  · exact h.setBank rfl rfl

theorem tripAndTell {i} (h : Fit B W br n) : Fit B W br (tripAndTell i n) := by
  refine tellOwner ?_
  exact h.putOutput.setChan.setFlag.bump

/-! ## Commands -/

theorem give {r} (h : Fit B W br n) : Fit B W br (give r n).node := h

theorem answer {k b o} (h : Fit B W br o.node) : Fit B W br (answer k b o) := h.setEv

theorem runCommand {d l act k b} (ha : ∀ m, Fit B W br m → Fit B W br (act k b m).node) (h : Fit B W br n) :
    Fit B W br (runCommand d l act k b n) := by
  unfold Machine.runCommand
  repeat' split
  · exact answer h
  · exact answer h
  · exact answer (ha n h)
  · exact ha n h
  · exact h

theorem runAddressed {l act k b} (ha : ∀ m, Fit B W br m → Fit B W br (act b m).node) (h : Fit B W br n) :
    Fit B W br (runAddressed l act k b n) := by
  unfold Machine.runAddressed
  repeat' split
  · exact answer h
  · exact answer (ha n h)
  · exact h

theorem runQuery {l act k b} (ha : ∀ m, Fit B W br m → Fit B W br (act b m).node) (h : Fit B W br n) :
    Fit B W br (runQuery l act k b n) := by
  unfold Machine.runQuery
  split
  · refine runAddressed (fun m hm => ?_) h
    split
    · exact hm
    · exact ha m hm
  · exact h

theorem onCommand {run x} (hr : ∀ k b m, Fit B W br m → Fit B W br (run k b m)) (h : Fit B W br n) :
    Fit B W br (onCommand run x n) := by
  unfold Machine.onCommand
  split
  · exact hr _ _ n h
  · exact h

theorem pumpModeAct {k b} (h : Fit B W br n) : Fit B W br (pumpModeAct k b n).node := by
  unfold Machine.pumpModeAct
  repeat' split
  · exact h
  · exact h.pumpSwitch.give
  · exact h.pumpSwitch.give
  · exact h

theorem pumpResetAct {k b} (h : Fit B W br n) : Fit B W br (pumpResetAct k b n).node := by
  unfold Machine.pumpResetAct
  repeat' split
  · exact h
  · exact h.pumpTo.give
  · exact h.pumpTo.pumpFile.give
  · exact h

theorem frostAct {act k b} (ha : ∀ c m, Fit B W br m → Fit B W br (act c m).node) (h : Fit B W br n) :
    Fit B W br (frostAct act k b n).node := by
  unfold Machine.frostAct
  repeat' split
  · exact h
  · exact ha _ n h
  · exact h

theorem armAct {c} (h : Fit B W br n) : Fit B W br (armAct c n).node := by
  unfold Machine.armAct
  split
  · exact h
  · exact h
  · exact h.stateFromContact.give
  · exact h.stateFromContact.give
  · exact h
  · exact h
  · exact h

theorem disarmAct {c} (h : Fit B W br n) : Fit B W br (disarmAct c n).node := by
  unfold Machine.disarmAct
  split
  · exact h.frostTo.give
  · exact h.frostTo.give
  · exact h
  · exact h
  · exact h
  · exact h
  · exact h

theorem closeAct {c} (h : Fit B W br n) : Fit B W br (closeAct c n).node := by
  unfold Machine.closeAct
  repeat' split
  · exact h.beginMove.give
  · exact h
  · exact h
  · exact h

theorem modeResult {s m k} (h : Fit B W br n) : Fit B W br (modeResult s m k n).node := by
  unfold Machine.modeResult
  repeat' split
  all_goals exact h

theorem heaterModeAct {k b} (h : Fit B W br n) : Fit B W br (heaterModeAct k b n).node := by
  unfold Machine.heaterModeAct
  repeat' split
  · exact h
  · exact h
  · exact h
  · exact h.takeMode.modeResult

theorem heaterResetAct {k b} (h : Fit B W br n) : Fit B W br (heaterResetAct k b n).node := by
  unfold Machine.heaterResetAct
  split
  · exact h.resetHeater.give
  · exact h.resetHeater.give
  · exact h

theorem lightLevelAct {k b} (h : Fit B W br n) : Fit B W br (lightLevelAct k b n).node := by
  simp only [Machine.lightLevelAct]
  repeat' split
  · dsimp only
    exact h.mapLamps
  · exact h.mapLamps.give
  · exact h

theorem sceneAct {k b} (h : Fit B W br n) : Fit B W br (sceneAct k b n).node := by
  simp only [Machine.sceneAct]
  split
  · exact h.mapLamps.give
  · exact h

theorem channelResetAct {k b} (h : Fit B W br n) : Fit B W br (channelResetAct k b n).node := by
  simp only [Machine.channelResetAct]
  repeat' split
  · exact h
  · exact give (foldl _ (fun _ _ k => k.resetOutput.ite k) _ _ h)
  · exact h.resetOutput.give
  · exact h

theorem auxOutputAct {k b} (h : Fit B W br n) : Fit B W br (auxOutputAct k b n).node := by
  simp only [Machine.auxOutputAct]
  repeat' split
  · exact h
  · exact h
  · exact h.auxOff.give
  · exact h
  · exact h
  · exact h.auxOn.give

theorem reportSelectAct {k b} (h : Fit B W br n) : Fit B W br (reportSelectAct k b n).node := by
  simp only [Machine.reportSelectAct]
  split
  · exact h
  · exact h.setCmd h.counters

theorem queryReportAct {b} (h : Fit B W br n) : Fit B W br (queryReportAct b n).node := by
  simp only [Machine.queryReportAct]
  repeat' split
  · exact h
  · exact h.setEv
  · exact h.setEv

theorem queryCountersAct {b} (h : Fit B W br n) : Fit B W br (queryCountersAct b n).node :=
  h.setEv.setCmd fun _ => by simp [List.all_eq_true, Vector.mem_toList_iff, counterTop]

theorem queryFlagsAct {b} (h : Fit B W br n) : Fit B W br (queryFlagsAct b n).node := h.setEv.setCmd h.counters

end Fit

/-! ## Events -/

/-- The own effect of an event, where its occasion is there, keeps the receive pool and what `Fit` says. -/
structure EffectKeeps (occ : Receiver → Node → Bool) (body : Receiver → Node → Receiver × Node) : Prop where
  pool : ∀ rx n, occ rx n = true → poolFits rx = true → poolFits (body rx (keepTemp n)).1 = true
  fit : ∀ {B W : Prop} {br : MotionUnit → Bridge} rx n, occ rx n = true → Fit B W br (keepTemp n) →
    Fit B W br (body rx (keepTemp n)).2

/-- What a step leaves of each bridge: its reset record, or what the dwell of R179 allows. -/
def DwellLaw (s t : State) : Prop := ∀ u, t.node.bridge u = {} ∨ DwellKept t.node.now (s.node.bridge u) (t.node.bridge u)

/-- A command keeps the sound states, with the dwell of the bridges, and the law of sheds. -/
structure StepKeeps (run : State → Host.Outcome State Fault Refusal) : Prop where
  sound : ∀ s t, s.sound = true → run s = .next t → t.sound = true ∧ DwellLaw s t
  law : ∀ s t, s.node.shedLaw = true → run s = .next t → t.node.shedLaw = true

theorem sound_iff (s : State) : s.sound = true ↔
    poolFits s.rx = true ∧ queueFits s.node = true ∧ tableFits s.node = true ∧ countersFit s.node = true ∧
      s.node.ev = {} ∧ startFits s.node = true ∧ (∀ u, bridgeFits (s.node.bridge u) = true) ∧ listFits s.node = true := by
  have units : (∀ u, bridgeFits (s.node.bridge u) = true) ↔
      bridgeFits s.node.bank.bridgeA = true ∧ bridgeFits s.node.bank.bridgeB = true :=
    ⟨fun h => ⟨h .awning, h .step⟩, fun h u => by cases u; exacts [h.1, h.2]⟩
  simp only [State.sound, eventClear, Bool.and_eq_true, beq_iff_eq, units]
  tauto

theorem startFits_iff (n : Node) : startFits n = true ↔
    (n.state = none → n.view.peers = [] ∧ n.motion.list = []) ∧ (n.held = true → n.state = none) := by
  unfold startFits
  cases n.state <;> cases n.held <;> simp

/-! ## The node after a reset -/

theorem resetNode_law (cause : Nat) (held : Bool) : ({ resetNode cause with held := held } : Node).shedLaw = true :=
  (shedLaw_iff _).mpr fun i =>
    have idle : ({ resetNode cause with held := held } : Node).claim i = {} := Vector.getElem_replicate i.isLt
    ⟨by rw [idle]; exact JobKeeps.lawful_empty _, .inr idle⟩

theorem resetNode_sound (cause : Nat) (held : Bool) (q : List Instr) :
    ({ pending := q, rx := {}, node := { resetNode cause with held := held } } : State).sound = true := by
  refine (sound_iff _).mpr ⟨rfl, rfl, rfl, rfl, rfl, (startFits_iff _).mpr ⟨fun _ => ⟨rfl, rfl⟩, fun _ => rfl⟩,
    fun u => by cases u <;> rfl, rfl⟩

theorem resetNode_bridge (cause : Nat) (held : Bool) (u : MotionUnit) :
    ({ resetNode cause with held := held } : Node).bridge u = {} := by cases u <;> rfl

/-! ## The end of an event -/

theorem commit_bridge (s : State) (rx : Receiver) (n : Node) (u : MotionUnit) :
    (commit s rx n).node.bridge u = {} ∨ (commit s rx n).node.bridge u = n.bridge u := by
  unfold commit
  split
  · exact .inl (resetNode_bridge 4 false u)
  · exact .inr (Node.setEv_bridge ..)

/-- What a committed event leaves of a node that fits is sound. -/
theorem commit_sound {s : State} {rx : Receiver} {n : Node} {br : MotionUnit → Bridge} (h : Fit True False br n)
    (pool : poolFits rx = true) : (commit s rx n).sound = true ∧
      ∀ u, (commit s rx n).node.bridge u = {} ∨ DwellKept (commit s rx n).node.now (br u) ((commit s rx n).node.bridge u) := by
  unfold commit
  split
  · exact ⟨resetNode_sound 4 false s.pending, fun u => .inl (resetNode_bridge 4 false u)⟩
  · refine ⟨(sound_iff _).mpr ⟨pool, h.queue trivial, h.table trivial, h.counters trivial, rfl,
      (startFits_iff _).mpr ⟨fun undecided => ?_, fun held => ?_⟩, fun u => ?_, h.list trivial⟩, fun u => .inr ?_⟩
    · exact absurd h.decided (by simp [show n.state = none from undecided])
    · exact absurd (h.runs trivial) (by simp [show n.held = true from held])
    · rw [Node.setEv_bridge]
      exact (h.bridges trivial u).1
    · rw [Node.setEv_bridge]
      exact (h.bridges trivial u).2

theorem commit_law {s : State} {rx : Receiver} {n : Node} {br : MotionUnit → Bridge} (h : Fit False True br n) :
    (commit s rx n).node.shedLaw = true := by
  unfold commit
  split
  · exact resetNode_law 4 false
  · exact h.law trivial

theorem advance_bridge (dt : Nat) (n : Node) (u : MotionUnit) : (advance dt n).bridge u = n.bridge u := by
  unfold advance; split <;> cases u <;> rfl

/-- Time that passes keeps both invariants. -/
theorem advance_keeps (dt : Nat) (s : State) :
    (s.sound = true → ({ s with node := advance dt s.node } : State).sound = true ∧
      DwellLaw s { s with node := advance dt s.node }) ∧
    (s.node.shedLaw = true → (advance dt s.node).shedLaw = true) := by
  refine ⟨fun h => ⟨?_, fun u => .inr ?_⟩, fun h => ?_⟩
  · unfold advance
    split
    · exact h
    · exact h
  · change DwellKept _ _ ((advance dt s.node).bridge u)
    rw [advance_bridge]
    exact .refl (((sound_iff s).mp h).2.2.2.2.2.2.1 u)
  · unfold advance
    split
    · exact h
    · exact h

/-- The node that an event finds at a sound state, when it is up. -/
theorem found_fit {s : State} {dt : Nat} (h : s.sound = true) (up : (s.found dt).up = true) :
    Fit True False s.node.bridge (s.found dt) := by
  obtain ⟨-, queue, table, counters, -, start, bridges, list⟩ := (sound_iff _).mp ((advance_keeps dt s).1 h).1
  have decided : (advance dt s.node).state.isSome = true := by
    rw [found_eq, keepTemp_up] at up
    unfold Node.up at up
    split at up <;> simp_all
  refine Fit.keepTemp ⟨decided, fun _ => queue, fun _ => table, fun _ => counters, False.elim, fun _ => ?_,
    fun _ u => ⟨bridges u, ?_⟩, fun _ => list⟩
  · by_contra held
    have undecided : (advance dt s.node).state = none := ((startFits_iff _).mp start).2 (by simpa using held)
    rw [undecided] at decided
    cases decided
  · rw [advance_bridge]
    exact .refl (((sound_iff s).mp h).2.2.2.2.2.2.1 u)

theorem found_lawful {s : State} {dt : Nat} (h : s.node.shedLaw = true) (up : (s.found dt).up = true) :
    Fit False True s.node.bridge (s.found dt) := by
  have decided : (advance dt s.node).state.isSome = true := by
    rw [found_eq, keepTemp_up] at up
    unfold Node.up at up
    split at up <;> simp_all
  exact Fit.keepTemp ⟨decided, False.elim, False.elim, False.elim, fun _ => (advance_keeps dt s).2 h, False.elim,
    False.elim, False.elim⟩

namespace StepKeeps

theorem event {dt : Nat} {occ : Receiver → Node → Bool} {body : Receiver → Node → Receiver × Node}
    (k : EffectKeeps occ body) : StepKeeps (event dt occ body) where
  sound := fun s t h e => by
    rcases event_cases dt occ body s with waits | ⟨up, occasion, acts⟩
    · obtain rfl := Host.Outcome.next.inj (waits.symm.trans e)
      exact (advance_keeps dt s).1 h
    · obtain rfl := Host.Outcome.next.inj (acts.symm.trans e)
      have fit := k.fit s.rx _ occasion (found_fit h up)
      exact commit_sound fit.finish (k.pool s.rx _ occasion ((sound_iff s).mp h).1)
  law := fun s t h e => by
    rcases event_cases dt occ body s with waits | ⟨up, occasion, acts⟩
    · obtain rfl := Host.Outcome.next.inj (waits.symm.trans e)
      exact (advance_keeps dt s).2 h
    · obtain rfl := Host.Outcome.next.inj (acts.symm.trans e)
      exact commit_law (k.fit s.rx _ occasion (found_lawful h up)).finish

/-- An event of the node alone, whose effect may use its occasion. -/
theorem node {dt : Nat} {occ : Node → Bool} {body : Node → Node}
    (k : ∀ {B W : Prop} {br : MotionUnit → Bridge} n, occ n = true → Fit B W br (keepTemp n) →
      Fit B W br (body (keepTemp n))) : StepKeeps (nodeEvent dt occ body) := by
  unfold nodeEvent
  exact event ⟨fun _ _ _ => id, fun _ n => k n⟩

theorem dispatch {dt : Nat} {p : Frame → Bool} {job : RxFrame → Node → Node}
    (k : ∀ {B W : Prop} {br : MotionUnit → Bridge} x n, Fit B W br n → Fit B W br (job x n)) :
    StepKeeps (dispatchEvent dt p job) := by
  unfold dispatchEvent
  refine event ⟨fun rx n _ pool => ?_, fun rx n _ h => ?_⟩
  · split
    · rename_i x rest hrx
      simp only [poolFits, hrx, List.length_cons, decide_eq_true_eq] at pool ⊢
      omega
    · exact pool
  · split
    · exact h.dispatch fun m => k _ m
    · exact h

theorem command {dt code : Nat} {args : List Byte → Bool} {run : Nat → CommandBody → Node → Node}
    (k : ∀ {B W : Prop} {br : MotionUnit → Bridge} i b n, Fit B W br n → Fit B W br (run i b n)) :
    StepKeeps (commandEvent dt code args run) :=
  dispatch fun _ _ h => h.onCommand k

/-- A command that is checked and answered as R195 says. -/
theorem checked {dt code : Nat} {args : List Byte → Bool} {d : Option Duty} {l : List Byte → Bool}
    {act : Nat → CommandBody → Node → Outcome}
    (k : ∀ {B W : Prop} {br : MotionUnit → Bridge} i b n, Fit B W br n → Fit B W br (act i b n).node) :
    StepKeeps (commandEvent dt code args (runCommand d l act)) :=
  command fun i b _ h => h.runCommand (k i b)

theorem query {dt code : Nat} {args : List Byte → Bool} {l : List Byte → Bool} {act : CommandBody → Node → Outcome}
    (k : ∀ {B W : Prop} {br : MotionUnit → Bridge} b n, Fit B W br n → Fit B W br (act b n).node) :
    StepKeeps (commandEvent dt code args (runQuery l act)) :=
  command fun _ b _ h => h.runQuery (k b)

/-! ## The link's rows -/

theorem frameBegin (dt bits : Nat) : StepKeeps (execFrameBegin dt bits) := by
  unfold execFrameBegin
  refine event ⟨fun rx n _ pool => ?_, fun rx n _ h => ?_⟩
  · unfold beginFrame
    dsimp only
    split
    · simpa [poolFits] using ‹_›
    · simp only [poolFits, decide_eq_true_eq] at pool ⊢
      simp only [reduceCtorEq, if_false]
      omega
  · unfold beginFrame
    dsimp only
    split
    · exact h.bump.ite h
    · exact (h.bump.ite h).bump

theorem pool_idle {rx : Receiver} (pool : poolFits rx = true) : poolFits { rx with phase := .idle } = true := by
  simp only [poolFits, decide_eq_true_eq, reduceCtorEq, if_false] at pool ⊢
  omega

theorem discard {dt : Nat} {occ : Receiver → Node → Bool} {k : Counter} :
    StepKeeps (Machine.event dt occ (discardFrame k)) :=
  event ⟨fun _ _ _ => pool_idle, fun _ _ _ h => h.bump.ite h⟩

theorem frameComplete (dt : Nat) (bytes : List Byte) : StepKeeps (execFrameComplete dt bytes) := by
  unfold execFrameComplete
  refine event ⟨fun rx n _ pool => ?_, fun rx n _ h => ?_⟩
  · unfold completeFrame
    split
    · rename_i filling _
      simpa [poolFits, filling] using pool
    · exact pool_idle pool
  · unfold completeFrame
    split
    · exact h.bump
    · exact h.bump.ite h

theorem attemptStart (dt bits : Nat) : StepKeeps (execAttemptStart dt bits) := by
  unfold execAttemptStart
  refine event ⟨fun _ _ _ => id, fun rx n start h => h.sameQueue rfl rfl ?_⟩
  have idle : (keepTemp n).tx.attempt = .none := by
    simp only [mayStart, Bool.and_eq_true, beq_iff_eq] at start
    simpa using start.1.1.1.1.1.2
  simp only [queuedPart, idle, if_true, reduceCtorEq, if_false]
  exact List.drop_sublist 1 _

theorem collision (dt bit : Nat) (read : Bool) : StepKeeps (execCollision dt bit read) := by
  unfold execCollision
  refine node fun n sent h => h.sameQueue rfl rfl ?_
  have sending : (keepTemp n).tx.attempt = .sending := by
    simp only [Bool.and_eq_true, beq_iff_eq] at sent
    simpa using sent.1.1
  simp only [queuedPart, sending, reduceCtorEq, if_false]
  exact List.Sublist.refl _

/-! ## The resets and the start -/

theorem hold (cause : Nat) : StepKeeps fun s => .next (s.hold cause) where
  sound := fun s t _ e => by
    obtain rfl := Host.Outcome.next.inj e
    exact ⟨resetNode_sound cause true s.pending, fun u => .inl (resetNode_bridge cause true u)⟩
  law := fun s t _ e => by
    obtain rfl := Host.Outcome.next.inj e
    exact resetNode_law cause true

theorem passes (dt : Nat) : StepKeeps fun s => .next { s with node := advance dt s.node } where
  sound := fun s t h e => by
    obtain rfl := Host.Outcome.next.inj e
    exact (advance_keeps dt s).1 h
  law := fun s t h e => by
    obtain rfl := Host.Outcome.next.inj e
    exact (advance_keeps dt s).2 h

theorem stays : StepKeeps fun s => .next s where
  sound := fun s t h e => by
    obtain rfl := Host.Outcome.next.inj e
    exact ⟨h, fun u => .inr (.refl (((sound_iff s).mp h).2.2.2.2.2.2.1 u))⟩
  law := fun s t h e => by
    obtain rfl := Host.Outcome.next.inj e
    exact h

theorem ite {c : State → Prop} [DecidablePred c] {f g : State → Host.Outcome State Fault Refusal} (hf : StepKeeps f)
    (hg : StepKeeps g) : StepKeeps fun s => if c s then f s else g s where
  sound := fun s t h e => by
    split at e
    · exact hf.sound s t h e
    · exact hg.sound s t h e
  law := fun s t h e => by
    split at e
    · exact hf.law s t h e
    · exact hg.law s t h e

/-- Before the self-check the node state is not decided (R202, R203). -/
theorem undecided_of_beforeCheck {n : Node} (start : startFits n = true) (h : beforeCheck n = true) : n.state = none := by
  simp only [beforeCheck, Bool.or_eq_true, Bool.and_eq_true, Option.isNone_iff_eq_none] at h
  exact h.elim ((startFits_iff n).mp start).2 (·.2)

theorem startNode_law {check : Bool} {straps : BitVec 4} {n : Node} (h : n.shedLaw = true) :
    (startNode check straps n).shedLaw = true := by
  rw [shedLaw_iff] at h
  unfold startNode endHold
  repeat' split
  · exact (shedLaw_iff _).mpr h
  · exact (shedLaw_iff _).mpr h
  · exact (shedLaw_iff _).mpr fun i => ⟨(h i).1, .inl rfl⟩
  · exact (shedLaw_iff _).mpr fun i => ⟨(h i).1, .inl rfl⟩

theorem startNode_sound {check : Bool} {straps : BitVec 4} {s : State} (h : s.sound = true)
    (before : beforeCheck s.node = true) :
    ({ s with node := startNode check straps s.node } : State).sound = true := by
  obtain ⟨pool, queue, table, counters, ev, start, bridges, list⟩ := (sound_iff s).mp h
  have undecided := undecided_of_beforeCheck start before
  obtain ⟨peers, entries⟩ := ((startFits_iff _).mp start).1 undecided
  have kept : (startNode check straps s.node).view = s.node.view ∧ (startNode check straps s.node).motion = s.node.motion ∧
      (startNode check straps s.node).tx = s.node.tx ∧ (startNode check straps s.node).cmd = s.node.cmd ∧
      (startNode check straps s.node).ev = s.node.ev ∧ (startNode check straps s.node).bank = s.node.bank ∧
      (startNode check straps s.node).held = false := by
    unfold startNode endHold
    repeat' split
    all_goals simp_all
  obtain ⟨view, motion, tx, cmd, ev', bank, held⟩ := kept
  refine (sound_iff _).mpr ⟨pool, ?_, ?_, ?_, ev'.trans ev, ?_, fun u => ?_, ?_⟩
  · simpa only [queueFits, tx] using queue
  · simp [tableFits, view, peers, peersFit]
  · simpa only [countersFit, cmd] using counters
  · refine (startFits_iff _).mpr ⟨fun _ => ⟨?_, ?_⟩, fun up => ?_⟩
    · simpa only [view] using peers
    · simpa only [motion] using entries
    · exact absurd up (by simp [held])
  · have same : (startNode check straps s.node).bridge u = s.node.bridge u := by
      cases u <;> simp only [Node.bridge, bank]
    simpa only [same] using bridges u
  · simp [listFits, motion, entries]

theorem start (dt : Nat) (check : Bool) (straps : BitVec 4) : StepKeeps (execStart dt check straps) where
  sound := fun s t h e => by
    simp only [execStart] at e
    have passed := (advance_keeps dt s).1 h
    split at e
    · obtain rfl := Host.Outcome.next.inj e
      have sound := startNode_sound (check := check) (straps := straps) passed.1 ‹_›
      refine ⟨sound, fun u => .inr ?_⟩
      have same : (startNode check straps (advance dt s.node)).bridge u = s.node.bridge u := by
        unfold startNode endHold advance
        repeat' split
        all_goals cases u <;> rfl
      change DwellKept _ _ ((startNode check straps (advance dt s.node)).bridge u)
      rw [same]
      exact .refl (((sound_iff s).mp h).2.2.2.2.2.2.1 u)
    · obtain rfl := Host.Outcome.next.inj e
      exact passed
  law := fun s t h e => by
    simp only [execStart] at e
    have passed := (advance_keeps dt s).2 h
    split at e
    · obtain rfl := Host.Outcome.next.inj e
      exact startNode_law passed
    · obtain rfl := Host.Outcome.next.inj e
      exact passed

/-! ## The decision of the start -/

/-- What follows an event's own effect leaves the bridges alone. -/
theorem finish_bridge {n0 n : Node} (h : n.ev.restart = false) (u : MotionUnit) :
    (finish n0 n).bridge u = n.bridge u := by
  have told := core_propagate n0 n
  have served : (serveWaits (propagate n0 n)).core = n.core := (core_of_rest (rest_serveWaits _)).trans told
  have queued : (queueFrames n0 (serveWaits (propagate n0 n))).core = n.core :=
    (core_of_rest (rest_queueFrames ((congrArg (·.ev.restart) served : _ = n.ev.restart).trans h))).trans served
  have bridges : (queueFrames n0 (serveWaits (propagate n0 n))).bridge u = n.bridge u := by
    cases u
    · exact congrArg (·.bank.bridgeA) queued
    · exact congrArg (·.bank.bridgeB) queued
  rw [← bridges]
  unfold finish restartCheck
  repeat' split
  all_goals rfl

/-- The parts of the node that the decision does not touch; the bank is the image's or the one before. -/
theorem startDecide_parts (eeprom : List Byte) (pins : Vector PinLevel 16) (n : Node) :
    let m := startDecide eeprom pins n
    m.state.isSome = true ∧ m.tx.queue = n.tx.queue ∧ m.tx.attempt = n.tx.attempt ∧ m.tx.nextId = n.tx.nextId ∧
      m.view.peers = n.view.peers ∧ m.cmd.counters = n.cmd.counters ∧ m.claims = n.claims ∧ m.held = n.held ∧
      m.motion = n.motion ∧ m.ev.restart = n.ev.restart ∧ ((∀ u, m.bridge u = {}) ∨ ∀ u, m.bridge u = n.bridge u) := by
  unfold startDecide
  split
  · exact ⟨rfl, rfl, rfl, rfl, rfl, rfl, rfl, rfl, rfl, rfl, .inl fun u => by cases u <;> rfl⟩
  · exact ⟨rfl, rfl, rfl, rfl, rfl, rfl, rfl, rfl, rfl, rfl, .inr fun u => by cases u <;> rfl⟩

theorem starting_iff (n : Node) : starting n = true ↔ n.held = false ∧ n.checked = true ∧ n.state = none := by
  simp [starting, Bool.and_eq_true, and_assoc]

theorem startDecide_fit {eeprom : List Byte} {pins : Vector PinLevel 16} {s : State} (h : s.sound = true)
    (hs : starting s.node = true) :
    Fit True False (startDecide eeprom pins s.node).bridge (startDecide eeprom pins s.node) := by
  obtain ⟨-, queue, -, counters, -, start, bridges, -⟩ := (sound_iff s).mp h
  obtain ⟨held, -, undecided⟩ := (starting_iff _).mp hs
  obtain ⟨peers, entries⟩ := ((startFits_iff _).mp start).1 undecided
  obtain ⟨decided, txq, txa, txn, peers', counters', -, held', motion, -, bank⟩ := startDecide_parts eeprom pins s.node
  have sound (u : MotionUnit) : bridgeFits ((startDecide eeprom pins s.node).bridge u) = true := by
    rcases bank with bank | bank
    · rw [bank]; rfl
    · rw [bank]; exact bridges u
  refine ⟨decided, fun _ => ?_, fun _ => ?_, fun _ => ?_, False.elim, fun _ => held'.trans held,
    fun _ u => ⟨sound u, .refl (sound u)⟩, fun _ => ?_⟩
  · rw [Fit.queue_iff] at queue ⊢
    simpa only [queuedPart, txq, txa, txn] using queue
  · simp [tableFits, peersFit, peers', peers]
  · simpa only [countersFit, counters'] using counters
  · simp [listFits, motion, entries]

theorem startDecide_lawful {eeprom : List Byte} {pins : Vector PinLevel 16} {n : Node} {br : MotionUnit → Bridge}
    (h : n.shedLaw = true) (hs : starting n = true) : Fit False True br (startDecide eeprom pins n) := by
  obtain ⟨-, -, undecided⟩ := (starting_iff _).mp hs
  obtain ⟨decided, -, -, -, -, -, claims, -⟩ := startDecide_parts eeprom pins n
  refine ⟨decided, False.elim, False.elim, False.elim, fun _ => (shedLaw_iff _).mpr fun i => ?_, False.elim,
    False.elim, False.elim⟩
  have idle : (startDecide eeprom pins n).claim i = {} := by
    simpa only [Node.claim, claims] using (((shedLaw_iff n).mp h) i).2.resolve_left (by simp [undecided])
  exact ⟨by rw [idle]; exact JobKeeps.lawful_empty _, .inl decided⟩

theorem startDecision (dt : Nat) (eeprom : List Byte) (pins : Vector PinLevel 16) :
    StepKeeps (execStartDecision dt eeprom pins) where
  sound := fun s t h e => by
    have passed := (advance_keeps dt s).1 h
    simp only [execStartDecision] at e
    split at e
    · obtain rfl := Host.Outcome.next.inj e
      have fit := startDecide_fit (eeprom := eeprom) (pins := pins) passed.1 ‹_›
      have sound := (commit_sound (s := s) (rx := s.rx) (fit.finish (n0 := advance dt s.node)) ((sound_iff s).mp h).1).1
      refine ⟨sound, fun u => ?_⟩
      have ev : (advance dt s.node).ev = {} := ((sound_iff _).mp passed.1).2.2.2.2.1
      obtain ⟨-, -, -, -, -, -, -, -, -, restart, bank⟩ := startDecide_parts eeprom pins (advance dt s.node)
      have left := finish_bridge (n0 := advance dt s.node) (restart.trans (congrArg Event.restart ev)) u
      rcases commit_bridge s s.rx (finish (advance dt s.node) (startDecide eeprom pins (advance dt s.node))) u with
        reset | kept
      · exact .inl reset
      · rcases bank with bank | bank
        · exact .inl (kept.trans (left.trans (bank u)))
        · refine .inr ?_
          rw [kept, left, bank u, advance_bridge]
          exact .refl (((sound_iff s).mp h).2.2.2.2.2.2.1 u)
    · obtain rfl := Host.Outcome.next.inj e
      exact passed
  law := fun s t h e => by
    have passed := (advance_keeps dt s).2 h
    simp only [execStartDecision] at e
    split at e
    · obtain rfl := Host.Outcome.next.inj e
      exact commit_law (startDecide_lawful (br := s.node.bridge) passed ‹_›).finish
    · obtain rfl := Host.Outcome.next.inj e
      exact passed

end StepKeeps

/-! ## Every command -/

/-- Each row's own effect is made of operations that keep `Fit`. -/
theorem exec_keeps (c : Instr) : StepKeeps (exec c) := by
  cases c with unfold exec
  | powerOnReset dt => exact .hold 1
  | resetPin dt => exact .ite .stays (.hold 2)
  | brownOut dt lowMs => exact .ite .stays (.ite (.hold 3) (.passes dt))
  | start dt check straps => exact .start dt check straps
  | startDecision dt eeprom pins => exact .startDecision dt eeprom pins
  | measurementEvent dt shunt volt =>
    refine .node fun n _ h => ?_
    split
    · exact h.measure
    · exact h
  | minutesSinceSyncTick dt => exact .node fun _ _ h => h.setBattery
  | allowancePeriod dt => exact .node fun _ _ h => h.setEv
  | listeningTimerExpiry dt => exact .node fun _ _ h => h.enterActive
  | dispatchPresence dt => exact .dispatch fun _ _ h => h
  | dispatchDraw dt => exact .dispatch fun _ _ h => h
  | dispatchAllowance dt => exact .dispatch fun _ _ h => h
  | dispatchTanks dt => exact .dispatch fun _ _ h => h.pumpCheck
  | dispatchClimate dt => exact .dispatch fun _ _ h => h.frostCheck
  | dispatchMotion dt => exact .dispatch fun _ _ h => h.courtesyCheck
  | dispatchLights dt => exact .dispatch fun _ _ h => h
  | dispatchReply dt => exact .dispatch fun _ _ h => h
  | dispatchReport dt => exact .dispatch fun _ _ h => h
  | peerAgeOut dt station => exact .node fun _ _ h => h.removePeer
  | orphanExpiry dt => exact .node fun _ _ h => h.enterOrphan
  | presencePeriod dt => exact .node fun _ _ h => h.setEv
  | drawPeriod dt => exact .node fun _ _ h => h.setEv
  | settleEnd dt => exact .node fun _ _ h => h.settleEnd
  | waitDeadline dt slot =>
    refine .node fun n passes h => (h.fallBack fun idle => ?_).tellNoEnergy
    rw [keepTemp_claim] at idle
    simp [deadlinePasses, idle] at passes
  | scanStart dt => exact .node fun _ _ h => h.excite.setTanks
  | scanComplete dt => exact .node fun _ _ h => h.finishScan.setTanks
  | tanksPeriod dt => exact .node fun _ _ h => h.setEv
  | pumpMode dt => exact .checked fun _ _ _ h => h.pumpModeAct
  | pumpReset dt => exact .checked fun _ _ _ h => h.pumpResetAct
  | pumpRunTimeout dt => exact .node fun _ _ h => h.pumpDryOut
  | pumpLowTimeout dt => exact .node fun _ _ h => h.pumpDryOut
  | frostGraceEnd dt => exact .node fun _ _ h => h.frostCheck
  | countdownExpiry dt => exact .node fun _ _ h => h.countdownEnd
  | valveMoveEnd dt =>
    refine .node fun n _ h => ?_
    split
    · exact h.endMove
    · exact h
  | frostArm dt => exact .checked fun _ _ _ h => h.frostAct fun _ _ k => k.armAct
  | frostDisarm dt => exact .checked fun _ _ _ h => h.frostAct fun _ _ k => k.disarmAct
  | frostClose dt => exact .checked fun _ _ _ h => h.frostAct fun _ _ k => k.closeAct
  | heaterMode dt => exact .checked fun _ _ _ h => h.heaterModeAct
  | heaterReset dt => exact .checked fun _ _ _ h => h.heaterResetAct
  | purgeEnd dt => exact .node fun _ _ h => h.onHeater fun _ => h.enterGlow
  | glowEnd dt => exact .node fun _ _ h => h.onHeater fun _ => h.enterIgnite
  | ignitionLimit dt => exact .node fun _ _ h => h.onHeater fun _ => h.failAttempt
  | fuelPulseStart dt => exact .node fun _ _ h => h.onHeater fun _ => h.ask.setHeater
  | fuelPulseEnd dt => exact .node fun _ _ h => h.onHeater fun _ => h.ask.setHeater
  | levelHoldExpiry dt => exact .node fun _ _ h => h.onHeater fun _ => h.setHeater.thermostat
  | satisfiedExpiry dt => exact .node fun _ _ h => h.onHeater fun _ => h.setReason.enterCooldown
  | flameLossExpiry dt => exact .node fun _ _ h => h.onHeater fun _ => h.flameLost
  | cooldownLimit dt => exact .node fun _ _ h => h.onHeater fun _ => h.endCooldown
  | climatePeriod dt => exact .node fun _ _ h => h.setEv
  | awningExtend dt => exact .checked fun _ _ _ h => h.moveAct
  | awningRetract dt => exact .checked fun _ _ _ h => h.moveAct
  | awningExtendTo dt => exact .checked fun _ _ _ h => h.moveAct
  | awningStop dt => exact .checked fun _ _ _ h => h.stopAct
  | stepExtend dt => exact .checked fun _ _ _ h => h.moveAct
  | stepRetract dt => exact .checked fun _ _ _ h => h.moveAct
  | stepStop dt => exact .checked fun _ _ _ h => h.stopAct
  | dwellEnd dt unit => exact .node fun _ _ h => h.beginDrive
  | targetReached dt unit => exact .node fun _ _ h => h.onUnit fun _ => h.targetEnd
  | bridgeCurrentReading dt unit mA =>
    refine .node fun n due h => h.onUnit fun _ => h.currentReading ?_
    simpa [bridgeDrives] using (Bool.and_eq_true_iff.mp due).1
  | jam dt unit => exact .node fun _ _ h => h.onUnit fun _ => h.faultUnit
  | motionTimeout dt unit => exact .node fun _ _ h => h.onUnit fun _ => h.faultUnit
  | bridgeOvercurrent dt unit mA => exact .node fun _ _ h => h.onUnit fun _ => h.bridgeFault
  | bridgeDwellComplete dt unit =>
    refine .node fun n done h => ?_
    split
    · exact h.dwellDrive (by simpa [dwellDone] using done)
    · exact h
  | pulseCountPeriod dt ch => exact .node fun _ _ h => h.handCount
  | windEvaluation dt =>
    refine .node fun n _ h => ?_
    split
    · exact h.evaluateWind
    · exact h
  | windLockoutEnd dt => exact .node fun _ _ h => h.setWind.refreshWind
  | motionPeriod dt => exact .node fun _ _ h => h.setEv
  | lightLevel dt => exact .checked fun _ _ _ h => h.lightLevelAct
  | scene dt => exact .checked fun _ _ _ h => h.sceneAct
  | lightsAllOff dt => exact .checked fun _ _ _ h => h.mapLamps.give
  | fadeStep dt light => exact .node fun _ _ h => h.takeStep
  | longPress dt light => exact .node fun _ _ h => h.mapLamps
  | courtesyHoldExpiry dt => exact .node fun _ _ h => h.setLights
  | lightsPeriod dt => exact .node fun _ _ h => h.setEv
  | inputChange dt ch level => exact .node fun _ _ h => h.pinChange
  | inputAccepted dt ch => exact .node fun _ _ h => h.acceptInput
  | pulseCounted dt ch activeUs => exact .node fun _ _ h => h.setChan
  | ainConversion dt ch value => exact .node fun _ _ h => h.setChan
  | tempReading dt input ohms temp => exact .node fun _ _ h => h.readTemp
  | outputTrip dt ch => exact .node fun _ _ h => h.tripAndTell
  | readbackTrip dt ch => exact .node fun _ _ h => h.tripAndTell
  | backfedMarkSet dt ch => exact .node fun _ _ h => h.setChan
  | backfedMarkClear dt ch => exact .node fun _ _ h => h.setChan
  | retry dt ch => exact .node fun _ _ h => h.releaseOutput.tellOwner
  | tripCountClear dt ch => exact .node fun _ _ h => h.setChan
  | channelReset dt => exact .checked fun _ _ _ h => h.channelResetAct
  | auxOutput dt => exact .checked fun _ _ _ h => h.auxOutputAct
  | frameBegin dt idleBits => exact .frameBegin dt idleBits
  | frameCharacterFault dt index character => exact .discard
  | frameComplete dt bytes => exact .frameComplete dt bytes
  | frameBroken dt gapUs => exact .discard
  | attemptStart dt idleBits => exact .attemptStart dt idleBits
  | collision dt bit read => exact .collision dt bit read
  | jamEnd dt jamBits =>
    refine .node fun n jammed h => h.bump.failHead ?_
    simp only [Bool.and_eq_true, beq_iff_eq] at jammed
    simp [bump, jammed.1]
  | frameSent dt =>
    refine .node fun n sending h => h.frameSent ?_
    simp [beq_iff_eq.mp sending]
  | jabberCut dt dominantUs => exact .node fun _ _ h => h.cutDriver
  | jabberRecoveryEnd dt idleMs => exact .node fun _ _ h => h.sameQueue rfl rfl (.refl _)
  | reportSelect dt => exact .checked fun _ _ _ h => h.reportSelectAct
  | queryReport dt => exact .query fun _ _ h => h.queryReportAct
  | queryCounters dt => exact .query fun _ _ h => h.queryCountersAct
  | queryFlags dt => exact .query fun _ _ h => h.queryFlagsAct
  | restart dt => exact .command fun _ _ _ h => h.runAddressed fun _ k => k.setEv.give
  | restartDeadline dt => exact .node fun _ _ h => h.setEv
  | unknownCommand dt => exact .dispatch fun _ _ h => h.onCommand fun _ _ _ k => k.runAddressed fun _ l => l.give
  | outputCurrentChange dt ch mA => exact .node fun _ _ h => h.setChan
  | outputPinReadChange dt ch high => exact .node fun _ _ h => h.setChan

theorem step_keeps : StepKeeps step where
  sound := fun s t h e => by
    unfold step at e
    split at e
    · exact StepKeeps.stays.sound s t h e
    · rename_i c rest _
      exact (exec_keeps c).sound (s.withPending rest) t h e
  law := fun s t h e => by
    unfold step at e
    split at e
    · exact StepKeeps.stays.law s t h e
    · rename_i c rest _
      exact (exec_keeps c).law (s.withPending rest) t h e

/-! ## The statements -/

/-- Settles O3: every row's effect keeps `Fit`, and so does the end of an event. -/
theorem everyStepKeepsSound : Obligations.EveryStepKeepsSound := step_keeps.sound

/-- Settles O5: as O3, by the part of `Fit` that speaks of the claims. -/
theorem everyStepKeepsShedLaw : Obligations.EveryStepKeepsShedLaw := step_keeps.law

end Sys2Proof.Machine
end

section
/-!
# Proofs: the block as a whole, its resets, and the end of an event

Every row but the resets and the start is an event (`exec_event`); an event answers a next state (`event_next`) and only
lets time pass at a node that is not up (`event_waits`). What the end of an event leaves alone is said in three layers:
`core` (whatever the event), `rest` (past the blocks' own evaluations) and `Unshared` (past the shares of the lights).
-/
namespace Sys2Proof.Machine

/-! ## Commands as events -/

/-- A reset or a part of the start. -/
def isStartRow : Instr → Bool
  | .powerOnReset _ | .resetPin _ | .brownOut .. | .start .. | .startDecision .. => true
  | _ => false

/-- The shapes in which the rows are written. -/
inductive IsEvent : (State → Host.Outcome State Fault Refusal) → Prop
  | dispatch (dt p job) : IsEvent (dispatchEvent dt p job)
  | node (dt occ body) : IsEvent (nodeEvent dt occ body)
  | event (dt occ body) : IsEvent (event dt occ body)

theorem IsEvent.next {run : State → Host.Outcome State Fault Refusal} (h : IsEvent run) (s : State) :
    ∃ t, run s = .next t ∧ t.pending = s.pending := by
  cases h with
  | dispatch dt p job => exact event_next ..
  | node dt occ body => exact event_next ..
  | event dt occ body => exact event_next ..

/-- At a node that is not up an event lets its time pass. -/
theorem IsEvent.waits {run : State → Host.Outcome State Fault Refusal} (h : IsEvent run) {s : State}
    (down : s.node.up = false) : ∃ dt, run s = .next { s with node := advance dt s.node } := by
  have asleep (dt : Nat) : (advance dt s.node).up = false := by
    unfold advance
    split
    · exact down
    · exact down
  cases h with
  | dispatch dt p job => exact ⟨dt, event_waits (.inl (asleep dt))⟩
  | node dt occ body => exact ⟨dt, event_waits (.inl (asleep dt))⟩
  | event dt occ body => exact ⟨dt, event_waits (.inl (asleep dt))⟩

/-- Every other row is an event of some length, occasion and effect. -/
theorem exec_event (c : Instr) (h : isStartRow c = false) : IsEvent (exec c) := by
  cases c with unfold exec
  | powerOnReset => cases h
  | resetPin => cases h
  | brownOut => cases h
  | start => cases h
  | startDecision => cases h
  | _ => constructor

theorem advance_running {n : Node} (dt : Nat) (h : n.held = false) : advance dt n = { n with now := n.now + dt } := by
  simp [advance, h]

theorem advance_held {n : Node} (dt : Nat) (h : n.held = true) : advance dt n = n := by simp [advance, h]

theorem execStart_next (dt : Nat) (check : Bool) (straps : BitVec 4) (s : State) :
    ∃ t, execStart dt check straps s = .next t ∧ t.pending = s.pending := by
  simp only [execStart]
  split
  · exact ⟨_, rfl, rfl⟩
  · exact ⟨_, rfl, rfl⟩

theorem execStartDecision_next (dt : Nat) (eeprom : List Byte) (pins : Vector PinLevel 16) (s : State) :
    ∃ t, execStartDecision dt eeprom pins s = .next t ∧ t.pending = s.pending := by
  simp only [execStartDecision]
  split
  · exact ⟨_, rfl, commit_pending _ _ _⟩
  · exact ⟨_, rfl, rfl⟩

theorem exec_next (c : Instr) (s : State) : ∃ t, exec c s = .next t ∧ t.pending = s.pending := by
  cases h : isStartRow c with
  | false => exact (exec_event c h).next s
  | true =>
    cases c with
    | powerOnReset => exact ⟨_, rfl, rfl⟩
    | resetPin =>
      simp only [exec, execResetPin]
      split
      · exact ⟨_, rfl, rfl⟩
      · exact ⟨_, rfl, rfl⟩
    | brownOut =>
      simp only [exec, execBrownOut]
      repeat' split
      · exact ⟨_, rfl, rfl⟩
      · exact ⟨_, rfl, rfl⟩
      · exact ⟨_, rfl, rfl⟩
    | start dt check straps => exact execStart_next dt check straps s
    | startDecision dt eeprom pins => exact execStartDecision_next dt eeprom pins s
    | _ => cases h

/-- Settles O1, by the definition of a step. -/
theorem stepTakesTheFront : Obligations.StepTakesTheFront := by
  refine ⟨fun s c rest h => ?_, fun s h => ?_⟩
  · rw [step, h]
  · rw [step, h]

/-- Settles O2: an event answers a next state, and so do the resets and the start. -/
theorem everyCommandAnswers : Obligations.EveryCommandAnswers := exec_next

/-- Settles O4: the reset state is a reset node, held. -/
theorem resetIsSoundAndLawful : Obligations.ResetIsSoundAndLawful := ⟨resetNode_sound 1 true [], resetNode_law 1 true⟩

/-- Settles O7: every block stands at the default of its record. -/
theorem resetState : Obligations.ResetState := by
  unfold Obligations.ResetState
  have claims : ∀ i, (State.reset.node.claim i).state = .idle := by decide
  have chans : ∀ i, (State.reset.node.chan i).commanded = 0 ∧ (State.reset.node.chan i).protection = .normal ∧
      (State.reset.node.chan i).trips = 0 := by decide
  have counters : ∀ k, counter k State.reset.node = 0 := fun k => by cases k <;> rfl
  simp only [claims, chans, counters, implies_true, and_self, and_true, true_and]
  decide

/-- The straps give a station number from 1 to 14. -/
theorem stationOf_eq (straps : BitVec 4) :
    stationOf straps = if straps = 0 ∨ straps = 15 then none else some straps.toNat := by
  revert straps
  decide

/-- Settles O8. -/
theorem resetAndStart : Obligations.ResetAndStart := by
  unfold Obligations.ResetAndStart
  refine ⟨fun s dt low => ⟨rfl, fun running => ?_, fun running long => ?_, fun running short => ?_, fun held => ⟨?_, ?_⟩⟩,
    fun s dt straps held => ?_, fun s dt straps running unchecked undecided => ?_⟩
  · simp only [exec, execResetPin, running]
    rfl
  · simp only [exec, execBrownOut, running, brownOutTime, long]
    rfl
  · simp [exec, execBrownOut, running, brownOutTime, not_lt.mpr short, advance_running dt running]
  · simp only [exec, execResetPin, held, if_true]
  · simp only [exec, execBrownOut, held, if_true]
  · simp [exec, execStart, startNode, endHold, beforeCheck, advance_held dt held, held, stationOf_eq]
  · simp [exec, execStart, startNode, endHold, beforeCheck, advance_running dt running, running, unchecked, undecided,
      stationOf_eq]

/-- Settles O10: a halted node is not up, so an event lets time pass, and it is past its start. -/
theorem haltedStaysHalted : Obligations.HaltedStaysHalted := by
  unfold Obligations.HaltedStaysHalted
  intro s c halted running noPower noPin shortDip
  have passed (dt : Nat) : advance dt s.node = { s.node with now := s.node.now + dt } := advance_running dt running
  cases h : isStartRow c with
  | false =>
    obtain ⟨dt, waits⟩ := (exec_event c h).waits (s := s) (by simp [Node.up, halted])
    exact ⟨dt, by rw [waits, passed]⟩
  | true =>
    cases c with
    | powerOnReset dt => exact absurd rfl (noPower dt)
    | resetPin dt => exact absurd rfl (noPin dt)
    | brownOut dt low =>
      refine ⟨dt, ?_⟩
      simp [exec, execBrownOut, running, brownOutTime, not_lt.mpr (shortDip dt low rfl), passed]
    | start dt check straps =>
      refine ⟨dt, ?_⟩
      simp [exec, execStart, beforeCheck, running, halted, passed]
    | startDecision dt eeprom pins =>
      refine ⟨dt, ?_⟩
      simp [exec, execStartDecision, starting, halted, passed]
    | _ => cases h

/-! ## Occasions at the node an event finds -/

theorem up_of_state {n : Node} {st : NodeState} (h : n.state = some st) (running : st ≠ .halted) : n.up = true := by
  unfold Node.up
  split <;> simp_all

/-- An occasion that does not read the last temperature may be asked of the node that the event finds. -/
theorem nodeEvent_found {dt : Nat} {occ : Node → Bool} {body : Node → Node} {s : State}
    (reads : ∀ n, occ (keepTemp n) = occ n) (up : (s.found dt).up = true) (h : occ (s.found dt) = true) :
    nodeEvent dt occ body s = .next (s.ended dt s.rx (body (s.found dt))) :=
  nodeEvent_acts up ((reads _).symm.trans h)

end Sys2Proof.Machine
end

section
/-!
# Proofs: draw claims (chapter 3)

Filing, raising, reducing, releasing, converting a claim and its fall back write one record of the claim table and the
mark for the wait service (`putClaim`); what they write is said case by case. A pass of the wait service and a settle
end over one claim are then one turn each.
-/
namespace Sys2Proof.Machine

/-! ## One record of the claim table -/

/-- The node with one claim record and the mark for the wait service written. -/
def Node.putClaim (n : Node) (i : Fin 8) (c : Claim) (wait : Bool) : Node :=
  { n with claims := n.claims.set i c, ev := { n.ev with wait := wait } }

theorem putClaim_self (n : Node) (i : Fin 8) : n.putClaim i (n.claim i) n.ev.wait = n := by
  simp [Node.putClaim, Node.claim]

theorem setClaim_eq_putClaim (n : Node) (i : Fin 8) (c : Claim) : n.setClaim i c = n.putClaim i c n.ev.wait := rfl

theorem wantWait_eq_putClaim (n : Node) (i : Fin 8) (c : Claim) : (n.setClaim i c).wantWait = n.putClaim i c true := rfl

theorem claim_putClaim (n : Node) (i j : Fin 8) (c : Claim) (w : Bool) :
    (n.putClaim i c w).claim j = if i = j then c else n.claim j := Node.claim_setClaim n i j c

@[simp] theorem claim_putClaim_self (n : Node) (i : Fin 8) (c : Claim) (w : Bool) : (n.putClaim i c w).claim i = c := by
  simp [claim_putClaim]

theorem fileClaim_puts (i : Fin 8) (cls wanted : Nat) (wait : Option Nat) (n : Node) :
    ∃ c w, fileClaim i cls wanted wait n = n.putClaim i c w := by
  unfold fileClaim
  repeat' split
  · exact ⟨_, _, (putClaim_self n i).symm⟩
  · exact ⟨_, _, setClaim_eq_putClaim ..⟩
  · exact ⟨_, _, wantWait_eq_putClaim ..⟩

theorem raiseClaim_puts (i : Fin 8) (wanted : Nat) (wait : Option Nat) (n : Node) :
    ∃ c w, raiseClaim i wanted wait n = n.putClaim i c w := by
  simp only [raiseClaim]
  repeat' split
  · exact ⟨_, _, (putClaim_self n i).symm⟩
  · exact ⟨_, _, (putClaim_self n i).symm⟩
  all_goals exact ⟨_, _, wantWait_eq_putClaim ..⟩

theorem releaseClaim_of_idle {i : Fin 8} {n : Node} (h : (n.claim i).state = .idle) : releaseClaim i n = n := if_pos h

theorem releaseClaim_of_filed {i : Fin 8} {n : Node} (h : (n.claim i).state ≠ .idle) :
    releaseClaim i n = n.putClaim i {} true := if_neg h

theorem releaseClaim_puts (i : Fin 8) (n : Node) : ∃ c w, releaseClaim i n = n.putClaim i c w := by
  by_cases h : (n.claim i).state = .idle
  · exact ⟨_, _, (releaseClaim_of_idle h).trans (putClaim_self n i).symm⟩
  · exact ⟨_, _, releaseClaim_of_filed h⟩

@[simp] theorem releaseClaim_idle (i : Fin 8) (n : Node) : ((releaseClaim i n).claim i).state = .idle := by
  by_cases h : (n.claim i).state = .idle
  · rw [releaseClaim_of_idle h, h]
  · rw [releaseClaim_of_filed h, claim_putClaim_self]

theorem reduceClaim_puts (i : Fin 8) (r : Nat) (n : Node) : ∃ c w, reduceClaim i r n = n.putClaim i c w := by
  simp only [reduceClaim]
  repeat' split
  · exact ⟨_, _, (putClaim_self n i).symm⟩
  · exact releaseClaim_puts i n
  all_goals exact ⟨_, _, wantWait_eq_putClaim ..⟩

theorem convertClaim_puts (i : Fin 8) (k : Nat) (n : Node) : ∃ c w, convertClaim i k n = n.putClaim i c w := by
  simp only [convertClaim]
  split
  · exact fileClaim_puts i 4 k none n
  · exact ⟨_, _, wantWait_eq_putClaim ..⟩

/-- Settles O27: each operation by its cases. -/
theorem claimOperations : Obligations.ClaimOperations := by
  unfold Obligations.ClaimOperations
  intro n i cls w wait c after
  have served (d : Claim) : (n.setClaim i d).wantWait = after d true := by simp [after, Node.setClaim, Node.wantWait, Node.setEv]
  have unserved (d : Claim) : n.setClaim i d = after d false := by simp [after, Node.setClaim]
  refine ⟨fun idle => ?_, fun idle cls4 => ?_, fun filed => if_pos filed, fun holding cls4 more => ?_,
    fun holding cls4 more => ?_, fun waits more => ?_, fun filed some less held => ?_, fun filed less held => ?_,
    fun filed => ?_, releaseClaim_of_idle, fun filed some => ?_, fun filed => ?_, fun idle => if_pos idle⟩
  · rw [← unserved]
    exact (if_neg (not_not_intro idle)).trans (if_pos rfl)
  · rw [← served]
    exact (if_neg (not_not_intro idle)).trans (if_neg cls4)
  · simp [raiseClaim, not_le.mpr more, c, holding, cls4, ← served]
  · simp [raiseClaim, not_le.mpr more, c, holding, cls4, ← served]
  · rcases waits with waits | waits
    · simp [raiseClaim, not_le.mpr more, c, waits, ← served]
    · simp [raiseClaim, not_le.mpr more, c, waits, ← served]
  · simp [reduceClaim, c, filed, not_le.mpr less, some.ne', held, ← served]
  · simp [reduceClaim, c, filed, not_le.mpr less, not_le.mpr held, (Nat.zero_le _).trans_lt held |>.ne', ← served]
  · rw [← served]
    exact if_neg filed
  · simp [reduceClaim, c, filed, some.ne']
  · rw [← served]
    exact if_neg filed

/-! ## A pass of the wait service over one claim -/

theorem slots_eq : slots = List.finRange 8 := by decide

/-- The slots that meet a test, when one alone does. -/
theorem slots_filter_single {p : Fin 8 → Bool} {i : Fin 8} (h : p i = true) (others : ∀ j, j ≠ i → p j = false) :
    slots.filter p = [i] := by
  have same : slots.filter p = slots.filter (· == i) := by
    refine List.filter_congr fun j _ => ?_
    by_cases e : j = i
    · simp [e, h]
    · simp [e, others j e]
  rw [same]
  clear same h others
  revert i
  decide

theorem forbids_eq_false {level cls : Nat} (h : level ≤ cls ∨ 4 ≤ cls) : forbids level cls = false := by
  simp only [forbids, Bool.and_eq_false_iff, decide_eq_false_iff_not]
  omega

theorem waitService_single {n : Node} {i : Fin 8} (active : n.isActive = true) (waiting : (n.claim i).state = .waiting)
    (others : ∀ j, j ≠ i → (n.claim j).state ≠ .waiting) :
    waitService n = let p := waitTurn (n, []) i
      if p.2.isEmpty then p.1 else p.1.setEv { p.1.ev with draw := true } := by
  have single : slots.filter (fun i => decide ((n.claim i).state = .waiting)) = [i] :=
    slots_filter_single (by simp [waiting]) fun j other => by simp [others j other]
  simp only [waitService, active, if_true, single, sortBy, insertBy, List.foldl_cons, List.foldl_nil]

/-- The other claims of the node that outrank a claim, as R55 and R57 count them. -/
theorem ownAsks_eq (n : Node) (i : Fin 8) : ownAsks [] i n = ((List.finRange 8).map fun j =>
    if (n.claim j).state = .asking ∧ ((n.claim i).cls < (n.claim j).cls ∨
      ((n.claim j).cls = (n.claim i).cls ∧ j < i)) then ((n.claim j).asked : Int) - (n.claim j).held else 0).sum := by
  unfold ownAsks
  rw [slots_eq]
  refine congrArg List.sum (List.map_congr_left fun j _ => ?_)
  simp only [List.not_mem_nil, false_or, outranks_iff, ownRank, lt_self_iff_false, true_and, askedMore]
  refine if_congr ⟨fun ⟨_, asking, ranks⟩ => ⟨asking, ranks⟩, fun ⟨asking, ranks⟩ => ⟨?_, asking, ranks⟩⟩ rfl rfl
  rintro rfl
  simp at ranks

theorem peerAsks_eq {n : Node} {k : Nat} (i : Fin 8) (station : n.station = some k) (fits : tableFits n = true) :
    peerAsks i n = (n.view.peers.map fun p => ((p.claims.getD []).map fun d =>
      if d.asking = true ∧ ((n.claim i).cls < d.cls ∨ (d.cls = (n.claim i).cls ∧ p.station < k)) then
        (d.asked : Int) - d.held else 0).sum).sum := by
  obtain ⟨-, -, others⟩ := (Fit.peers_iff _ _).mp fits
  unfold peerAsks
  refine congrArg List.sum (List.map_congr_left fun p hp => congrArg List.sum (List.map_congr_left fun d _ => ?_))
  have other : p.station ≠ k := fun same => others p hp (by rw [same, station])
  simp only [outranks_iff, ownRank_of_station station, other, false_and, or_false, askedMore]

/-- Settles O28: one claim waits, so the pass is its turn alone. -/
theorem waitServicePass : Obligations.WaitServicePass := by
  unfold Obligations.WaitServicePass
  constructor
  · intro n i active waiting others c h asks
    rw [waitService_single active waiting others]
    have asked (a : Nat) : (askFor i a n).setEv { (askFor i a n).ev with draw := true } = asks a := rfl
    refine ⟨fun below low => ?_, fun allowed whole room => ?_, fun allowed whole short => ?_,
      fun allowed part room => ?_, fun allowed part short => ?_⟩
    · simp [waitTurn, forbids, show (n.claim i).cls < n.view.shed from below, show (n.claim i).cls < 4 from low]
    · have fits : askedMore (n.claim i).held (n.claim i).wanted ≤ headroom [] i n := room
      simp [waitTurn, forbids_eq_false allowed, show (n.claim i).degradable = false from whole, fits, asked, c]
    · have lacks : ¬ askedMore (n.claim i).held (n.claim i).wanted ≤ headroom [] i n := not_le.mpr short
      simp [waitTurn, forbids_eq_false allowed, show (n.claim i).degradable = false from whole, lacks]
    · have fits : 1 ≤ headroom [] i n := room
      simp [waitTurn, forbids_eq_false allowed, show (n.claim i).degradable = true from part, fits, asked, c, h]
    · have lacks : ¬ 1 ≤ headroom [] i n := by
        have : headroom [] i n ≤ 0 := short
        omega
      simp [waitTurn, forbids_eq_false allowed, show (n.claim i).degradable = true from part, lacks]
  · intro n i k station fits claims held own peer
    simp only [headroom, ownAsks_eq, peerAsks_eq i station fits, heldInView, slots_eq]
    rfl

/-! ## A settle end of one claim -/

theorem keepTemp_settling (n : Node) : settling (keepTemp n) = settling n := by
  simp [settling, ownRank]

theorem settling_single {n : Node} {i : Fin 8} {e : Nat} (asking : (n.claim i).state = .asking)
    (settle : (n.claim i).settle = some e) (due : e ≤ n.now)
    (others : ∀ j, j ≠ i → (n.claim j).state ≠ .asking ∨ n.reached (n.claim j).settle = false) : settling n = [i] := by
  have single : slots.filter (fun i => decide ((n.claim i).state = .asking ∧ n.reached (n.claim i).settle)) = [i] := by
    refine slots_filter_single (by simp [asking, settle, Node.reached, due]) fun j other => ?_
    rcases others j other with h | h
    · simp [h]
    · simp [h]
  simp only [settling, single, sortBy, insertBy]

/-- Settles O29: one claim settles, so the settle end is its turn, and its job's message when it is granted. -/
theorem settleEndDecides : Obligations.SettleEndDecides := by
  unfold Obligations.SettleEndDecides
  rintro s dt n i e rfl up asking settle due others c h allowed with_ waits granted
  have single := settling_single asking settle due others
  have acts : exec (.settleEnd dt) s = .next (s.ended dt s.rx (settleEnd (s.found dt))) := by
    change execSettleEnd dt s = _
    unfold execSettleEnd
    exact nodeEvent_found (fun n => by rw [keepTemp_settling]) up (by rw [single]; rfl)
  have turn : settleEnd (s.found dt) = (settleTurn (s.found dt, []) i).2.reverse.foldl (fun n i => tellGranted i n)
      (settleTurn (s.found dt, []) i).1.wantWait := by
    simp only [settleEnd, settleClaims, single, List.foldl_cons, List.foldl_nil]
  rw [acts, turn]
  have grant (held : Nat) : grantTo held c = granted held := by
    simp only [grantTo, granted, waits, backToWaiting]
  have put (d : Claim) : ((s.found dt).setClaim i d).wantWait = with_ d := rfl
  refine ⟨fun ok room => ?_, fun ok short part some => ?_, fun refused => ?_⟩
  · have fits : askedMore c.held c.asked ≤ headroom [] i (s.found dt) := room
    simp [settleTurn, forbids_eq_false ok, fits, put, grant, c]
  · have lacks : ¬ askedMore c.held c.asked ≤ headroom [] i (s.found dt) := not_le.mpr short
    have fits : 1 ≤ headroom [] i (s.found dt) := some
    simp [settleTurn, forbids_eq_false ok, lacks, part, fits, put, grant, c, h]
  · by_cases ok : allowed
    · obtain ⟨short, none⟩ := refused.resolve_left (not_not_intro ok)
      have lacks : ¬ askedMore c.held c.asked ≤ headroom [] i (s.found dt) := not_le.mpr short
      have never : ¬ (c.degradable = true ∧ 1 ≤ headroom [] i (s.found dt)) := by
        rintro ⟨part, some⟩
        rcases none with whole | zero
        · simp [whole] at part
        · have : headroom [] i (s.found dt) ≤ 0 := zero
          omega
      simp [settleTurn, forbids_eq_false ok, lacks, never, put, backToWaiting, waits, c]
    · have forbidden : forbids (s.found dt).view.shed c.cls = true := by
        simp only [allowed, not_or, not_le] at ok
        simp [forbids, ok]
      simp [settleTurn, forbidden, put, backToWaiting, waits, c]

end Sys2Proof.Machine
end

section
/-!
# Proofs: outputs, and the messages of the claim table to the jobs

A change of an output writes one channel record, whose clocks follow while everything else of it is as asked
(`settleOutput_keeps`). A fold over the channels that works on each channel apart is its turn at that channel
(`foldl_turn`).
-/
namespace Sys2Proof.Machine

/-! ## Outputs (R173) -/

/-- The clocks that follow a change of an output leave the rest of its record. -/
theorem settleOutput_keeps (now : Nat) (old new : Channel) : let c := settleOutput now old new
    c.commanded = new.commanded ∧ c.protection = new.protection ∧ c.trips = new.trips ∧ c.retry = new.retry ∧
      c.pinHigh = new.pinHigh ∧ c.accepted = new.accepted ∧ c.instant = new.instant ∧ c.reading = new.reading ∧
      c.filter = new.filter ∧ c.count = new.count ∧ c.due = new.due := by
  unfold settleOutput
  split <;> exact ⟨rfl, rfl, rfl, rfl, rfl, rfl, rfl, rfl, rfl, rfl, rfl⟩

theorem chan_putOutput (n : Node) (i j : Fin 16) (c : Channel) :
    (n.putOutput i c).chan j = if i = j then settleOutput n.now (n.chan i) c else n.chan j := Node.chan_setChan ..

/-- A command to an output writes the bank alone. -/
theorem ask_sets (i : Fin 16) (level : Nat) (n : Node) : ∃ b, ask i level n = n.setBank b := ⟨_, rfl⟩

theorem chan_ask (i j : Fin 16) (level : Nat) (n : Node) : (ask i level n).chan j =
    if i = j then settleOutput n.now (n.chan i) { n.chan i with commanded := level } else n.chan j :=
  Node.chan_setChan ..

theorem commanded_ask (i j : Fin 16) (level : Nat) (n : Node) :
    ((ask i level n).chan j).commanded = if i = j then level else (n.chan j).commanded := by
  rw [chan_ask]
  split
  · exact (settleOutput_keeps ..).1
  · rfl

@[simp] theorem commanded_ask_self (i : Fin 16) (level : Nat) (n : Node) :
    ((ask i level n).chan i).commanded = level := by simp [commanded_ask]

@[simp] theorem protection_ask (i j : Fin 16) (level : Nat) (n : Node) :
    ((ask i level n).chan j).protection = (n.chan j).protection := by
  rw [chan_ask]
  split
  · rename_i same
    rw [(settleOutput_keeps ..).2.1, same]
  · rfl

@[simp] theorem accepted_ask (i j : Fin 16) (level : Nat) (n : Node) :
    ((ask i level n).chan j).accepted = (n.chan j).accepted := by
  rw [chan_ask]
  split
  · rename_i same
    obtain ⟨-, -, -, -, -, accepted, -⟩ := settleOutput_keeps n.now (n.chan i) { n.chan i with commanded := level }
    rw [accepted, same]
  · rfl

@[simp] theorem inputActive_ask (i j : Fin 16) (level : Nat) (n : Node) :
    (ask i level n).inputActive j = n.inputActive j := by simp [Node.inputActive]

/-! ## AUX outputs (section 9.4) -/

theorem auxState_setAux (n : Node) (i j : Fin 16) (a : AuxState) :
    (n.setAux i a).auxState j = if i = j then a else n.auxState j := by
  simp only [Node.auxState, Node.setAux, Node.setBank_bank, Fin.getElem_fin, Vector.getElem_set, Fin.ext_iff]

@[simp] theorem auxState_setAux_self (n : Node) (i : Fin 16) (a : AuxState) : (n.setAux i a).auxState i = a := by
  simp [auxState_setAux]

@[simp] theorem auxState_ask (i j : Fin 16) (level : Nat) (n : Node) : (ask i level n).auxState j = n.auxState j := rfl

@[simp] theorem chan_setAux (n : Node) (i j : Fin 16) (a : AuxState) : (n.setAux i a).chan j = n.chan j := rfl

theorem auxState_putClaim (n : Node) (i : Fin 8) (c : Claim) (w : Bool) (j : Fin 16) :
    (n.putClaim i c w).auxState j = n.auxState j := rfl

/-- The claim of the AUX outputs follows its wanted amount. -/
theorem auxClaim_puts (n : Node) : ∃ c w, auxClaim n = n.putClaim slotAux c w := by
  simp only [auxClaim]
  repeat' split
  · exact fileClaim_puts ..
  · exact ⟨_, _, (putClaim_self n slotAux).symm⟩
  · exact releaseClaim_puts ..
  · exact raiseClaim_puts ..
  · exact reduceClaim_puts ..

@[simp] theorem auxState_auxClaim (n : Node) (j : Fin 16) : (auxClaim n).auxState j = n.auxState j := by
  obtain ⟨c, w, e⟩ := auxClaim_puts n
  rw [e, auxState_putClaim]

@[simp] theorem chan_auxClaim (n : Node) (j : Fin 16) : (auxClaim n).chan j = n.chan j := by
  obtain ⟨c, w, e⟩ := auxClaim_puts n
  rw [e]
  rfl

/-- A fold whose turns leave alone what is looked at, but for one turn: that turn alone changes it. -/
theorem foldl_turn {α β : Type} {f : Node → α → Node} {x : α} (look : Node → β)
    (others : ∀ n y, y ≠ x → look (f n y) = look n) {l : List α} (once : l.Nodup) (mem : x ∈ l) (n : Node) :
    ∃ m, look m = look n ∧ look (l.foldl f n) = look (f m x) := by
  have keeps : ∀ (l : List α) (n : Node), x ∉ l → look (l.foldl f n) = look n := by
    intro l
    induction l with
    | nil => exact fun _ _ => rfl
    | cons y l ih =>
      intro n out
      rw [List.foldl_cons, ih _ fun h => out (List.mem_cons_of_mem y h),
        others n y fun h => out (h ▸ List.mem_cons_self)]
  obtain ⟨before, after, rfl⟩ := List.append_of_mem mem
  obtain ⟨-, onceAfter, apart⟩ := List.nodup_append.mp once
  refine ⟨before.foldl f n, keeps _ _ fun h => apart x h x List.mem_cons_self rfl, ?_⟩
  rw [List.foldl_append, List.foldl_cons, keeps _ _ (List.nodup_cons.mp onceAfter).1]

theorem channels_nodup : channels.Nodup := List.nodup_finRange 16
theorem mem_channels (i : Fin 16) : i ∈ channels := List.mem_finRange i

/-- NO_ENERGY makes the pending outputs off and no other (R177). -/
theorem auxState_auxNoEnergy (n : Node) (ch : Fin 16) :
    (auxNoEnergy n).auxState ch = if n.auxState ch = .pending then .off else n.auxState ch := by
  obtain ⟨m, same, turn⟩ := foldl_turn (fun n => n.auxState ch)
    (f := fun n i => if n.auxState i = .pending then n.setAux i .off else n) (x := ch)
    (fun n i other => by split <;> simp [auxState_setAux, other]) channels_nodup (mem_channels ch) n
  rw [auxNoEnergy, auxState_auxClaim, turn, ← same]
  split <;> simp

/-- SHED switches every AUX output off (R177). -/
theorem auxShed_off (n : Node) (ch : Fin 16) : (auxShed n).auxState ch = .off ∧
    ((auxShed n).chan ch).commanded = if n.auxState ch = .on then 0 else (n.chan ch).commanded := by
  obtain ⟨m, same, turn⟩ := foldl_turn (fun n => (n.auxState ch, (n.chan ch).commanded))
    (f := fun n i => (if n.auxState i = .on then ask i 0 n else n).setAux i .off) (x := ch)
    (fun n i other => by split <;> simp [auxState_setAux, commanded_ask, other]) channels_nodup
    (mem_channels ch) n
  obtain ⟨state, level⟩ := Prod.ext_iff.mp same
  obtain ⟨state', level'⟩ := Prod.ext_iff.mp turn
  dsimp only at state level state' level'
  refine ⟨state'.trans (by simp), level'.trans ?_⟩
  rw [← state, ← level]
  split <;> simp

theorem auxFit_of_idle {n : Node} {i : Fin 16} (h : n.auxState i ≠ .pending) : auxFit n i = n :=
  if_neg fun pending => h pending.1

theorem foldl_auxFit_of_idle {n : Node} : ∀ l : List (Fin 16), (∀ j ∈ l, n.auxState j ≠ .pending) →
    l.foldl auxFit n = n
  | [], _ => rfl
  | j :: l, h => by
    rw [List.foldl_cons, auxFit_of_idle (h j List.mem_cons_self)]
    exact foldl_auxFit_of_idle l fun k hk => h k (List.mem_cons_of_mem j hk)

/-- With one output pending, and fitting, GRANTED switches it on (R177). -/
theorem auxGranted_single {n : Node} {ch : Fin 16} (pending : n.auxState ch = .pending)
    (fits : auxDraw (· == .on) n + (n.chanCfg ch).draw ≤ (n.claim slotAux).held * 100)
    (others : ∀ j, j ≠ ch → n.auxState j ≠ .pending) : auxGranted n = (ask ch 100 n).setAux ch .on := by
  obtain ⟨before, after, split⟩ := List.append_of_mem (mem_channels ch)
  have once : (before ++ ch :: after).Nodup := split ▸ channels_nodup
  have turn : auxFit n ch = (ask ch 100 n).setAux ch .on := if_pos ⟨pending, fits⟩
  rw [auxGranted, split, List.foldl_append, List.foldl_cons, foldl_auxFit_of_idle before, turn, foldl_auxFit_of_idle after]
  · intro j _
    rw [auxState_setAux]
    split
    · nofun
    · rw [auxState_ask]
      exact others j (Ne.symm ‹_›)
  · exact fun j hj => others j fun same =>
      (List.nodup_append.mp once).2.2 j hj ch List.mem_cons_self same

/-! ## Whom a slot's messages reach -/

section
variable (u : MotionUnit) (n : Node)

theorem tellGranted_pump : tellGranted slotPump n = pumpGranted n := if_pos rfl
theorem tellGranted_heater : tellGranted slotHeater n = heaterGranted n := (if_neg (by decide)).trans (if_pos rfl)
theorem tellGranted_unit : tellGranted (slotUnit u) n = unitGranted u n := by
  cases u with
  | awning => exact (if_neg (by decide)).trans ((if_neg (by decide)).trans (if_pos rfl))
  | step => exact (if_neg (by decide)).trans ((if_neg (by decide)).trans ((if_neg (by decide)).trans (if_pos rfl)))
theorem tellGranted_aux : tellGranted slotAux n = auxGranted n := by
  unfold tellGranted
  iterate 4 rw [if_neg (by decide)]
  exact if_pos rfl
theorem tellNoEnergy_pump : tellNoEnergy slotPump n = pumpNoEnergy n := if_pos rfl
theorem tellNoEnergy_heater : tellNoEnergy slotHeater n = heaterNoEnergy n := (if_neg (by decide)).trans (if_pos rfl)
theorem tellNoEnergy_unit : tellNoEnergy (slotUnit u) n = unitNoEnergy u n := by
  cases u with
  | awning => exact (if_neg (by decide)).trans ((if_neg (by decide)).trans (if_pos rfl))
  | step => exact (if_neg (by decide)).trans ((if_neg (by decide)).trans ((if_neg (by decide)).trans (if_pos rfl)))
theorem tellNoEnergy_aux : tellNoEnergy slotAux n = auxNoEnergy n := by
  unfold tellNoEnergy
  iterate 4 rw [if_neg (by decide)]
  exact if_pos rfl
theorem tellShed_pump : tellShed slotPump n = pumpShed n := if_pos rfl
theorem tellShed_heater : tellShed slotHeater n = heaterShed n := (if_neg (by decide)).trans (if_pos rfl)
theorem tellShed_unit : tellShed (slotUnit u) n = unitShed u n := by
  cases u with
  | awning => exact (if_neg (by decide)).trans ((if_neg (by decide)).trans (if_pos rfl))
  | step => exact (if_neg (by decide)).trans ((if_neg (by decide)).trans ((if_neg (by decide)).trans (if_pos rfl)))
theorem tellShed_aux : tellShed slotAux n = auxShed n := by
  unfold tellShed
  iterate 4 rw [if_neg (by decide)]
  exact if_pos rfl

end

/-! ## The pump told (R91, R92) -/

/-- NO_ENERGY is itself an inhibit. -/
theorem pumpInhibit_of_noEnergy {c : PumpCfg} {n : Node} (h : n.pump.toldNoEnergy = true) :
    (pumpInhibit c n).isSome = true := by
  unfold pumpInhibit
  split_ifs <;> rfl

theorem pumpLow_running {n : Node} (h : n.pump.state = .running) : pumpLow n = n.setPump
    { n.pump with low := if (usedFresh n).any (·.2) then some (n.pump.low.getD n.now) else none } := if_pos h

theorem pumpNoEnergy_waiting {c : PumpCfg} {n : Node} (cfg : n.pumpCfg = some c) (h : n.pump.state = .waiting) :
    pumpNoEnergy n = pumpTo .inhibited (pumpInhibit c (n.setPump { n.pump with toldNoEnergy := true }))
      (n.setPump { n.pump with toldNoEnergy := true }) := by
  simp only [pumpNoEnergy, cfg, h, if_true]

/-! ## The heater told (R114, R120, R127) -/

/-- All three outputs are off, wherever they are bound. -/
theorem heaterDark_commanded (c : HeaterCfg) (n : Node) (i : Fin 16) (mine : i = c.glow ∨ i = c.fan ∨ i = c.fuel) :
    ((heaterDark c n).chan i).commanded = 0 := by
  have dark : (heaterDark c n).chan i = (ask c.fan 0 (ask c.glow 0 (ask c.fuel 0 n))).chan i := rfl
  rw [dark, commanded_ask, commanded_ask, commanded_ask]
  split_ifs with fan glow fuel
  · rfl
  · rfl
  · rfl
  · exact absurd mine (by simp [Ne.symm fan, Ne.symm glow, Ne.symm fuel])

theorem convertClaim_class (i : Fin 8) (k : Nat) (n : Node) : ((convertClaim i k n).claim i).cls = 4 := by
  simp only [convertClaim]
  split
  · rename_i idle
    simp [fileClaim, idle]
  · rw [wantWait_eq_putClaim, claim_putClaim_self]

theorem ask_setHeater (i : Fin 16) (level : Nat) (n : Node) (h : Heater) :
    ask i level (n.setHeater h) = (ask i level n).setHeater h := rfl

theorem putClaim_setHeater (n : Node) (h : Heater) (i : Fin 8) (k : Claim) (w : Bool) :
    (n.setHeater h).putClaim i k w = (n.putClaim i k w).setHeater h := rfl

@[simp] theorem setHeater_setHeater (n : Node) (h h' : Heater) : (n.setHeater h).setHeater h' = n.setHeater h' := rfl

@[simp] theorem ask_heater (i : Fin 16) (level : Nat) (n : Node) : (ask i level n).heater = n.heater := rfl

@[simp] theorem putClaim_heater (n : Node) (i : Fin 8) (k : Claim) (w : Bool) :
    (n.putClaim i k w).heater = n.heater := rfl

/-- The fuel output off. -/
theorem fuelOff_eq (c : HeaterCfg) (n : Node) : fuelOff c n =
    (ask c.fuel 0 n).setHeater { n.heater with rate := 0, pulses := 0, pulseEnd := none } := rfl

/-- Entry to COOLDOWN: what is written of the heater, its outputs and its claim (R126). -/
theorem enterCooldown_shape (c : HeaterCfg) (n : Node) : ∃ k w, k.cls = 4 ∧
    enterCooldown c n = ((ask c.fan 100 (ask c.glow 0 (ask c.fuel 0 n))).putClaim slotHeater k w).setHeater
      { clocksOff { n.heater with rate := 0, pulses := 0, pulseEnd := none } with
        state := .cooldown, level := 0, phaseEnd := some (n.now + 180000) } := by
  have dark : ask c.fan 100 (ask c.glow 0 (fuelOff c n)) = (ask c.fan 100 (ask c.glow 0 (ask c.fuel 0 n))).setHeater
      { n.heater with rate := 0, pulses := 0, pulseEnd := none } := by simp only [fuelOff_eq, ask_setHeater]
  obtain ⟨k, w, e⟩ := convertClaim_puts slotHeater (units c.cooldown) (ask c.fan 100 (ask c.glow 0 (fuelOff c n)))
  have cls := convertClaim_class slotHeater (units c.cooldown) (ask c.fan 100 (ask c.glow 0 (fuelOff c n)))
  rw [e, claim_putClaim_self] at cls
  rw [dark, putClaim_setHeater] at e
  refine ⟨k, w, cls, ?_⟩
  obtain ⟨b, asked⟩ : ∃ b, ask c.fan 100 (ask c.glow 0 (ask c.fuel 0 n)) = n.setBank b := ⟨_, rfl⟩
  unfold enterCooldown
  dsimp only
  rw [dark, e, asked]
  rfl

/-- The outputs at the entry of COOLDOWN. -/
theorem enterCooldown_commanded (c : HeaterCfg) (n : Node) (i : Fin 16) : ((enterCooldown c n).chan i).commanded =
    if c.fan = i then 100 else if c.glow = i then 0 else if c.fuel = i then 0 else (n.chan i).commanded := by
  obtain ⟨k, w, -, e⟩ := enterCooldown_shape c n
  have asked : (enterCooldown c n).chan i = (ask c.fan 100 (ask c.glow 0 (ask c.fuel 0 n))).chan i := by
    rw [e]
    rfl
  rw [asked, commanded_ask, commanded_ask, commanded_ask]

/-- COOLDOWN is claimed in class 4. -/
theorem enterCooldown_class (c : HeaterCfg) (n : Node) : ((enterCooldown c n).claim slotHeater).cls = 4 := by
  obtain ⟨k, w, cls, e⟩ := enterCooldown_shape c n
  rw [e, Node.setHeater_claim, claim_putClaim_self, cls]

/-! ## The motion units told (R140, R141, R145) -/

/-- A unit's part of the node: its record and its bridge. -/
def Node.putUnit (n : Node) (u : MotionUnit) (m : MoveUnit) (b : Bridge) : Node := (n.setUnit u m).setBridge u b

@[simp] theorem unit_putUnit (n : Node) (u : MotionUnit) (m : MoveUnit) (b : Bridge) :
    (n.putUnit u m b).unit u = m := by cases u <;> rfl

@[simp] theorem bridge_putUnit (n : Node) (u : MotionUnit) (m : MoveUnit) (b : Bridge) :
    (n.putUnit u m b).bridge u = b := by cases u <;> rfl

@[simp] theorem list_putUnit (n : Node) (u : MotionUnit) (m : MoveUnit) (b : Bridge) :
    (n.putUnit u m b).motion.list = n.motion.list := by cases u <;> rfl

theorem putUnit_frame (n : Node) (u : MotionUnit) (m : MoveUnit) (b : Bridge) :
    n.putUnit u m b = { n with motion := (n.putUnit u m b).motion, bank := (n.putUnit u m b).bank } := by cases u <;> rfl

theorem setBridge_eq_putUnit (n : Node) (u : MotionUnit) (b : Bridge) : n.setBridge u b = n.putUnit u (n.unit u) b := by
  cases u <;> rfl

theorem setUnit_eq_putUnit (n : Node) (u : MotionUnit) (m : MoveUnit) : n.setUnit u m = n.putUnit u m (n.bridge u) := by
  cases u <;> rfl

@[simp] theorem putUnit_putUnit (n : Node) (u : MotionUnit) (m m' : MoveUnit) (b b' : Bridge) :
    (n.putUnit u m b).putUnit u m' b' = n.putUnit u m' b' := by cases u <;> rfl

@[simp] theorem putUnit_setUnit (n : Node) (u : MotionUnit) (m m' : MoveUnit) (b : Bridge) :
    (n.putUnit u m b).setUnit u m' = n.putUnit u m' b := by cases u <;> rfl

theorem putUnit_self (n : Node) (u : MotionUnit) : n.putUnit u (n.unit u) (n.bridge u) = n := by cases u <;> rfl

@[simp] theorem now_putUnit (n : Node) (u : MotionUnit) (m : MoveUnit) (b : Bridge) :
    (n.putUnit u m b).now = n.now := by cases u <;> rfl

@[simp] theorem extStop_putUnit (c : UnitCfg) (n : Node) (u : MotionUnit) (m : MoveUnit) (b : Bridge) :
    extStop c (n.putUnit u m b) = extStop c n := by cases u <;> rfl

@[simp] theorem retStop_putUnit (c : UnitCfg) (n : Node) (u : MotionUnit) (m : MoveUnit) (b : Bridge) :
    retStop c (n.putUnit u m b) = retStop c n := by cases u <;> rfl

theorem bridgeClear_puts (u : MotionUnit) (n : Node) : ∃ b, bridgeClear u n = n.putUnit u (n.unit u) b := by
  simp only [bridgeClear]
  split
  · exact ⟨_, setBridge_eq_putUnit ..⟩
  · exact ⟨_, (putUnit_self n u).symm⟩

theorem bridgeDrive_puts (u : MotionUnit) (d : Dir) (n : Node) : ∃ b, bridgeDrive u d n = n.putUnit u (n.unit u) b := by
  simp only [bridgeDrive]
  split_ifs
  · exact ⟨_, (putUnit_self n u).symm⟩
  · exact ⟨_, setBridge_eq_putUnit ..⟩
  · exact ⟨_, setBridge_eq_putUnit ..⟩
  · exact ⟨_, setBridge_eq_putUnit ..⟩

theorem bridgeCoast_puts (u : MotionUnit) (n : Node) : ∃ b, bridgeCoast u n = n.putUnit u (n.unit u) b ∧
    ((n.bridge u).state ≠ .fault → b.state = .coast) := by
  simp only [bridgeCoast]
  split
  · exact ⟨_, (putUnit_self n u).symm, fun h => absurd ‹_› h⟩
  · exact ⟨_, setBridge_eq_putUnit .., fun _ => ‹_›⟩
  · exact ⟨_, setBridge_eq_putUnit .., fun _ => rfl⟩

/-- A unit that begins to move is driven, or waits for the dwell, in the direction asked for (R141). -/
theorem startMove_puts (u : MotionUnit) (d : Dir) (n : Node) : ∃ m b, startMove u d n = n.putUnit u m b ∧
    m.dir = d ∧ isMoving m = true := by
  obtain ⟨b, cleared⟩ := bridgeClear_puts u n
  simp only [startMove, cleared]
  split
  · obtain ⟨b', driven⟩ := bridgeDrive_puts u d (n.putUnit u (n.unit u) b)
    simp only [beginDrive, driven, putUnit_putUnit, putUnit_setUnit]
    exact ⟨_, _, rfl, rfl, by cases d <;> rfl⟩
  · obtain ⟨b', coasted, -⟩ := bridgeCoast_puts u (n.putUnit u (n.unit u) b)
    simp only [beginDwell, coasted, putUnit_putUnit, putUnit_setUnit]
    exact ⟨_, _, rfl, rfl, rfl⟩

/-- With no entry of a unit in the list nothing files. -/
theorem fileHead_of_none {c : UnitCfg} {u : MotionUnit} {n : Node} (h : ∀ e ∈ n.motion.list, e.unit ≠ u) :
    fileHead c u n = n := by
  have none : n.motion.list.find? (fun e => e.unit == u) = none := by simpa using h
  simp only [fileHead, none]

theorem fileNext_of_none {c : UnitCfg} {u : MotionUnit} {n : Node} (h : ∀ e ∈ n.motion.list, e.unit ≠ u) :
    fileNext c u n = n := by
  simp only [fileNext, fileHead_of_none h]

theorem removeEntry_single (e : Entry) : removeEntry e [e] = [] := if_pos rfl

/-- The ending of the only entry, a command's. -/
theorem endEntry_single {e : Entry} {o : MoveOutcome} {n : Node} {station tag : Nat} (list : n.motion.list = [e])
    (command : e.origin = .command station tag) :
    endEntry e o n = (n.setList []).setUnit e.unit { n.unit e.unit with tag := tag, outcome := o } := by
  simp [endEntry, report, list, command, removeEntry_single]

/-! ## The fall back and NO_ENERGY -/

theorem fallBack_eq (i : Fin 8) (n : Node) : fallBack i n = n.putClaim i (if (n.claim i).held = 0 then {} else
    { n.claim i with state := .holding, wanted := (n.claim i).held, asked := 0, carrier := none, settle := none,
                     deadline := none }) true := by
  unfold fallBack
  simp only [wantWait_eq_putClaim]
  split <;> rfl

theorem keepTemp_deadlinePasses (i : Fin 8) (n : Node) : deadlinePasses i (keepTemp n) = deadlinePasses i n := by
  simp [deadlinePasses, Node.reached]

/-- The slots of no job are told nothing. -/
theorem tellNoEnergy_other {i : Fin 8} {n : Node} (h : i = 0 ∨ i = 1 ∨ i = 6) : tellNoEnergy i n = n := by
  rcases h with rfl | rfl | rfl <;> rfl

/-- NO_ENERGY ends the only entry of a unit. -/
theorem unitNoEnergy_single {u : MotionUnit} {c : UnitCfg} {n : Node} {a : Action} {station tag : Nat}
    (cfg : n.unitCfg u = some c) (list : n.motion.list = [⟨u, a, .command station tag, .waitingEnergy⟩]) :
    unitNoEnergy u n = (n.setList []).setUnit u { n.unit u with tag := tag, outcome := .noEnergy } := by
  have entry : findEntry u .waitingEnergy true n = some ⟨u, a, .command station tag, .waitingEnergy⟩ := by
    simp [findEntry, list, isCommand]
  simp only [unitNoEnergy, cfg, entry, endEntry_single list rfl]
  exact fileNext_of_none (by simp)

/-- NO_ENERGY of a raise gives it up (R120). -/
theorem heaterNoEnergy_run {c : HeaterCfg} {n : Node} (cfg : n.heaterCfg = some c) (run : n.heater.state = .run) :
    heaterNoEnergy n = n.setHeater { n.heater with raise := none } := by
  simp only [heaterNoEnergy, cfg]
  split
  · simp_all
  · rfl
  · simp_all

/-- Settles O30: the claim falls back, and the job of its slot is told. -/
theorem deadlineFallsBack : Obligations.DeadlineFallsBack := by
  unfold Obligations.DeadlineFallsBack
  rintro s dt n i d rfl up waits deadline due c back k
  have passes : deadlinePasses i (s.found dt) = true := by
    simpa [deadlinePasses, Node.reached, deadline, due] using waits
  have fell : fallBack i (s.found dt) = k := fallBack_eq i (s.found dt)
  refine ⟨tellNoEnergy i k, ?_, rfl, tellNoEnergy_other, ?_, ?_, ?_, ?_, ?_⟩
  · rw [← fell]
    change execWaitDeadline dt i s = _
    unfold execWaitDeadline
    exact nodeEvent_found (keepTemp_deadlinePasses i) up passes
  · rintro p rfl cfg waiting
    rw [tellNoEnergy_pump, pumpNoEnergy_waiting (n := k) cfg waiting]
    exact ⟨rfl, rfl, pumpInhibit_of_noEnergy rfl, rfl⟩
  · rintro h rfl cfg run
    have cfg' : k.heaterCfg = some h := cfg
    have run' : k.heater.state = .run := run
    rw [tellNoEnergy_heater, heaterNoEnergy_run cfg' run']
    rfl
  · rintro u cfg a station tag rfl hc list
    rw [tellNoEnergy_unit, unitNoEnergy_single (n := k) hc list]
    exact ⟨by simp, by simp, by simp, by cases u <;> rfl, by cases u <;> rfl⟩
  · rintro ch rfl pending
    have pending' : k.auxState ch = .pending := pending
    rw [tellNoEnergy_aux, auxState_auxNoEnergy, if_pos pending']
  · rintro ch rfl on
    have on' : k.auxState ch = .on := on
    rw [tellNoEnergy_aux, auxState_auxNoEnergy, on', if_neg nofun]

/-! ## GRANTED and SHED -/

theorem pumpStop_running {c : PumpCfg} {n : Node} (run : n.pump.state = .running) :
    ∃ k w, pumpStop c n = (ask c.output 0 n).putClaim slotPump k w := by
  simp only [pumpStop, run, if_true]
  exact releaseClaim_puts ..

/-- GRANTED of a waiting pump whose claim holds its draw: it runs (R91). -/
theorem pumpGranted_runs {c : PumpCfg} {n : Node} (cfg : n.pumpCfg = some c) (waiting : n.pump.state = .waiting)
    (holds : units c.draw ≤ (n.claim slotPump).held) : ∃ low, pumpGranted n = (ask c.output 100 n).setPump
      { n.pump with state := .running, reason := none, run := some n.now, low := low } := by
  simp only [pumpGranted, cfg, waiting, holds, and_self, if_true]
  rw [pumpLow_running (by rfl)]
  exact ⟨_, rfl⟩

/-- GRANTED of a start or a vent in STANDBY (R114, R128). -/
theorem heaterGranted_standby {c : HeaterCfg} {n : Node} (cfg : n.heaterCfg = some c) (s : n.heater.state = .standby) :
    heaterGranted n = if n.heater.mode = .vent then (ask c.fan c.ventDuty n).setHeater { n.heater with state := .venting }
      else (ask c.fan c.startDuty n).setHeater
        { n.heater with state := .purge, restart := false, phaseEnd := some (n.now + 20000) } := by
  simp only [heaterGranted, cfg, s]
  split <;> rfl

/-- GRANTED of a raise in RUN (R120). -/
theorem heaterGranted_raise {c : HeaterCfg} {n : Node} {level : Nat} (cfg : n.heaterCfg = some c)
    (s : n.heater.state = .run) (raise : n.heater.raise = some level) :
    heaterGranted n = (ask c.fan (levelDuty c level) n).setHeater
      { setRate (levelRate level) n.heater n.now with
        level := level, holdEnd := some (n.now + 60000), raise := none } := by
  simp only [heaterGranted, cfg, s, raise]
  rfl

/-- SHED of a running or waiting pump (R92). -/
theorem pumpShed_running {c : PumpCfg} {n : Node} (cfg : n.pumpCfg = some c) (run : n.pump.state = .running) :
    ∃ k w r, pumpShed n = ((ask c.output 0 n).putClaim slotPump k w).setPump
      { n.pump with toldShed := true, state := .inhibited, reason := r, run := none, low := none } := by
  obtain ⟨k, w, stop⟩ := pumpStop_running (c := c) run
  simp only [pumpShed, cfg, run, true_or, if_true, stop]
  exact ⟨k, w, _, rfl⟩

/-- SHED before ignition, or in VENTING: all off, STANDBY (R127). -/
theorem heaterShed_cold {c : HeaterCfg} {n : Node} (cfg : n.heaterCfg = some c)
    (s : n.heater.state = .purge ∨ n.heater.state = .glow ∨ n.heater.state = .venting) :
    heaterShed n = setReason .shed (heaterTo .standby (heaterDark c n)) := by
  rcases s with s | s | s <;> simp only [heaterShed, cfg, s]

/-- SHED while it burns: COOLDOWN (R127). -/
theorem heaterShed_burning {c : HeaterCfg} {n : Node} (cfg : n.heaterCfg = some c)
    (s : n.heater.state = .ignite ∨ n.heater.state = .run) :
    heaterShed n = enterCooldown c (setReason .shed n) := by
  rcases s with s | s <;> simp only [heaterShed, cfg, s]

/-- SHED of a unit whose only entry is under way (R145). -/
theorem unitShed_single {u : MotionUnit} {c : UnitCfg} {n : Node} {a : Action} {station tag : Nat}
    (cfg : n.unitCfg u = some c) (list : n.motion.list = [⟨u, a, .command station tag, .active⟩])
    (sound : (n.bridge u).state ≠ .fault) (stops : ¬ (extStop c n = true ∧ retStop c n = true)) :
    ∃ b, b.state = .coast ∧ unitShed u n = (n.setList []).putUnit u
      { n.unit u with state := .partway, cause := .none, pos := estimate c (n.unit u) n.now, run := none, jam := none,
                      dwellEnd := none, tag := tag, outcome := .shed } b := by
  obtain ⟨b, coasted, coast⟩ := bridgeCoast_puts u n
  have entry : findEntry u .active true n = some ⟨u, a, .command station tag, .active⟩ := by
    simp [findEntry, list, isCommand]
  have rests : restByShed c (n.putUnit u { n.unit u with pos := estimate c (n.unit u) n.now } b)
      { n.unit u with pos := estimate c (n.unit u) n.now } =
        atRest .partway .none (estimate c (n.unit u) n.now) { n.unit u with pos := estimate c (n.unit u) n.now } := by
    refine if_neg ?_
    rwa [extStop_putUnit, retStop_putUnit]
  refine ⟨b, coast sound, ?_⟩
  simp only [unitShed, cfg, entry, upToDate, coasted, putUnit_setUnit, unit_putUnit, now_putUnit, rests]
  rw [endEntry_single (by rw [list_putUnit]; exact list) rfl, fileNext_of_none (by simp)]
  cases u <;> rfl

/-- Settles O31: what a grant does, then what a shed does, job by job. -/
theorem jobsAreTold : Obligations.JobsAreTold := by
  unfold Obligations.JobsAreTold
  constructor
  · intro n
    refine ⟨?_, ?_, ?_, ?_, ?_, ?_⟩
    · intro c cfg waiting holds
      obtain ⟨low, runs⟩ := pumpGranted_runs cfg waiting holds
      rw [tellGranted_pump, runs]
      exact ⟨rfl, rfl, commanded_ask_self .., rfl⟩
    · intro c cfg waiting short
      rw [tellGranted_pump]
      simp only [pumpGranted, cfg]
      exact if_neg fun h => absurd h.2 (not_le.mpr short)
    · intro c cfg s
      rw [tellGranted_heater, heaterGranted_standby cfg s]
      constructor
      · intro heat
        rw [if_neg heat]
        exact ⟨rfl, rfl, rfl, commanded_ask_self ..⟩
      constructor
      · intro vent
        rw [if_pos vent]
        exact ⟨rfl, commanded_ask_self ..⟩
      · split <;> rfl
    · intro c level cfg s raise
      rw [tellGranted_heater, heaterGranted_raise cfg s raise]
      exact ⟨rfl, rfl, rfl, rfl, rfl, commanded_ask_self .., rfl⟩
    · intro u c e cfg entry holds
      rw [tellGranted_unit]
      obtain ⟨m, b, moves, dir, moving⟩ := startMove_puts u (n.unit u).dir
        (n.setList (replaceEntry e { e with state := .active } n.motion.list))
      have told : unitGranted u n = (n.setList (replaceEntry e { e with state := .active } n.motion.list)).putUnit u m b := by
        simp only [unitGranted, cfg, entry, holds, if_true, Node.setList_unit, moves]
      rw [told]
      refine ⟨by simp, by simp [dir], by simp [moving], by cases u <;> rfl, by cases u <;> rfl⟩
    · intro ch pending fits others
      rw [tellGranted_aux, auxGranted_single pending (by omega) others]
      refine ⟨auxState_setAux_self .., by simp, fun j other => ?_, rfl⟩
      simp [auxState_setAux, Ne.symm other]
  · intro n
    refine ⟨?_, ?_, ?_, ?_, ?_⟩
    · intro c cfg run
      obtain ⟨k, w, r, shed⟩ := pumpShed_running cfg run
      rw [tellShed_pump, shed]
      exact ⟨rfl, rfl, rfl, commanded_ask_self ..⟩
    · intro c cfg s
      rw [tellShed_heater, heaterShed_cold cfg s]
      exact ⟨rfl, rfl, heaterDark_commanded c n _ (.inl rfl), heaterDark_commanded c n _ (.inr (.inl rfl)),
        heaterDark_commanded c n _ (.inr (.inr rfl))⟩
    · intro c cfg s glow fuel
      rw [tellShed_heater, heaterShed_burning cfg s]
      obtain ⟨k, w, -, cooled⟩ := enterCooldown_shape c (setReason .shed n)
      refine ⟨by rw [cooled]; rfl, by rw [cooled]; rfl, by rw [cooled]; rfl, ?_, ?_, ?_, enterCooldown_class c _⟩
      · rw [enterCooldown_commanded, if_pos rfl]
      · rw [enterCooldown_commanded, if_neg glow, if_pos rfl]
      · rw [enterCooldown_commanded, if_neg fuel, if_pos rfl, ite_self]
    · intro u c a station tag cfg list sound stops
      obtain ⟨b, coast, shed⟩ := unitShed_single cfg list sound stops
      rw [tellShed_unit, shed]
      exact ⟨by simp [coast], by simp, by simp, by simp, by simp, by simp, by cases u <;> rfl⟩
    · intro ch on
      obtain ⟨off, level⟩ := auxShed_off n ch
      rw [tellShed_aux]
      exact ⟨off, level.trans (if_pos on)⟩

end Sys2Proof.Machine
end

section
/-!
# Proofs: the end of an event

What the frames and the wait service leave alone beside what `Laws/Finish` says: the bank and the lights
(`Node.body`). What the evaluations of the jobs leave of one another: each writes its own record, the bank, the claims
and the mark for the wait service (`Node.bare`).
-/
namespace Sys2Proof.Machine

/-! ## The bank and the lights under the frames and the wait service -/

/-- The bank and the lights of a node. -/
def Node.body (n : Node) : Bank × Lights := (n.bank, n.lights)

@[simp] theorem body_setPub (n : Node) (p) : (n.setPub p).body = n.body := rfl
@[simp] theorem body_setEv (n : Node) (e) : (n.setEv e).body = n.body := rfl
@[simp] theorem body_setCmd (n : Node) (c) : (n.setCmd c).body = n.body := rfl

theorem foldl_body {α : Type} (f : Node → α → Node) (hf : ∀ n x, (f n x).body = n.body) (l : List α) :
    ∀ n, (l.foldl f n).body = n.body := by
  induction l with
  | nil => exact fun _ => rfl
  | cons x _ ih => exact fun n => (ih (f n x)).trans (hf n x)

@[simp] theorem body_placePeriodic (f : Frame) (n : Node) : (placePeriodic f n).1.body = n.body := by
  unfold placePeriodic; repeat' split
  all_goals rfl
@[simp] theorem body_placeAnswer (f : Frame) (n : Node) : (placeAnswer f n).1.body = n.body := by
  unfold placeAnswer; split <;> rfl
@[simp] theorem body_carriedBy (e : Nat) (n : Node) : (carriedBy e n).body = n.body :=
  foldl_body _ (fun n x => by dsimp only; split <;> rfl) _ _
@[simp] theorem body_carrierGivenUp (e : Option Nat) (n : Node) : (carrierGivenUp e n).body = n.body :=
  foldl_body _ (fun n x => by dsimp only; split <;> rfl) _ _

theorem body_waitTurn (p : Node × List (Fin 8)) (i : Fin 8) : (waitTurn p i).1.body = p.1.body := by
  unfold waitTurn; dsimp only; repeat' split
  all_goals rfl

theorem body_serveWaits (n : Node) : (serveWaits n).body = n.body := by
  have fold : ∀ (l : List (Fin 8)) (p : Node × List (Fin 8)), (l.foldl waitTurn p).1.body = p.1.body := by
    intro l
    induction l with
    | nil => exact fun _ => rfl
    | cons x _ ih => exact fun p => (ih _).trans (body_waitTurn p x)
  unfold serveWaits waitService; dsimp only; repeat' split
  · exact fold _ _
  · exact fold _ _
  · rfl
  · rfl

theorem body_queuePresence (n0 n : Node) : (queuePresence n0 n).body = n.body := by
  unfold queuePresence; dsimp only; split <;> simp
theorem body_queueDraw (n0 n : Node) : (queueDraw n0 n).body = n.body := by
  unfold queueDraw; dsimp only; repeat' split
  all_goals simp
theorem body_queueAllowance (n0 n : Node) : (queueAllowance n0 n).body = n.body := by
  unfold queueAllowance; dsimp only; repeat' split
  all_goals simp
theorem body_queueTanks (n0 n : Node) : (queueTanks n0 n).body = n.body := by
  unfold queueTanks; dsimp only; split <;> simp
theorem body_queueClimate (n0 n : Node) : (queueClimate n0 n).body = n.body := by
  unfold queueClimate; dsimp only; repeat' split
  all_goals simp
theorem body_queueMotion (n0 n : Node) : (queueMotion n0 n).body = n.body := by
  unfold queueMotion; dsimp only; split <;> simp
theorem body_queueLights (n0 n : Node) : (queueLights n0 n).body = n.body := by
  unfold queueLights; dsimp only; split <;> simp
theorem body_queueReply (n : Node) : (queueReply n).body = n.body := by
  unfold queueReply; dsimp only; repeat' split
  all_goals simp
theorem body_queueReport (n : Node) : (queueReport n).body = n.body := by
  unfold queueReport; split
  · exact body_placeAnswer ..
  · rfl
theorem body_queueFrames (n0 n : Node) : (queueFrames n0 n).body = n.body := by
  rw [queueFrames, body_queueReport, body_queueReply, body_queueLights, body_queueMotion, body_queueClimate,
    body_queueTanks, body_queueAllowance, body_queueDraw, body_queuePresence]
theorem body_restartCheck (n : Node) : (restartCheck n).body = n.body := by
  unfold restartCheck; repeat' split
  all_goals rfl

/-- After the blocks have told one another nothing of an event's end touches the bank or the lights. -/
theorem body_finish (n0 n : Node) : (finish n0 n).body = (propagate n0 n).body := by
  rw [finish, body_restartCheck, body_queueFrames, body_serveWaits]

/-! ## What the evaluations leave of one another -/

/-- The node without the bank, the claims and the marks of the event, which every job writes. -/
def Node.bare (n : Node) : Node := { n with bank := {}, claims := .replicate 8 {}, ev := {} }

@[simp] theorem bare_ask (n : Node) (i) (l) : (ask i l n).bare = n.bare := rfl
@[simp] theorem bare_setClaim (n : Node) (i) (c) : (n.setClaim i c).bare = n.bare := rfl
@[simp] theorem bare_wantWait (n : Node) : n.wantWait.bare = n.bare := rfl
@[simp] theorem bare_setPump (n : Node) (p) : (n.setPump p).bare = n.bare.setPump p := rfl
@[simp] theorem bare_setFrost (n : Node) (f) : (n.setFrost f).bare = n.bare.setFrost f := rfl
@[simp] theorem bare_setHeater (n : Node) (h) : (n.setHeater h).bare = n.bare.setHeater h := rfl
@[simp] theorem setPump_setPump (n : Node) (p p') : (n.setPump p).setPump p' = n.setPump p' := rfl
@[simp] theorem setFrost_setFrost (n : Node) (f f') : (n.setFrost f).setFrost f' = n.setFrost f' := rfl
@[simp] theorem bare_fileClaim (n : Node) (i cls w wait) : (fileClaim i cls w wait n).bare = n.bare := by
  obtain ⟨c, m, e⟩ := fileClaim_puts i cls w wait n
  rw [e]
  rfl
@[simp] theorem bare_releaseClaim (n : Node) (i) : (releaseClaim i n).bare = n.bare := by
  obtain ⟨c, m, e⟩ := releaseClaim_puts i n
  rw [e]
  rfl

theorem bare_heaterCheck (n : Node) : (heaterCheck n).bare.setHeater {} = n.bare.setHeater {} := by
  unfold heaterCheck standbyCheck startCheck ventCheck setReason; repeat' split
  all_goals simp

theorem bare_frostCheck (n : Node) : (frostCheck n).bare.setFrost {} = n.bare.setFrost {} := by
  unfold frostCheck frostEvaluate frostTo beginMove; dsimp only; repeat' split
  all_goals simp

theorem bare_pumpFile (c : PumpCfg) (n : Node) : (pumpFile c n).bare.setPump {} = n.bare.setPump {} := by
  unfold pumpFile pumpTo; split <;> simp

theorem bare_pumpStop (c : PumpCfg) (n : Node) : (pumpStop c n).bare = n.bare := by
  unfold pumpStop; dsimp only; split <;> simp

theorem bare_pumpEvaluate (c : PumpCfg) (n : Node) : (pumpEvaluate c n).bare.setPump {} = n.bare.setPump {} := by
  have start : (if n.view.shed < 2 then n.setPump { n.pump with toldShed := false } else n).bare.setPump {} =
      n.bare.setPump {} := by split <;> simp
  unfold pumpEvaluate pumpLow; dsimp only
  generalize (if n.view.shed < 2 then n.setPump { n.pump with toldShed := false } else n) = k at start ⊢
  repeat' split
  all_goals simp only [pumpTo, bare_pumpFile, bare_pumpStop, bare_setPump, setPump_setPump, start]

theorem bare_pumpCheck (n : Node) : (pumpCheck n).bare.setPump {} = n.bare.setPump {} := by
  unfold pumpCheck; split
  · rfl
  · exact bare_pumpEvaluate _ _

theorem courtesyCheck_sets (n : Node) : ∃ k, courtesyCheck n = n.setLights { n.lights with courtesy := k } := by
  unfold courtesyCheck; repeat' split
  · exact ⟨_, rfl⟩
  · exact ⟨_, rfl⟩
  · exact ⟨_, rfl⟩
  · exact ⟨_, rfl⟩
  · exact ⟨_, rfl⟩

/-! ## What the blocks tell one another -/

theorem ite_keeps {α : Type} (look : Node → α) (b : Bool) (f : Node → Node) (n : Node) (h : look (f n) = look n) :
    look (if b then f n else n) = look n := by
  split
  · exact h
  · rfl

theorem heater_lightsUpdate (n : Node) : (lightsUpdate n).heater = n.heater := congrArg (·.heater) (rest_lightsUpdate n)
theorem frost_lightsUpdate (n : Node) : (lightsUpdate n).frost = n.frost := congrArg (·.frost) (rest_lightsUpdate n)
theorem pump_lightsUpdate (n : Node) : (lightsUpdate n).pump = n.pump := congrArg (·.pump) (rest_lightsUpdate n)
theorem courtesy_lightsUpdate (n : Node) : (lightsUpdate n).lights.courtesy = n.lights.courtesy :=
  congrArg (·.lights.courtesy) (rest_lightsUpdate n)

theorem heater_frostCheck (n : Node) : (frostCheck n).heater = n.heater := congrArg (·.heater) (bare_frostCheck n)
theorem lights_frostCheck (n : Node) : (frostCheck n).lights = n.lights := congrArg (·.lights) (bare_frostCheck n)
theorem heater_pumpCheck (n : Node) : (pumpCheck n).heater = n.heater := congrArg (·.heater) (bare_pumpCheck n)
theorem frost_pumpCheck (n : Node) : (pumpCheck n).frost = n.frost := congrArg (·.frost) (bare_pumpCheck n)
theorem lights_pumpCheck (n : Node) : (pumpCheck n).lights = n.lights := congrArg (·.lights) (bare_pumpCheck n)
theorem lights_heaterCheck (n : Node) : (heaterCheck n).lights = n.lights := congrArg (·.lights) (bare_heaterCheck n)
theorem heater_courtesyCheck (n : Node) : (courtesyCheck n).heater = n.heater := by
  obtain ⟨k, e⟩ := courtesyCheck_sets n
  rw [e]
  rfl
theorem frost_courtesyCheck (n : Node) : (courtesyCheck n).frost = n.frost := by
  obtain ⟨k, e⟩ := courtesyCheck_sets n
  rw [e]
  rfl
theorem pump_courtesyCheck (n : Node) : (courtesyCheck n).pump = n.pump := by
  obtain ⟨k, e⟩ := courtesyCheck_sets n
  rw [e]
  rfl
theorem body_courtesyCheck {n : Node} (h : n.lightsCfg = none) : courtesyCheck n = n := by
  simp only [courtesyCheck, h]
theorem lightsUpdate_none {n : Node} (h : n.lightsCfg = none) : lightsUpdate n = n := by
  simp only [lightsUpdate, h]

/-- The turns of `propagate`, one after another. -/
def toldHeater (n0 n : Node) : Node := if n.view.shed != n0.view.shed then heaterCheck n else n

def toldFrost (n0 n : Node) : Node :=
  if n.heater.state != n0.heater.state || n.heaterCfg.bind (cabinReading · n) != n0.heaterCfg.bind (cabinReading · n0)
    || n.view.band != n0.view.band || n.view.orphaned != n0.view.orphaned then frostCheck n else n

def toldPump (shed : Bool) (n0 n : Node) : Node :=
  if shed || n.frost.state != n0.frost.state || n.tanks.records != n0.tanks.records then pumpCheck n else n

def toldCourtesy (n0 n : Node) : Node :=
  if n.motion.step.state != n0.motion.step.state then courtesyCheck n else n

theorem propagate_eq (n0 n : Node) : propagate n0 n = lightsUpdate (toldCourtesy n0 (toldPump
    (n.view.shed != n0.view.shed) n0 (toldFrost n0 (toldHeater n0 n)))) := rfl

theorem core_toldPump (shed : Bool) (n0 n : Node) : (toldPump shed n0 n).core = n.core :=
  ite_keeps Node.core _ pumpCheck n (core_pumpCheck n)
theorem core_toldFrost (n0 n : Node) : (toldFrost n0 n).core = n.core :=
  ite_keeps Node.core _ frostCheck n (core_frostCheck n)
theorem core_toldHeater (n0 n : Node) : (toldHeater n0 n).core = n.core :=
  ite_keeps Node.core _ heaterCheck n (core_heaterCheck n)

theorem toldHeater_same {n0 n : Node} (h : n.view.shed = n0.view.shed) : toldHeater n0 n = n :=
  if_neg (by simp [h])

theorem toldFrost_same {n0 n : Node} (heater : n.heater.state = n0.heater.state)
    (cabin : n.heaterCfg.bind (cabinReading · n) = n0.heaterCfg.bind (cabinReading · n0))
    (band : n.view.band = n0.view.band) (orphaned : n.view.orphaned = n0.view.orphaned) : toldFrost n0 n = n :=
  if_neg (by simp [heater, cabin, band, orphaned])

theorem toldPump_same {n0 n : Node} (frost : n.frost.state = n0.frost.state)
    (tanks : n.tanks.records = n0.tanks.records) : toldPump false n0 n = n := if_neg (by simp [frost, tanks])

theorem toldCourtesy_same {n0 n : Node} (h : n.motion.step.state = n0.motion.step.state) : toldCourtesy n0 n = n :=
  if_neg (by simp [h])

theorem toldCourtesy_none {n0 n : Node} (h : n.lightsCfg = none) : toldCourtesy n0 n = n := by
  rw [toldCourtesy, body_courtesyCheck h, ite_self]

/-- The heater is told of a changed shed level alone. -/
theorem heater_propagate {n0 n : Node} (h : n.view.shed = n0.view.shed) : (propagate n0 n).heater = n.heater := by
  rw [propagate_eq, heater_lightsUpdate, toldCourtesy, ite_keeps (·.heater) _ courtesyCheck _ (heater_courtesyCheck _),
    toldPump, ite_keeps (·.heater) _ pumpCheck _ (heater_pumpCheck _), toldFrost,
    ite_keeps (·.heater) _ frostCheck _ (heater_frostCheck _), toldHeater_same h]

/-- The courtesy state is told of a changed own step alone. -/
theorem courtesy_propagate {n0 n : Node} (h : n.motion.step.state = n0.motion.step.state) :
    (propagate n0 n).lights.courtesy = n.lights.courtesy := by
  have motion : (toldPump (n.view.shed != n0.view.shed) n0 (toldFrost n0 (toldHeater n0 n))).motion = n.motion := by
    have core := (core_toldPump (n.view.shed != n0.view.shed) n0 (toldFrost n0 (toldHeater n0 n))).trans
      ((core_toldFrost n0 (toldHeater n0 n)).trans (core_toldHeater n0 n))
    exact congrArg (·.motion) core
  rw [propagate_eq, courtesy_lightsUpdate, toldCourtesy_same (by rw [motion, h]), toldPump,
    ite_keeps (·.lights) _ pumpCheck _ (lights_pumpCheck _), toldFrost,
    ite_keeps (·.lights) _ frostCheck _ (lights_frostCheck _), toldHeater,
    ite_keeps (·.lights) _ heaterCheck _ (lights_heaterCheck _)]

section
variable {n0 n : Node} (shed : n.view.shed = n0.view.shed) (heater : n.heater.state = n0.heater.state)
  (cabin : n.heaterCfg.bind (cabinReading · n) = n0.heaterCfg.bind (cabinReading · n0))
  (band : n.view.band = n0.view.band) (orphaned : n.view.orphaned = n0.view.orphaned)
include shed heater cabin band orphaned

/-- With nothing the frost monitor watches changed, the pump and what follows it are told. -/
theorem propagate_calm : propagate n0 n = lightsUpdate (toldCourtesy n0 (toldPump false n0 n)) := by
  rw [propagate_eq, toldHeater_same shed, toldFrost_same heater cabin band orphaned, shed, bne_self_eq_false]

theorem frost_propagate : (propagate n0 n).frost = n.frost := by
  rw [propagate_calm shed heater cabin band orphaned, frost_lightsUpdate, toldCourtesy,
    ite_keeps (·.frost) _ courtesyCheck _ (frost_courtesyCheck _), toldPump,
    ite_keeps (·.frost) _ pumpCheck _ (frost_pumpCheck _)]

theorem pump_propagate (frost : n.frost.state = n0.frost.state) (tanks : n.tanks.records = n0.tanks.records) :
    (propagate n0 n).pump = n.pump := by
  rw [propagate_calm shed heater cabin band orphaned, pump_lightsUpdate, toldCourtesy,
    ite_keeps (·.pump) _ courtesyCheck _ (pump_courtesyCheck _), toldPump_same frost tanks]

theorem propagate_unlit (frost : n.frost.state = n0.frost.state) (tanks : n.tanks.records = n0.tanks.records)
    (unlit : n.lightsCfg = none) : propagate n0 n = n := by
  rw [propagate_calm shed heater cabin band orphaned, toldPump_same frost tanks, toldCourtesy_none unlit,
    lightsUpdate_none unlit]

end

/-! ## O6 -/

/-- A counter other than that of the queue drops is part of the core. -/
theorem counter_of_core {n m : Node} (h : n.core = m.core) {k : Counter} (other : k ≠ .queueDrops) :
    counter k n = counter k m := by
  have counters : n.cmd.counters.set (counterPlace .queueDrops) 0 = m.cmd.counters.set (counterPlace .queueDrops) 0 :=
    congrArg (·.cmd.counters) h
  have apart : counterPlace .queueDrops ≠ counterPlace k := by
    cases k
    case queueDrops => exact absurd rfl other
    all_goals decide
  have place : (counterPlace .queueDrops).val ≠ (counterPlace k).val := Fin.val_ne_of_ne apart
  have at_k := congrArg (·[counterPlace k]) counters
  simp only [Fin.getElem_fin, Vector.getElem_set_ne _ _ place] at at_k
  exact at_k

/-- Settles O6: what the end of an event leaves alone, part by part. -/
theorem endOfEventFrame : Obligations.EndOfEventFrame := by
  unfold Obligations.EndOfEventFrame
  intro s dt rx m restart reset pending n t
  have core : (finish n m).core = m.core := core_finish restart pending
  have rest : (finish n m).rest = (propagate n m).rest := rest_finish restart pending
  have body := body_finish n m
  have ended : t = { pending := s.pending, rx := rx, node := (finish n m).setEv {} } := ended_eq restart reset pending
  have temps : (finish n m).bank.temps = m.bank.temps := congrArg (·.bank.temps) core
  have free : (finish n m).free = m.free := congrArg (·.free) core
  rw [ended]
  refine ⟨rfl, rfl, rfl, congrArg (·.now) core, congrArg (·.held) core, congrArg (·.cause) core,
    congrArg (·.checked) core, congrArg (·.station) core, congrArg (·.state) core, congrArg (·.faultPin) core,
    congrArg (·.cfg) core, congrArg (·.battery) core, congrArg (·.view) core, congrArg (·.tanks) core,
    congrArg (·.motion) core, congrArg (·.wind) core, free, temps, congrArg (·.bank.bridgeA) core,
    congrArg (·.bank.bridgeB) core, congrArg (·.bank.aux) core, congrArg (·.cmd.map) core, congrArg (·.cmd.flags) core,
    (congrArg (·.cmd.restart) core).trans pending, fun k other => counter_of_core core other,
    congrArg (·.tx.attempt) core, congrArg (·.tx.jabber) core, congrArg (·.tx.since) core, ?_, ?_, ?_⟩
  · exact fun shed => (congrArg (·.heater) rest).trans (heater_propagate shed)
  · exact fun still => (congrArg (·.lights.courtesy) rest).trans (courtesy_propagate still)
  · intro shed heater cabin band orphaned
    refine ⟨(congrArg (·.frost) rest).trans (frost_propagate shed heater cabin band orphaned), fun frost tanks =>
      ⟨(congrArg (·.pump) rest).trans (pump_propagate shed heater cabin band orphaned frost tanks), fun unlit => ?_⟩⟩
    rw [propagate_unlit shed heater cabin band orphaned frost tanks unlit] at body
    exact ⟨congrArg (·.1) body, congrArg (·.2) body⟩

end Sys2Proof.Machine
end

section
/-!
# Proofs: the battery accountant (chapter 1)

Each stage of a sample in an equation per case. What a sample leaves in the accountant's record is what the stage that
owns the field leaves there (`sampleBattery_timers`, `sampleBattery_runs`).
-/
namespace Sys2Proof.Machine

/-! ## Converters (R3, R4) -/

theorem shuntCount_high {raw : Int} (h : 32767 ≤ raw) : shuntCount raw = (32767, true) := if_pos h

theorem shuntCount_low {raw : Int} (h : raw ≤ -32767) : shuntCount raw = (-32767, true) :=
  (if_neg (by simp only [shuntLimit]; omega)).trans (if_pos h)

theorem shuntCount_between {raw : Int} (low : -32767 < raw) (high : raw < 32767) : shuntCount raw = (raw, false) :=
  (if_neg (not_le.mpr high)).trans (if_neg (not_le.mpr low))

/-- Settles O12: the clamps, and division toward zero on either side of 0. -/
theorem convertersAreClamped : Obligations.ConvertersAreClamped := by
  unfold Obligations.ConvertersAreClamped
  refine ⟨fun raw => ⟨shuntCount_high, shuntCount_low, shuntCount_between⟩, fun k shunt pos => ⟨fun up => ?_, fun down => ?_⟩,
    by decide, by decide, fun c current charge v => ⟨rfl, ?_⟩, fun volt => rfl⟩
  · exact Int.tdiv_eq_ediv_of_nonneg (by omega)
  · rw [shuntCurrent, ← Int.tdiv_eq_ediv_of_nonneg (by omega), Int.neg_mul, Int.neg_tdiv, neg_neg]
  · simp [fullNow]

/-! ## The timers and their syncs (R10 to R13) -/

section
variable {c : BatteryCfg} {current : Int} {limit charge : Bool} {volt now : Nat} {b : Battery}

theorem atRestNow_iff : atRestNow c current limit = true ↔ current.natAbs ≤ c.restCurrent ∧ limit = false := by
  simp [atRestNow, and_comm]

theorem fullNow_iff : fullNow c current limit charge volt = true ↔
    charge = true ∧ c.fullVoltage ≤ volt ∧ 0 < current ∧ current ≤ (c.tailCurrent : Int) ∧ limit = false := by
  simp only [fullNow, Bool.and_eq_true, Bool.not_eq_true', decide_eq_true_eq]
  constructor
  · rintro ⟨⟨⟨⟨a, b⟩, c⟩, d⟩, e⟩
    exact ⟨a, c, d, e, b⟩
  · rintro ⟨a, c, d, e, b⟩
    exact ⟨⟨⟨⟨a, b⟩, c⟩, d⟩, e⟩

theorem restStage_moving (h : ¬ atRestNow c current limit = true) :
    restStage c current limit volt now b = { b with restCount := 0, restSpent := false } := if_pos (by simpa using h)

theorem restStage_spent (h : atRestNow c current limit = true) (spent : b.restSpent = true) :
    restStage c current limit volt now b = { b with restCount := 0 } := by simp [restStage, h, spent]

theorem restStage_runs (h : atRestNow c current limit = true) (fresh : b.restSpent = false)
    (early : b.restCount + 1 < c.restMinutes * 600) :
    restStage c current limit volt now b = { b with restCount := b.restCount + 1 } := by
  simp [restStage, h, fresh, early]

theorem restStage_syncs (h : atRestNow c current limit = true) (fresh : b.restSpent = false)
    (done : c.restMinutes * 600 ≤ b.restCount + 1) : restStage c current limit volt now b =
      { syncTo (mapTable volt c.table * capacity c / 1000) now b with restCount := 0, restSpent := true } := by
  simp [restStage, h, fresh, not_lt.mpr done]

theorem fullStage_off (h : ¬ fullNow c current limit charge volt = true) :
    fullStage c current limit charge volt now b = { b with fullCount := 0, fullSpent := false } :=
  if_pos (by simpa using h)

theorem fullStage_spent (h : fullNow c current limit charge volt = true) (spent : b.fullSpent = true) :
    fullStage c current limit charge volt now b = { b with fullCount := 0 } := by simp [fullStage, h, spent]

theorem fullStage_runs (h : fullNow c current limit charge volt = true) (fresh : b.fullSpent = false)
    (early : b.fullCount + 1 < 1200) :
    fullStage c current limit charge volt now b = { b with fullCount := b.fullCount + 1 } := by
  simp [fullStage, h, fresh, fullSamples, early]

theorem fullStage_syncs (h : fullNow c current limit charge volt = true) (fresh : b.fullSpent = false)
    (done : 1200 ≤ b.fullCount + 1) : fullStage c current limit charge volt now b =
      { syncTo (capacity c) now b with fullCount := 0, fullSpent := true } := by
  simp [fullStage, h, fresh, fullSamples, not_lt.mpr done]

/-- What of the record a sync replaces. -/
def syncPart (b : Battery) : Nat × Nat × Bool × Nat × Option Nat := (b.q, b.f, b.synced, b.minutes, b.syncAt)

theorem restStage_unsynced (h : ¬ (atRestNow c current limit = true ∧ b.restSpent = false ∧
    c.restMinutes * 600 ≤ b.restCount + 1)) : syncPart (restStage c current limit volt now b) = syncPart b := by
  by_cases rest : atRestNow c current limit = true
  · by_cases spent : b.restSpent = true
    · rw [restStage_spent rest spent]
      rfl
    · have fresh : b.restSpent = false := by simpa using spent
      rw [restStage_runs rest fresh (not_le.mp fun done => h ⟨rest, fresh, done⟩)]
      rfl
  · rw [restStage_moving rest]
    rfl

theorem fullStage_unsynced (h : ¬ (fullNow c current limit charge volt = true ∧ b.fullSpent = false ∧
    1200 ≤ b.fullCount + 1)) : syncPart (fullStage c current limit charge volt now b) = syncPart b := by
  by_cases full : fullNow c current limit charge volt = true
  · by_cases spent : b.fullSpent = true
    · rw [fullStage_spent full spent]
      rfl
    · have fresh : b.fullSpent = false := by simpa using spent
      rw [fullStage_runs full fresh (not_le.mp fun done => h ⟨full, fresh, done⟩)]
      rfl
  · rw [fullStage_off full]
    rfl

end

section
variable (c : BatteryCfg) (raw : Int) (volt now : Nat) (temp : Option Int) (charge : Bool) (b : Battery)

/-- The timers of a sample are those that stage 3 leaves. -/
theorem sampleBattery_timers : let b' := sampleBattery c raw volt now temp charge b
    let rested := restedBattery c raw volt now b
    let charged := chargedBattery c raw volt now charge b
    b'.restCount = rested.restCount ∧ b'.restSpent = rested.restSpent ∧
      b'.fullCount = charged.fullCount ∧ b'.fullSpent = charged.fullSpent ∧ syncPart b' = syncPart charged := by
  simp [sampleBattery_eq, steppedBattery, bandedBattery, chargedBattery, syncPart]

/-- What the two timers start from is the record before the sample. -/
theorem restedBattery_full : (restedBattery c raw volt now b).fullCount = b.fullCount ∧
    (restedBattery c raw volt now b).fullSpent = b.fullSpent := by
  simp [restedBattery, countedBattery]

end

/-- Settles O15: the rest timer, then the full timer, each by the cases of its stage. -/
theorem timersAndSyncs : Obligations.TimersAndSyncs := by
  unfold Obligations.TimersAndSyncs
  intro c raw volt now temp charge b current marked v b' rest full restSync fullSync
  obtain ⟨restCount, restSpent, fullCount, fullSpent, syncs⟩ := sampleBattery_timers c raw volt now temp charge b
  obtain ⟨count0, spent0⟩ := restedBattery_full c raw volt now b
  have rest_iff : rest ↔ atRestNow c (sampleCurrent c raw) (shuntCount raw).2 = true := atRestNow_iff.symm
  have full_iff : full ↔ fullNow c (sampleCurrent c raw) (shuntCount raw).2 charge (sampleVoltage volt) = true :=
    fullNow_iff.symm
  have sync (h : fullSync) : chargedBattery c raw volt now charge b =
      { syncTo (capacity c) now (restedBattery c raw volt now b) with fullCount := 0, fullSpent := true } :=
    fullStage_syncs (full_iff.mp h.1) (spent0.trans h.2.1) (count0.symm ▸ h.2.2)
  have noSync (h : ¬ fullSync) : syncPart b' = syncPart (restedBattery c raw volt now b) :=
    syncs.trans (fullStage_unsynced fun k => h ⟨full_iff.mpr k.1, spent0 ▸ k.2.1, count0 ▸ k.2.2⟩)
  have rested (h : restSync) : restedBattery c raw volt now b =
      { syncTo (mapTable v c.table * capacity c / 1000) now (countedBattery c raw b) with
        restCount := 0, restSpent := true } := restStage_syncs (rest_iff.mp h.1) h.2.1 h.2.2
  have noRest (h : ¬ restSync) : syncPart (restedBattery c raw volt now b) = syncPart (countedBattery c raw b) :=
    restStage_unsynced fun k => h ⟨rest_iff.mpr k.1, k.2.1, k.2.2⟩
  have restLeft {k : Battery} (e : restedBattery c raw volt now b = k) :
      b'.restCount = k.restCount ∧ b'.restSpent = k.restSpent := e ▸ ⟨restCount, restSpent⟩
  have fullLeft {k : Battery} (e : chargedBattery c raw volt now charge b = k) :
      b'.fullCount = k.fullCount ∧ b'.fullSpent = k.fullSpent := e ▸ ⟨fullCount, fullSpent⟩
  have early (r : rest) (fresh : b.restSpent = false) (h : ¬ restSync) : b.restCount + 1 < c.restMinutes * 600 :=
    not_le.mp fun done => h ⟨r, fresh, done⟩
  refine ⟨fun moving => restLeft (restStage_moving (mt rest_iff.mpr moving)), fun r spent => ?_,
    fun r fresh h => ?_, fun h => restLeft (rested h),
    fun off => fullLeft (fullStage_off (mt full_iff.mpr off)), fun f spent => ?_, fun f fresh h => ?_,
    fun h => fullLeft (sync h), fun h => ?_, fun h => ?_, fun h k => ?_, fun h k => ?_⟩
  · obtain ⟨count, kept⟩ := restLeft (restStage_spent (rest_iff.mp r) (b := countedBattery c raw b) spent)
    exact ⟨count, kept.trans spent⟩
  · obtain ⟨count, kept⟩ := restLeft
      (restStage_runs (rest_iff.mp r) (b := countedBattery c raw b) fresh (early r fresh h))
    exact ⟨count, kept.trans fresh⟩
  · obtain ⟨count, kept⟩ := fullLeft (fullStage_spent (full_iff.mp f) (spent0.trans spent))
    exact ⟨count, kept.trans (spent0.trans spent)⟩
  · have notYet : b.fullCount + 1 < 1200 := not_le.mp fun done => h ⟨f, fresh, done⟩
    obtain ⟨count, kept⟩ := fullLeft (fullStage_runs (full_iff.mp f) (spent0.trans fresh) (count0.symm ▸ notYet))
    exact ⟨count.trans (congrArg (· + 1) count0), kept.trans (spent0.trans fresh)⟩
  · have part : ∃ q, syncPart b' = (q, 0, true, 0, some now) := by
      by_cases f : fullSync
      · exact ⟨capacity c, by rw [syncs, sync f]; rfl⟩
      · exact ⟨mapTable v c.table * capacity c / 1000, by rw [noSync f, rested (h.resolve_right f)]; rfl⟩
    obtain ⟨q, part⟩ := part
    simp only [syncPart, Prod.mk.injEq] at part
    obtain ⟨-, hf, synced, minutes, syncAt⟩ := part
    exact ⟨synced, minutes, hf, syncAt⟩
  · have part : syncPart b' = (capacity c, 0, true, 0, some now) := by rw [syncs, sync h]; rfl
    exact congrArg (·.1) part
  · have part : syncPart b' = (mapTable v c.table * capacity c / 1000, 0, true, 0, some now) := by
      rw [noSync k, rested h]; rfl
    exact congrArg (·.1) part
  · have part : syncPart b' = syncPart (countedBattery c raw b) := (noSync k).trans (noRest h)
    simp only [syncPart, Prod.mk.injEq] at part
    obtain ⟨-, -, synced, minutes, syncAt⟩ := part
    exact ⟨synced, minutes, syncAt⟩

/-! ## The band (R15 to R18) -/

/-- The band of a sample outside CUTOFF, before the charge source and the cap are looked at. -/
def settledBand (c : BatteryCfg) (soc : Nat) (band : Band) : Band := bandUp c soc (bandDown c soc band)

section
variable {c : BatteryCfg} {volt soc : Nat} {charge : Bool} {b : Battery} {band : Band}

theorem isEmpty_iff : isEmpty soc charge = true ↔ soc = 0 ∧ charge = false := by simp [isEmpty]

theorem bandStage_out (h : b.band ≠ .cutoff) : bandStage c volt soc charge b =
    let run := if volt < c.cutoffVoltage then b.cutoffRun + 1 else 0
    if 100 ≤ run ∨ (soc = 0 ∧ charge = false) then { b with band := .cutoff, cutoffRun := 0, recoveryRun := 0 }
    else { b with cutoffRun := run
                  band := if charge then .normal else unsyncedCap b.synced (settledBand c soc b.band) } := by
  simp only [bandStage, h, if_false, isEmpty_iff, cutoffSamples, settledBand]

theorem bandStage_in (h : b.band = .cutoff) : bandStage c volt soc charge b =
    let run := if c.cutoffVoltage + c.recoveryMargin ≤ volt then b.recoveryRun + 1 else 0
    if 300 ≤ run ∧ ¬ (soc = 0 ∧ charge = false) then
      { b with recoveryRun := run, cutoffRun := 0
               band := if charge then .normal else unsyncedCap b.synced (bandUp c soc .reserve) }
    else { b with recoveryRun := run } := by
  simp only [bandStage, h, if_true, Bool.not_eq_true', ← Bool.not_eq_true, isEmpty_iff, recoverySamples]

theorem unsyncedCap_normal (synced : Bool) : unsyncedCap synced .normal = if synced then .normal else .economy := by
  cases synced <;> rfl

theorem unsyncedCap_of_ne {synced : Bool} (h : band ≠ .normal) : unsyncedCap synced band = band := by
  simp [unsyncedCap, h]

theorem settledBand_reserve (h : soc < c.reserve) : settledBand c soc band = .reserve := by
  have out : ¬ c.reserve + bandMargin ≤ soc := by simp only [bandMargin]; omega
  simp [settledBand, bandDown, bandUp, h, out]

theorem bandUp_reserve_stays (h : soc < c.reserve + 30) : bandUp c soc .reserve = .reserve := by
  simp [bandUp, bandMargin, not_le.mpr h]

theorem bandUp_reserve_economy (h : c.reserve + 30 ≤ soc) (low : soc < c.economy + 30) :
    bandUp c soc .reserve = .economy := by simp [bandUp, bandMargin, h, not_le.mpr low]

theorem bandUp_reserve_normal (h : c.reserve + 30 ≤ soc) (high : c.economy + 30 ≤ soc) :
    bandUp c soc .reserve = .normal := by simp [bandUp, bandMargin, h, high]

theorem settledBand_economy (h : c.reserve + 30 ≤ soc) (low : soc < c.economy) (out : band ≠ .cutoff) :
    settledBand c soc band = .economy := by
  have r : ¬ soc < c.reserve := by omega
  have e : ¬ c.economy + 30 ≤ soc := by omega
  cases band <;> simp [settledBand, bandDown, bandUp, bandMargin, h, low, r, e] at out ⊢

theorem settledBand_normal (h : c.reserve + 30 ≤ soc) (high : c.economy + 30 ≤ soc) (out : band ≠ .cutoff) :
    settledBand c soc band = .normal := by
  have r : ¬ soc < c.reserve := by omega
  have e : ¬ soc < c.economy := by omega
  cases band <;> simp [settledBand, bandDown, bandUp, bandMargin, h, high, r, e] at out ⊢

theorem settledBand_low (h : c.reserve ≤ soc) (near : soc < c.reserve + 30) (low : soc < c.economy)
    (out : band ≠ .cutoff) : settledBand c soc band = if band = .normal then .economy else band := by
  have r : ¬ c.reserve + 30 ≤ soc := by omega
  have e : ¬ c.economy + 30 ≤ soc := by omega
  have s : ¬ soc < c.reserve := by omega
  cases band <;> simp [settledBand, bandDown, bandUp, bandMargin, low, r, e, s] at out ⊢

theorem settledBand_kept (order : c.reserve ≤ c.economy) (h : c.economy ≤ soc) (near : soc < c.reserve + 30) :
    settledBand c soc band = band := by
  have r : ¬ soc < c.reserve := by omega
  have s : ¬ soc < c.economy := by omega
  have m : ¬ c.reserve + 30 ≤ soc := by omega
  have e : ¬ c.economy + 30 ≤ soc := by omega
  cases band <;> simp [settledBand, bandDown, bandUp, bandMargin, r, s, m, e]

theorem settledBand_between (h : c.reserve + 30 ≤ soc) (e : c.economy ≤ soc) (near : soc < c.economy + 30)
    (out : band ≠ .cutoff) : settledBand c soc band = if band = .normal then .normal else .economy := by
  have r : ¬ soc < c.reserve := by omega
  have s : ¬ soc < c.economy := by omega
  have m : ¬ c.economy + 30 ≤ soc := by omega
  cases band <;> simp [settledBand, bandDown, bandUp, bandMargin, h, r, s, m] at out ⊢

end

section
variable (c : BatteryCfg) (raw : Int) (volt now : Nat) (temp : Option Int) (charge : Bool) (b : Battery)

/-- The band and the runs of a sample are those of the band's stage. -/
theorem sampleBattery_runs : let b' := sampleBattery c raw volt now temp charge b
    let banded := bandedBattery c raw volt now charge b
    b'.band = banded.band ∧ b'.cutoffRun = banded.cutoffRun ∧ b'.recoveryRun = banded.recoveryRun ∧
      b'.synced = banded.synced := by
  simp [sampleBattery_eq, steppedBattery]

/-- What the band's stage starts from is the record before the sample, but for the syncs. -/
theorem chargedBattery_runs : let charged := chargedBattery c raw volt now charge b
    charged.band = b.band ∧ charged.cutoffRun = b.cutoffRun ∧ charged.recoveryRun = b.recoveryRun := by
  simp [chargedBattery, restedBattery, countedBattery]

end

/-- Settles O17: the band's stage outside CUTOFF and in it, then the band that the state of charge settles. -/
theorem bandOfASample : Obligations.BandOfASample := by
  unfold Obligations.BandOfASample
  intro c raw volt now temp charge b r b' v hlast
  obtain rfl := Option.some.inj (sampleBattery_last.symm.trans hlast)
  obtain ⟨bandIs, cutoffIs, recoveryIs, syncedIs⟩ := sampleBattery_runs c raw volt now temp charge b
  obtain ⟨band0, cutoff0, recovery0⟩ := chargedBattery_runs c raw volt now charge b
  obtain ⟨hq, -, -⟩ := sampleBattery_frame c raw volt now temp charge b
  have synced0 : b'.synced = (chargedBattery c raw volt now charge b).synced := by
    simp [b', syncedIs, bandedBattery]
  have left {k : Battery} (e : bandedBattery c raw volt now charge b = k) :
      b'.band = k.band ∧ b'.cutoffRun = k.cutoffRun ∧ b'.recoveryRun = k.recoveryRun :=
    e ▸ ⟨bandIs, cutoffIs, recoveryIs⟩
  have soc_eq : socOf (capacity c) b'.q = socOf (capacity c) (chargedBattery c raw volt now charge b).q := by rw [hq]
  refine ⟨rfl, fun out => ?_, fun cut => ?_⟩
  · intro run enters
    have stage : bandedBattery c raw volt now charge b =
        let k := chargedBattery c raw volt now charge b
        if enters then { k with band := .cutoff, cutoffRun := 0, recoveryRun := 0 }
        else { k with
          cutoffRun := run
          band := if charge then .normal else
            unsyncedCap k.synced (settledBand c (socOf (capacity c) b'.q) b.band) } := by
      rw [bandedBattery, ← soc_eq, bandStage_out (band0.symm ▸ out), cutoff0, band0]
      rfl
    have stays (h : ¬ enters) := left (stage.trans (if_neg h))
    have settles (h : ¬ enters) (dark : charge = false) {band : Band}
        (e : settledBand c (socOf (capacity c) b'.q) b.band = band) : b'.band = unsyncedCap b'.synced band := by
      rw [← e, synced0]
      exact (stays h).1.trans (if_neg (by simp [dark]))
    refine ⟨fun h => left (stage.trans (if_pos h)), fun h => (stays h).2.1, fun h lit => (stays h).1.trans (if_pos lit),
      fun h dark low => (settles h dark (settledBand_reserve low)).trans (unsyncedCap_of_ne nofun), fun h dark up low => ?_, fun h dark order up => ?_,
      fun h dark up near low => ?_, fun h dark order e near => ?_, fun h dark up e near => ?_⟩
    · exact (settles h dark (settledBand_economy up low out)).trans (unsyncedCap_of_ne nofun)
    · exact (settles h dark (settledBand_normal ((Nat.add_le_add_right order 30).trans up) up out)).trans (unsyncedCap_normal _)
    · refine (settles h dark (settledBand_low up near low out)).trans ?_
      cases b.band <;> simp [unsyncedCap]
    · refine (settles h dark (settledBand_kept order e near)).trans ?_
      cases b.band <;> simp [unsyncedCap]
    · refine (settles h dark (settledBand_between up e near out)).trans ?_
      by_cases normal : b.band = .normal
      · simp only [normal, if_true, unsyncedCap_normal, true_and]
      · simp [normal, unsyncedCap]
  · intro run leaves
    have stage : bandedBattery c raw volt now charge b =
        let k := chargedBattery c raw volt now charge b
        if leaves then { k with
          recoveryRun := run
          cutoffRun := 0
          band := if charge then .normal else unsyncedCap k.synced (bandUp c (socOf (capacity c) b'.q) .reserve) }
        else { k with recoveryRun := run } := by
      rw [bandedBattery, ← soc_eq, bandStage_in (band0.trans cut), recovery0]
      rfl
    have goes (h : leaves) := left (stage.trans (if_pos h))
    have settles (h : leaves) (dark : charge = false) {band : Band}
        (e : bandUp c (socOf (capacity c) b'.q) .reserve = band) : b'.band = unsyncedCap b'.synced band := by
      rw [← e, synced0]
      exact (goes h).1.trans (if_neg (by simp [dark]))
    have stays (h : ¬ leaves) := left (stage.trans (if_neg h))
    refine ⟨?_, fun h => ?_, fun h => (goes h).2.1, fun h lit => (goes h).1.trans (if_pos lit),
      fun h dark low => ?_, fun h dark up low => ?_, fun h dark up high => ?_⟩
    · by_cases h : leaves
      · exact (goes h).2.2
      · exact (stays h).2.2
    · exact (stays h).1.trans (band0.trans cut)
    · exact (settles h dark (bandUp_reserve_stays low)).trans (unsyncedCap_of_ne nofun)
    · exact (settles h dark (bandUp_reserve_economy up low)).trans (unsyncedCap_of_ne nofun)
    · exact (settles h dark (bandUp_reserve_normal up high)).trans (unsyncedCap_normal _)

end Sys2Proof.Machine
end

section
/-!
# Proofs: what the jobs add to the marks of an event

A job told by the view or by the claim table asks for a pass of the wait service and sets latched flags, and never takes
one of them back; it counts nothing (`Adds`). One lemma per operation that the station view can call.
-/
namespace Sys2Proof.Machine

/-- The marks of the event but that for the wait service. -/
def Node.marks (n : Node) : Event := { n.ev with wait := false }

/-- `n` comes from `a` with the mark for the wait service and the latched flags only added to, and nothing else of the
command unit or of the marks changed. -/
def Adds (a n : Node) : Prop :=
  (a.ev.wait = true → n.ev.wait = true) ∧ n.cmd = { a.cmd with flags := n.cmd.flags } ∧
    (∀ f, hasFlag f a = true → hasFlag f n = true) ∧ n.marks = a.marks

theorem hasFlag_setFlag {f g : Flag} {n : Node} (h : f = g ∨ hasFlag f n = true) : hasFlag f (setFlag g n) = true := by
  rcases h with rfl | h
  · cases f <;> simp [hasFlag, setFlag, flagMask, flagBit]
  · simpa [hasFlag, setFlag] using .inl h

namespace Adds

variable {a n : Node}

theorem refl (n : Node) : Adds n n := ⟨id, rfl, fun _ => id, rfl⟩

theorem foldl {α : Type} (f : Node → α → Node) (hf : ∀ m x, Adds a m → Adds a (f m x)) (l : List α) :
    ∀ n, Adds a n → Adds a (l.foldl f n) := by
  induction l with
  | nil => exact fun _ h => h
  | cons x _ ih => exact fun n h => ih (f n x) (hf n x h)

theorem ite {c : Prop} [Decidable c] {x y : Node} (h : Adds a x) (k : Adds a y) : Adds a (if c then x else y) := by
  split <;> assumption

theorem wantWait (h : Adds a n) : Adds a n.wantWait := ⟨fun _ => rfl, h.2⟩

theorem setFlag {f} (h : Adds a n) : Adds a (setFlag f n) := by
  obtain ⟨wait, cmd, flags, marks⟩ := h
  refine ⟨wait, ?_, fun g k => hasFlag_setFlag (.inr (flags g k)), marks⟩
  change { n.cmd with flags := n.cmd.flags ||| flagMask f } = _
  rw [cmd]
  rfl

theorem setPump {v} (h : Adds a n) : Adds a (n.setPump v) := h
theorem setHeater {v} (h : Adds a n) : Adds a (n.setHeater v) := h
theorem setAux {i v} (h : Adds a n) : Adds a (n.setAux i v) := h
theorem ask {i k} (h : Adds a n) : Adds a (ask i k n) := h
theorem setUnit {u v} (h : Adds a n) : Adds a (n.setUnit u v) := by cases u <;> exact h
theorem setBridge {u v} (h : Adds a n) : Adds a (n.setBridge u v) := by cases u <;> exact h

/-! ## Claims -/

theorem fileClaim {i k w d} (h : Adds a n) : Adds a (fileClaim i k w d n) := by
  unfold Machine.fileClaim
  split_ifs
  · exact h
  · exact h
  · exact wantWait h
theorem releaseClaim {i} (h : Adds a n) : Adds a (releaseClaim i n) := by
  unfold Machine.releaseClaim
  split_ifs
  · exact h
  · exact wantWait h
theorem convertClaim {i k} (h : Adds a n) : Adds a (convertClaim i k n) := by
  unfold Machine.convertClaim
  dsimp only
  split_ifs
  · exact fileClaim h
  · exact wantWait h
theorem endClaims {l} (h : Adds a n) : Adds a (endClaims l n) := 
  foldl (fun n i => n.setClaim i {}) (fun _ _ k => k) l n h

/-! ## Tanks, pump and frost monitor -/

theorem pumpStop {c} (h : Adds a n) : Adds a (pumpStop c n) := by
  refine releaseClaim ?_
  split_ifs
  · exact h
  · exact h
theorem pumpFile {c} (h : Adds a n) : Adds a (pumpFile c n) := by
  unfold Machine.pumpFile
  split
  · exact fileClaim h
  · exact h
theorem pumpEvaluate {c} (h : Adds a n) : Adds a (pumpEvaluate c n) := by
  have start : Adds a (if n.view.shed < 2 then n.setPump { n.pump with toldShed := false } else n) := ite h h
  unfold Machine.pumpEvaluate
  dsimp only
  generalize (if n.view.shed < 2 then n.setPump { n.pump with toldShed := false } else n) = k at start ⊢
  split
  · exact pumpStop start
  · exact ite start start
  · exact pumpStop start
  · exact ite start start
  · exact start
  · exact pumpFile start
  · exact start
theorem pumpCheck (h : Adds a n) : Adds a (pumpCheck n) := by
  unfold Machine.pumpCheck
  split
  · exact h
  · exact pumpEvaluate h
theorem pumpShed (h : Adds a n) : Adds a (pumpShed n) := by
  unfold Machine.pumpShed
  split
  · exact h
  · exact ite (setPump (setPump (pumpStop h))) h
theorem frostCheck (h : Adds a n) : Adds a (frostCheck n) := by
  have opens {c : FrostCfg} : Adds a (beginMove .dumping c.openCoil n) := fileClaim h
  unfold Machine.frostCheck frostEvaluate
  dsimp only
  repeat' split
  · exact h
  · exact h
  · exact opens
  · exact h
  · exact h
  · exact h
  · exact opens
  · exact h
  · exact h

/-! ## Heater, lights and AUX outputs -/

theorem enterCooldown {c} (h : Adds a n) : Adds a (enterCooldown c n) := by
  have asked : Adds a (Machine.ask c.fan 100 (Machine.ask c.glow 0 (Machine.fuelOff c n))) := h
  unfold Machine.enterCooldown
  exact setHeater (convertClaim asked)
theorem heaterShed (h : Adds a n) : Adds a (heaterShed n) := by
  have cold {c : HeaterCfg} : Adds a (Machine.setReason .shed (heaterTo .standby (heaterDark c n))) :=
    setHeater (setHeater (ask (ask (setHeater (ask h)))))
  have burning {c : HeaterCfg} : Adds a (Machine.enterCooldown c (Machine.setReason .shed n)) :=
    enterCooldown (setHeater h)
  unfold Machine.heaterShed
  split
  · exact h
  · split
    · exact setHeater h
    · exact cold
    · exact cold
    · exact cold
    · exact burning
    · exact burning
    · exact h
theorem courtesyCheck (h : Adds a n) : Adds a (courtesyCheck n) := by
  obtain ⟨k, e⟩ := courtesyCheck_sets n
  rw [e]
  exact h
theorem auxShed (h : Adds a n) : Adds a (auxShed n) := foldl _ (fun _ _ k => setAux (ite (ask k) k)) _ _ h

/-! ## Motion units -/

theorem bridgeCoast {u} (h : Adds a n) : Adds a (bridgeCoast u n) := by
  unfold Machine.bridgeCoast
  dsimp only
  split
  · exact h
  · exact setBridge h
  · exact setBridge h
theorem bridgeBrake {u} (h : Adds a n) : Adds a (bridgeBrake u n) := ite h (setBridge h)
theorem bridgeClear {u} (h : Adds a n) : Adds a (bridgeClear u n) := ite (setBridge h) h
theorem bridgeDrive {u d} (h : Adds a n) : Adds a (bridgeDrive u d n) :=
  ite h (ite (setBridge h) (ite (setBridge h) (setBridge h)))
theorem beginDrive {u d} (h : Adds a n) : Adds a (beginDrive u d n) := setUnit (bridgeDrive h)
theorem beginDwell {u d} (h : Adds a n) : Adds a (beginDwell u d n) := setUnit (bridgeCoast h)
theorem startMove {u d} (h : Adds a n) : Adds a (startMove u d n) :=
  ite (beginDrive (bridgeClear h)) (beginDwell (bridgeClear h))
theorem upToDate {c u} (h : Adds a n) : Adds a (upToDate c u n) := setUnit h
theorem reportEntry {e o} (h : Adds a n) : Adds a (Machine.report e o n) := by
  unfold Machine.report
  split
  · exact setUnit h
  · exact h
theorem endEntry {e o} (h : Adds a n) : Adds a (endEntry e o n) := reportEntry (n := n.setList _) h
theorem fileHead {c u} (h : Adds a n) : Adds a (fileHead c u n) := by
  unfold Machine.fileHead
  dsimp only
  split
  · exact h
  · refine ite h (ite (endEntry h) (ite (setUnit ?_) (startMove ?_)))
    · exact fileClaim h
    · exact fileClaim h
theorem fileNext {c u} (h : Adds a n) : Adds a (fileNext c u n) := fileHead (fileHead (fileHead (fileHead h)))
theorem finishMove {c u r} (h : Adds a n) : Adds a (finishMove c u r n) := by
  refine fileNext ?_
  have released : Adds a (Machine.releaseClaim (slotUnit u) (n.setUnit u (r (n.unit u)))) := releaseClaim (setUnit h)
  split
  · exact endEntry released
  · exact released
theorem redirect {c u k} (h : Adds a n) : Adds a (redirect c u k n) := by
  have dated : Adds a (Machine.upToDate c u n) := upToDate h
  unfold Machine.redirect
  dsimp only
  split_ifs
  · exact finishMove (bridgeBrake dated)
  · exact dated
  · exact beginDwell dated
  · exact beginDrive dated
  · exact setUnit dated
theorem safetyRequest {u o} (h : Adds a n) : Adds a (safetyRequest u o n) := by
  unfold Machine.safetyRequest
  split
  · exact h
  · refine ite (ite (setFlag h) h) (ite h ?_)
    split
    · exact redirect (convertClaim (n := Node.setList _ _) (reportEntry h))
    · split
      · exact startMove (convertClaim (n := Node.setList _ _) (reportEntry h))
      · exact fileNext (n := Node.setList _ _) h
theorem unitShed {u} (h : Adds a n) : Adds a (unitShed u n) := by
  unfold Machine.unitShed
  split
  · exact h
  · split
    · exact fileNext (endEntry (setUnit (upToDate (bridgeCoast h))))
    · split
      · exact fileNext (endEntry h)
      · exact h
theorem interlockUnit {o u} (h : Adds a n) : Adds a (interlockUnit o u n) := by
  have entries {c : UnitCfg} : Adds a (interlockEntries c u n) :=
    fileNext (foldl _ (fun m e k => endEntry (ite (releaseClaim k) k)) _ _ h)
  unfold Machine.interlockUnit
  split
  · exact h
  · exact ite entries (safetyRequest entries)
theorem motionTravel (h : Adds a n) : Adds a (motionTravel n) := interlockUnit (interlockUnit h)
theorem motionWind (h : Adds a n) : Adds a (motionWind n) := interlockUnit h

/-! ## The view -/

theorem tellShed {i} (h : Adds a n) : Adds a (tellShed i n) :=
  ite (pumpShed h) (ite (heaterShed h) (ite (unitShed h) (ite (unitShed h) (ite (auxShed h) h))))
theorem shedClaims {l} (h : Adds a n) : Adds a (shedClaims l n) :=
  foldl _ (fun _ _ k => tellShed k) l _ (endClaims h)
theorem refreshShed (h : Adds a n) : Adds a (refreshShed n) := ite h (ite (shedClaims (wantWait h)) (wantWait h))
theorem refreshTravel (h : Adds a n) : Adds a (refreshTravel n) := ite h (ite (motionTravel h) h)
theorem refreshWind (h : Adds a n) : Adds a (refreshWind n) := ite h (ite (motionWind h) h)
theorem refreshSource (h : Adds a n) : Adds a (refreshSource n) := h
theorem accept {k s b r} (h : Adds a n) : Adds a (accept k s b r n) := refreshShed (wantWait h)
theorem removePeer {k} (h : Adds a n) : Adds a (removePeer k n) :=
  courtesyCheck (frostCheck (pumpCheck (refreshWind (refreshTravel (wantWait h)))))
theorem derive {x} (h : Adds a n) : Adds a (derive x n) := by
  have taken : Adds a (acceptFrame x (Machine.refreshSource n)) := by
    unfold acceptFrame
    split
    · exact ite (accept h) h
    · exact h
  unfold Machine.derive
  dsimp only
  split
  · exact wantWait taken
  · exact refreshWind (refreshTravel taken)
  · exact taken

end Adds

end Sys2Proof.Machine
end

section
/-!
# Proofs: the station view (chapter 2), and the accountant's events

The view after an acceptance, an orphan expiry, a change of the peer table is written out; the jobs that are then told
leave it (`JobKeeps`). A frame of any kind is dispatched by its row (`frameRow_dispatches`).
-/
namespace Sys2Proof.Machine

/-! ## The effective shed level (R43) -/

/-- A shed level derived afresh: the view holds it, and the jobs that are told do the rest. -/
theorem refreshShed_keeps (n : Node) :
    JobKeeps (n.setView { n.view with shed := effectiveShed n }) (refreshShed n) := by
  unfold refreshShed
  dsimp only
  split_ifs with same
  · have still : n.setView { n.view with shed := effectiveShed n } = n := by rw [same]; rfl
    rw [still]
    exact .refl n
  · exact (JobKeeps.refl _).wantWait.shedClaims
  · exact (JobKeeps.refl _).wantWait

/-- The shed level of a node that is not orphaned. -/
def acceptedShed (n : Node) (shed : Nat) : Nat := if n.state = some .silent ∨ n.state = some .listenOnly then 4 else shed

theorem accept_keeps (allowance shed band ref : Nat) (n : Node) :
    JobKeeps (n.setView { n.view with
      allowance := allowance, sourceShed := shed, band := some band, orphanRef := some ref, orphaned := false
      shed := acceptedShed n shed }) (accept allowance shed band ref n) := by
  have told := refreshShed_keeps (n.setView { n.view with
    allowance := allowance, sourceShed := shed, band := some band, orphanRef := some ref, orphaned := false }).wantWait
  exact (JobKeeps.refl _).wantWait.trans told

/-! ## The accountant's events (R2, R14) -/

theorem nodeEvent_waits {dt : Nat} {occ : Node → Bool} {body : Node → Node} {s : State}
    (reads : ∀ n, occ (keepTemp n) = occ n) (h : occ (s.found dt) = false) :
    nodeEvent dt occ body s = .next { s with node := advance dt s.node } :=
  event_waits (.inr ((reads _).symm.trans h))

theorem reached_iff {n : Node} {t : Nat} : n.reached (some t) = true ↔ t ≤ n.now := decide_eq_true_iff

theorem keepTemp_sampleDue (n : Node) : sampleDue (keepTemp n) = sampleDue n := by simp [sampleDue]

theorem keepTemp_minuteDue (n : Node) : minuteDue (keepTemp n) = minuteDue n := by simp [minuteDue]

/-- The node of a sample before its results are handed over. -/
def sampled (c : BatteryCfg) (raw : Int) (volt : Nat) (n : Node) : Node :=
  let b := sampleBattery c raw volt n.now (c.temp.bind n.validTemp) (c.charge.any n.inputActive) n.battery
  let n' := n.setBattery { b with due := n.battery.due.map (· + samplePeriod) }
  let n' := if n.battery.step = 0 ∧ b.step = 1 then bump .overdraw n' else n'
  if sampleChanged n.battery b then n'.setEv { n'.ev with allowance := true } else n'

theorem measure_eq (c : BatteryCfg) (raw : Int) (volt : Nat) (n : Node) :
    measure c raw volt n = handOver (sampled c raw volt n) := rfl

theorem sampled_parts (c : BatteryCfg) (raw : Int) (volt : Nat) (n : Node) :
    let m := sampled c raw volt n
    let b := sampleBattery c raw volt n.now (c.temp.bind n.validTemp) (c.charge.any n.inputActive) n.battery
    m = { n with battery := { b with due := n.battery.due.map (· + 100) }, cmd := m.cmd, ev := m.ev } ∧
      m.cmd = if n.battery.step = 0 ∧ b.step = 1 then (bump .overdraw n).cmd else n.cmd := by
  unfold sampled
  dsimp only
  split_ifs <;> exact ⟨rfl, rfl⟩

theorem handOver_other {n : Node} (h : n.view.source ≠ some .own) : handOver n = n := by
  unfold handOver
  split
  · exact if_neg h
  · rfl

/-- The results handed over to the node's own view: an acceptance, of which the jobs are told. -/
theorem handOver_own {n : Node} {r : Sample} (h : n.view.source = some .own) (last : n.battery.last = some r) :
    handOver n = accept (r.allowance / 100) r.shed (bandCode r.band) n.now n := by
  simp only [handOver, last, h, if_true]

/-- Settles O11: the sample's own writes, then the hand-over; and the whole minutes. -/
theorem batteryEvents : Obligations.BatteryEvents := by
  unfold Obligations.BatteryEvents
  constructor
  · rintro s dt raw volt n c due rfl up cfg isDue reached b
    have acts : exec (.measurementEvent dt raw volt) s = .next (s.ended dt s.rx (measure c raw volt (s.found dt))) := by
      change execMeasurementEvent dt raw volt s = _
      unfold execMeasurementEvent
      refine (nodeEvent_found keepTemp_sampleDue up ?_).trans ?_
      · simp [sampleDue, cfg, isDue, Node.reached, reached]
      · simp only [cfg]
    obtain ⟨frame, cmd⟩ := sampled_parts c raw volt (s.found dt)
    refine ⟨_, acts, ?_⟩
    rw [measure_eq]
    generalize sampled c raw volt (s.found dt) = m at frame cmd
    have battery : m.battery = { b with due := some (due + 100) } := by
      rw [frame, isDue]
      rfl
    have source : m.view.source = (s.found dt).view.source := by rw [frame]
    by_cases own : (s.found dt).view.source = some .own
    · obtain ⟨r, last⟩ : ∃ r, b.last = some r := ⟨_, sampleBattery_last⟩
      have mlast : m.battery.last = some r := by rw [battery]; exact last
      have keeps := accept_keeps (r.allowance / 100) r.shed (bandCode r.band) m.now m
      rw [handOver_own (source.trans own) mlast]
      refine ⟨keeps.battery.trans battery, keeps.now.trans (by rw [frame]; rfl), keeps.cfg.trans (by rw [frame]; rfl),
        keeps.state.trans (by rw [frame]; rfl), keeps.tx.trans (by rw [frame]; rfl), keeps.pub.trans (by rw [frame]; rfl),
        keeps.wind.trans (by rw [frame]; rfl), keeps.temps.trans (by rw [frame]; rfl), ?_, fun h => absurd own h,
        fun _ r' same => ?_⟩
      · rw [keeps.view, frame]
        rfl
      · obtain rfl : r = r' := Option.some.inj (last.symm.trans same)
        rw [keeps.view]
        refine ⟨rfl, rfl, rfl, rfl, by rw [frame]; rfl, fun silent listen => ?_⟩
        have state : m.state = (s.found dt).state := by rw [frame]
        exact if_neg (by rw [state]; exact not_or.mpr ⟨silent, listen⟩)
    · rw [handOver_other (by rw [source]; exact own)]
      refine ⟨battery, by rw [frame], by rw [frame], by rw [frame], by rw [frame], by rw [frame], by rw [frame],
        by rw [frame], by rw [frame], fun _ => ⟨by rw [battery, frame, isDue]; rfl, fun h k => ?_, fun h => ?_⟩, fun h => absurd h own⟩
      · rw [cmd, if_pos ⟨h, k⟩]
      · rw [cmd, if_neg (not_and_or.mpr h)]
  · rintro s dt n t rfl up synced
    refine ⟨fun due below => ?_, fun early => ?_⟩
    · change execMinutesSinceSyncTick dt s = _
      unfold execMinutesSinceSyncTick
      refine (nodeEvent_found keepTemp_minuteDue up ?_).trans ?_
      · simp [minuteDue, synced, later, Node.reached, below, due, counterTop]
      · have next : satSucc (s.found dt).battery.minutes = (s.found dt).battery.minutes + 1 := by
          simp only [satSucc, counterTop]
          omega
        rw [next]
        rfl
    · change execMinutesSinceSyncTick dt s = _
      unfold execMinutesSinceSyncTick
      refine nodeEvent_waits keepTemp_minuteDue ?_
      rcases early with top | early
      · simp [minuteDue, top, counterTop]
      · simp [minuteDue, synced, later, Node.reached, not_le.mpr early]

end Sys2Proof.Machine
end

section
/-!
# Proofs: the rows of the station view (chapter 2)

Every frame is dispatched by its row (`frameRow_dispatches`); a frame that is admitted writes its entry of the peer
table (`upsertPeer_writes`), and what the view derives from the table follows (`lowest_spec`).
-/
namespace Sys2Proof.Machine

/-! ## Every frame has its row -/

/-- A row dispatches a COMMAND, and does nothing further with one for another target. -/
def RunsBy (dt : Nat) (b : CommandBody) (row : Instr) : Prop :=
  ∃ p run, p (.command b) = true ∧ (∀ s, exec row s = dispatchEvent dt p (onCommand run) s) ∧
    ∀ source n, n.station ≠ some b.target → b.target ≠ 0 → run source b n = n

theorem runAddressed_deaf {lengthOk act source b} {n : Node} (h : n.station ≠ some b.target) :
    runAddressed lengthOk act source b n = n := if_neg h

theorem runQuery_deaf {lengthOk act source b} {n : Node} (h : n.station ≠ some b.target) :
    runQuery lengthOk act source b n = n := by
  unfold runQuery
  split
  · exact runAddressed_deaf h
  · rfl

theorem runCommand_deaf {duty lengthOk act source b} {n : Node} (h : n.station ≠ some b.target) (k : b.target ≠ 0) :
    runCommand duty lengthOk act source b n = n := (if_neg h).trans (if_neg fun t => k t.1)

section
variable {dt code : Nat} {args : List Byte → Bool} {b : CommandBody} {row : Instr}

theorem isCommandOf_of (h : b.code = code) (k : args b.args = true) : isCommandOf code args (.command b) = true := by
  simp [isCommandOf, h, k]

theorem RunsBy.checked {duty lengthOk act}
    (e : ∀ s, exec row s = commandEvent dt code args (runCommand duty lengthOk act) s)
    (h : b.code = code) (k : args b.args = true) : RunsBy dt b row :=
  ⟨_, _, isCommandOf_of h k, e, fun _ _ => runCommand_deaf⟩

theorem RunsBy.query {lengthOk act} (e : ∀ s, exec row s = commandEvent dt code args (runQuery lengthOk act) s)
    (h : b.code = code) (k : args b.args = true) : RunsBy dt b row :=
  ⟨_, _, isCommandOf_of h k, e, fun _ _ d _ => runQuery_deaf d⟩

theorem RunsBy.addressed {lengthOk act} (e : ∀ s, exec row s = commandEvent dt code args (runAddressed lengthOk act) s)
    (h : b.code = code) (k : args b.args = true) : RunsBy dt b row :=
  ⟨_, _, isCommandOf_of h k, e, fun _ _ d _ => runAddressed_deaf d⟩

end

/-- The row of a COMMAND dispatches it, whatever its code and arguments. -/
theorem commandRow_runs (dt : Nat) (b : CommandBody) : RunsBy dt b (commandRow dt b) := by
  unfold commandRow
  split
  next h => exact .checked (fun _ => rfl) h rfl
  next h => exact .checked (fun _ => rfl) h rfl
  next h => exact .checked (fun _ => rfl) h rfl
  next h => exact .checked (fun _ => rfl) h rfl
  next h => exact .checked (fun _ => rfl) h rfl
  next h => exact .checked (fun _ => rfl) h rfl
  next h => exact .checked (fun _ => rfl) h rfl
  next h => exact .checked (fun _ => rfl) h rfl
  next h => exact .checked (fun _ => rfl) h rfl
  next h => exact .checked (fun _ => rfl) h rfl
  next h =>
    split
    next k => exact .checked (fun _ => rfl) h (by simp [k])
    next k => exact .checked (fun _ => rfl) h (by simp [k])
    next k => exact .checked (fun _ => rfl) h (by simp [k])
    next k2 k3 k4 => exact .checked (fun _ => rfl) h (by simpa using ⟨⟨k2, k3⟩, k4⟩)
  next h =>
    split
    next k => exact .checked (fun _ => rfl) h (by simp [k])
    next k => exact .checked (fun _ => rfl) h (by simp [k])
    next k2 k3 => exact .checked (fun _ => rfl) h (by simpa using ⟨k2, k3⟩)
  next h => exact .checked (fun _ => rfl) h rfl
  next h => exact .checked (fun _ => rfl) h rfl
  next h => exact .checked (fun _ => rfl) h rfl
  next h => exact .query (fun _ => rfl) h rfl
  next h => exact .query (fun _ => rfl) h rfl
  next h => exact .query (fun _ => rfl) h rfl
  next h => exact .addressed (fun _ => rfl) h rfl
  next =>
    refine ⟨isUnknown, _, ?_, fun _ => rfl, fun _ _ d _ => runAddressed_deaf d⟩
    simp_all [isUnknown, commandCodes]

/-- The row of a kind that is not COMMAND dispatches the frames of the kind. -/
theorem dispatchRow_dispatches {dt : Nat} {f : Frame} {c : Instr} (h : dispatchRow dt (kindOf f) = some c) :
    ∃ p job, p f = true ∧ (∀ s, exec c s = dispatchEvent dt p job s) ∧
      (∀ x n, JobKeeps n (job x n)) ∧ (∀ b, f ≠ .command b) := by
  cases f <;> simp only [kindOf, dispatchRow, Option.some.injEq, reduceCtorEq] at h <;> subst h
  · exact ⟨_, _, rfl, fun _ => rfl, fun _ n => .refl n, nofun⟩
  · exact ⟨_, _, rfl, fun _ => rfl, fun _ n => .refl n, nofun⟩
  · exact ⟨_, _, rfl, fun _ => rfl, fun _ n => .refl n, nofun⟩
  · exact ⟨_, _, rfl, fun _ => rfl, fun _ n => (JobKeeps.refl n).pumpCheck, nofun⟩
  · exact ⟨_, _, rfl, fun _ => rfl, fun _ n => (JobKeeps.refl n).frostCheck, nofun⟩
  · exact ⟨_, _, rfl, fun _ => rfl, fun _ n => (JobKeeps.refl n).courtesyCheck, nofun⟩
  · exact ⟨_, _, rfl, fun _ => rfl, fun _ n => .refl n, nofun⟩
  · exact ⟨_, _, rfl, fun _ => rfl, fun _ n => .refl n, nofun⟩
  · exact ⟨_, _, rfl, fun _ => rfl, fun _ n => .refl n, nofun⟩

theorem frameRow_dispatches (dt : Nat) (f : Frame) :
    ∃ p job, p f = true ∧ ∀ s, exec (frameRow dt f) s = dispatchEvent dt p job s := by
  by_cases h : ∃ b, f = .command b
  · obtain ⟨b, rfl⟩ := h
    obtain ⟨p, run, holds, runs, -⟩ := commandRow_runs dt b
    exact ⟨p, _, holds, runs⟩
  · obtain ⟨c, row⟩ : ∃ c, dispatchRow dt (kindOf f) = some c := by
      cases f with
      | command b => exact absurd ⟨b, rfl⟩ h
      | _ => exact ⟨_, rfl⟩
    have frame : frameRow dt f = c := by
      cases f with
      | command b => exact absurd ⟨b, rfl⟩ h
      | _ => exact Option.some.inj row
    obtain ⟨p, job, holds, runs, -⟩ := dispatchRow_dispatches row
    exact ⟨p, job, holds, frame ▸ runs⟩

/-! ## Frames that are not taken (R35, R36) -/

theorem dispatch_untaken {job : Node → Node} {x : RxFrame} {n m : Node} (h : takeFrame x n = (m, false)) :
    dispatch job x n = m := by simp [dispatch, h]

theorem takeFrame_own {x : RxFrame} {n : Node} (low : 1 ≤ x.source) (high : x.source ≤ 14)
    (own : n.station = some x.source) : takeFrame x n = (sighting x.stamp n, false) :=
  (if_neg (not_or.mpr ⟨not_lt.mpr low, not_lt.mpr high⟩)).trans (if_pos own)

theorem sighting_silent {stamp : Nat} {n : Node} (h : n.state = some .silent) : sighting stamp n = n :=
  if_neg (by simp [h])

theorem upsertPeer_full {x : RxFrame} {peers : List Peer} (full : 13 ≤ peers.length)
    (unknown : peers.any (·.station == x.source) = false) : upsertPeer x peers = none := by
  have limit : ¬ peers.length < peerLimit := not_lt.mpr full
  simp only [upsertPeer, unknown, limit, if_false, Bool.false_eq_true]

theorem takeFrame_untaken {x : RxFrame} {n : Node} (h : x.source = 0 ∨ 14 < x.source ∨
    (n.station = some x.source ∧ n.state = some .silent) ∨ (n.station ≠ some x.source ∧ (x.stamp + 3500 < n.now ∨
      (13 ≤ n.view.peers.length ∧ n.view.peers.any (·.station == x.source) = false)))) :
    takeFrame x n = (n, false) := by
  by_cases out : x.source < 1 ∨ 14 < x.source
  · exact if_pos out
  obtain ⟨low, high⟩ := not_or.mp out
  rcases h with zero | above | ⟨own, silent⟩ | ⟨other, stale | ⟨full, unknown⟩⟩
  · exact absurd (by omega) low
  · exact absurd above high
  · rw [takeFrame_own (not_lt.mp low) (not_lt.mp high) own, sighting_silent silent]
  · exact (if_neg out).trans ((if_neg other).trans (if_pos stale))
  · refine (if_neg out).trans ((if_neg other).trans ?_)
    rw [upsertPeer_full full unknown]
    exact ite_self _

/-! ## The peer table (R36, R37) -/

/-- The entry that a frame creates or fills. -/
def entryOf (x : RxFrame) (p : Peer) : Peer := fillPart x.frame { p with heard := x.stamp }

/-- A frame that is admitted fills the sender's entry, creating it where there is none; the other entries stay. -/
theorem upsertPeer_writes {x : RxFrame} {peers : List Peer}
    (room : peers.any (·.station == x.source) = true ∨ peers.length < 13) :
    ∃ new, upsertPeer x peers = some new ∧
      (∀ p ∈ peers, p.station = x.source → entryOf x p ∈ new) ∧
      (peers.any (·.station == x.source) = false → entryOf x { station := x.source, heard := x.stamp } ∈ new) ∧
      (∀ p ∈ peers, p.station ≠ x.source → p ∈ new) ∧
      (∀ q ∈ new, q.station = x.source ∧ (∃ p, q = entryOf x p) ∨ q.station ≠ x.source ∧ q ∈ peers) ∧
      new.length = if peers.any (·.station == x.source) then peers.length else peers.length + 1 := by
  by_cases known : peers.any (·.station == x.source) = true
  · refine ⟨peers.map fun p : Peer => if p.station = x.source then entryOf x p else p, if_pos known, fun p hp same => ?_,
      fun unknown => absurd known (by simp [unknown]), fun p hp other => ?_, fun q hq => ?_, ?_⟩
    · exact List.mem_map.mpr ⟨p, hp, if_pos same⟩
    · exact List.mem_map.mpr ⟨p, hp, if_neg other⟩
    · obtain ⟨p, hp, rfl⟩ := List.mem_map.mp hq
      split
      · exact .inl ⟨(Fit.fillPart_station ..).trans ‹_›, p, rfl⟩
      · exact .inr ⟨‹_›, hp⟩
    · rw [List.length_map, if_pos known]
  · have unknown : peers.any (·.station == x.source) = false := by simpa using known
    have fits : peers.length < peerLimit := room.resolve_left known
    refine ⟨peers ++ [entryOf x { station := x.source, heard := x.stamp }], ?_, fun p hp same => ?_,
      fun _ => List.mem_append_right _ List.mem_cons_self, fun p hp _ => List.mem_append_left _ hp, fun q hq => ?_, ?_⟩
    · simp only [upsertPeer, unknown, fits, if_true, if_false, Bool.false_eq_true]
      rfl
    · exact absurd (List.any_eq_true.mpr ⟨p, hp, by simpa using same⟩) known
    · rcases List.mem_append.mp hq with old | new
      · refine .inr ⟨fun same => known (List.any_eq_true.mpr ⟨q, old, by simpa using same⟩), old⟩
      · rw [List.mem_singleton.mp new]
        exact .inl ⟨Fit.fillPart_station .., _, rfl⟩
    · rw [List.length_append, List.length_singleton, if_neg known]

theorem takeFrame_admitted {s : State} {dt : Nat} {x : RxFrame} {rest : List RxFrame} (a : Admitted s dt x rest)
    {peers : List Peer} (h : upsertPeer x (s.found dt).view.peers = some peers) : takeFrame x (s.found dt) =
      (derive x ((s.found dt).setView { (s.found dt).view with peers := peers }), true) := by
  refine (if_neg (not_or.mpr ⟨not_lt.mpr a.low, not_lt.mpr a.high⟩)).trans ((if_neg a.other).trans
    ((if_neg (not_lt.mpr a.fresh)).trans ?_))
  rw [h]

/-- An admitted frame of a row is dispatched, and its job is done. -/
theorem dispatchEvent_admitted {s : State} {dt : Nat} {x : RxFrame} {rest : List RxFrame} {p job}
    (a : Admitted s dt x rest) (holds : p x.frame = true) {peers : List Peer}
    (h : upsertPeer x (s.found dt).view.peers = some peers) : dispatchEvent dt p job s = .next (s.ended dt
      (s.rx.without rest) (job x (derive x ((s.found dt).setView { (s.found dt).view with peers := peers })))) := by
  rw [dispatchEvent_acts a.up a.head holds, dispatch, takeFrame_admitted a h]
  rfl

/-! ## What the view derives from the table (R39 to R45) -/

/-- `m` comes from `n` by a change of the view other than of the peer table, and by what the jobs then do. -/
structure ViewKeeps (n m : Node) : Prop where
  peers : m.view.peers = n.view.peers
  now : m.now = n.now
  station : m.station = n.station
  state : m.state = n.state
  cfg : m.cfg = n.cfg
  battery : m.battery = n.battery
  tx : m.tx = n.tx
  pub : m.pub = n.pub
  wind : m.wind = n.wind
  temps : m.bank.temps = n.bank.temps
  map : m.cmd.map = n.cmd.map

theorem ViewKeeps.refl (n : Node) : ViewKeeps n n := ⟨rfl, rfl, rfl, rfl, rfl, rfl, rfl, rfl, rfl, rfl, rfl⟩

theorem ViewKeeps.trans {n m k : Node} (h : ViewKeeps n m) (j : ViewKeeps m k) : ViewKeeps n k :=
  ⟨j.peers.trans h.peers, j.now.trans h.now, j.station.trans h.station, j.state.trans h.state, j.cfg.trans h.cfg,
    j.battery.trans h.battery, j.tx.trans h.tx, j.pub.trans h.pub, j.wind.trans h.wind, j.temps.trans h.temps,
    j.map.trans h.map⟩

theorem ViewKeeps.of_jobs {n m : Node} {v : View} (peers : v.peers = n.view.peers) (h : JobKeeps (n.setView v) m) :
    ViewKeeps n m :=
  ⟨(congrArg View.peers h.view).trans peers, h.now, h.station, h.state, h.cfg, h.battery, h.tx, h.pub, h.wind, h.temps, h.map⟩

theorem refreshTravel_keeps (n : Node) :
    JobKeeps (n.setView { n.view with travel := n.ownTravel || n.view.peers.any (·.travel) }) (refreshTravel n) := by
  unfold refreshTravel
  dsimp only
  split_ifs with same on
  · have still : n.setView { n.view with travel := n.ownTravel || n.view.peers.any (·.travel) } = n := by rw [same]; rfl
    rw [still]
    exact .refl n
  · exact (JobKeeps.refl _).tanksTravel.motionTravel
  · exact (JobKeeps.refl _).tanksTravel

theorem refreshWind_keeps (n : Node) :
    JobKeeps (n.setView { n.view with wind := n.ownWind || n.view.peers.any (·.wind) }) (refreshWind n) := by
  unfold refreshWind
  dsimp only
  split_ifs with same on
  · have still : n.setView { n.view with wind := n.ownWind || n.view.peers.any (·.wind) } = n := by rw [same]; rfl
    rw [still]
    exact .refl n
  · exact (JobKeeps.refl _).motionWind
  · exact .refl _

theorem acceptFrame_keeps (x : RxFrame) (n : Node) : ViewKeeps n (acceptFrame x n) := by
  unfold acceptFrame
  split
  · split
    · exact .of_jobs (by rfl) (accept_keeps ..)
    · exact .refl n
  · exact .refl n

theorem derive_keeps (x : RxFrame) (n : Node) : ViewKeeps n (derive x n) := by
  have source : ViewKeeps n (acceptFrame x (refreshSource n)) :=
    (ViewKeeps.of_jobs (n := n) (v := (refreshSource n).view) rfl (.refl _)).trans (acceptFrame_keeps x _)
  unfold derive
  dsimp only
  split
  · exact source.trans ⟨rfl, rfl, rfl, rfl, rfl, rfl, rfl, rfl, rfl, rfl, rfl⟩
  · exact source.trans ((ViewKeeps.of_jobs (by rfl) (refreshTravel_keeps _)).trans
      (.of_jobs (by rfl) (refreshWind_keeps _)))
  · exact source

/-- A COMMAND has nothing derived of it but the source and the conflict flag. -/
theorem derive_command {x : RxFrame} {b : CommandBody} (h : x.frame = .command b) (n : Node) :
    derive x n = refreshSource n := by
  simp only [derive, acceptFrame, h]

/-- Settles O22: the row of a frame dispatches it, the entry is written, and what is derived leaves the table. -/
theorem dispatches : Obligations.Dispatches := by
  unfold Obligations.Dispatches
  refine ⟨⟨?_, fun p => ⟨fun _ => rfl, fun _ => rfl, fun _ => rfl, fun _ _ => rfl, fun _ => rfl, fun _ _ => rfl,
    fun _ => rfl, fun _ => rfl, fun _ => rfl, fun _ => rfl⟩⟩, ?_, ?_⟩
  · rintro s dt x rest n c rfl a row
    obtain ⟨p, job, holds, runs, keeps, -⟩ := dispatchRow_dispatches row
    obtain ⟨new, table, filled, created, others, -, length⟩ := upsertPeer_writes a.room
    have told : ViewKeeps ((s.found dt).setView { (s.found dt).view with peers := new })
        (job x (derive x ((s.found dt).setView { (s.found dt).view with peers := new }))) :=
      (derive_keeps x _).trans (.of_jobs rfl (keeps x _))
    have peers := told.peers
    refine ⟨_, (runs s).trans (dispatchEvent_admitted a holds table), ?_, ?_, ?_, ?_, told.now, told.state, told.cfg,
      told.battery, told.tx, told.pub, told.wind, told.temps, told.map⟩
    · rw [peers]; exact filled
    · rw [peers]; exact created
    · rw [peers]; exact others
    · rw [peers]; exact length
  · rintro s dt x rest n b rfl a frame target other
    obtain ⟨p, run, holds, runs, deaf⟩ := commandRow_runs dt b
    obtain ⟨new, table, filled, created, others, -, length⟩ := upsertPeer_writes a.room
    have entry (p : Peer) : entryOf x p = { p with heard := x.stamp } := by rw [entryOf, frame]; rfl
    simp only [entry] at filled created
    let m := refreshSource ((s.found dt).setView { (s.found dt).view with peers := new })
    have acts : exec (commandRow dt b) s = .next (s.ended dt (s.rx.without rest) m) := by
      rw [runs, dispatchEvent_admitted a (frame ▸ holds) table, derive_command frame, onCommand, frame]
      exact congrArg (fun m => Host.Outcome.next (s.ended dt (s.rx.without rest) m)) (deaf x.source m other target)
    exact ⟨m, acts, rfl, filled, created, others, length⟩
  · rintro s dt x rest n rfl up head untaken
    obtain ⟨p, job, holds, runs⟩ := frameRow_dispatches dt x.frame
    rw [runs, dispatchEvent_acts up head holds, dispatch_untaken (takeFrame_untaken untaken)]

end Sys2Proof.Machine
end

section
/-!
# Proofs: silence, the allowance source and the expiries (chapter 2)

A node that is not ACTIVE files no command's claim, so that the jobs told SHED at the entry to SILENT leave every claim
IDLE or of class 4 (`Silenced`).
-/
namespace Sys2Proof.Machine

/-! ## No claim below class 4 survives the entry to SILENT (R31) -/

/-- The node is not ACTIVE, and no claim of it is one that SILENT ends. -/
def Silenced (n : Node) : Prop := n.isActive = false ∧ ∀ i, silentEnds (n.claim i) = false

theorem silentEnds_iff {c : Claim} : silentEnds c = false ↔ c.state = .idle ∨ 4 ≤ c.cls := by
  simp [silentEnds, or_comm, or_iff_not_imp_right]

namespace Silenced

variable {n : Node}

theorem ite {c : Prop} [Decidable c] {x y : Node} (h : Silenced x) (k : Silenced y) : Silenced (if c then x else y) := by
  split <;> assumption

theorem foldl {α : Type} (f : Node → α → Node) (hf : ∀ m x, Silenced m → Silenced (f m x)) (l : List α) :
    ∀ n, Silenced n → Silenced (l.foldl f n) := by
  induction l with
  | nil => exact fun _ h => h
  | cons x _ ih => exact fun n h => ih (f n x) (hf n x h)

theorem setClaim {i c} (hc : silentEnds c = false) (h : Silenced n) : Silenced (n.setClaim i c) := by
  refine ⟨h.1, fun j => ?_⟩
  rw [Node.claim_setClaim]
  split
  · exact hc
  · exact h.2 j
theorem wantWait (h : Silenced n) : Silenced n.wantWait := h
theorem setPump {v} (h : Silenced n) : Silenced (n.setPump v) := h
theorem setHeater {v} (h : Silenced n) : Silenced (n.setHeater v) := h
theorem setAux {i v} (h : Silenced n) : Silenced (n.setAux i v) := h
theorem ask {i k} (h : Silenced n) : Silenced (ask i k n) := h
theorem setList {l} (h : Silenced n) : Silenced (n.setList l) := h
theorem setUnit {u v} (h : Silenced n) : Silenced (n.setUnit u v) := by cases u <;> exact h
theorem setBridge {u v} (h : Silenced n) : Silenced (n.setBridge u v) := by cases u <;> exact h

theorem releaseClaim {i} (h : Silenced n) : Silenced (releaseClaim i n) := ite h (setClaim (i := i) rfl h)
/-- A filing of class 4. -/
theorem fileClaim {i k w} (h : Silenced n) : Silenced (fileClaim i 4 k w n) := by
  unfold Machine.fileClaim
  split_ifs
  · exact h
  · exact setClaim rfl h
  · exact absurd rfl ‹_›
theorem convertClaim {i k} (h : Silenced n) : Silenced (convertClaim i k n) := by
  unfold Machine.convertClaim
  dsimp only
  split_ifs
  · exact fileClaim h
  · exact wantWait (setClaim rfl h)

theorem pumpShed (h : Silenced n) : Silenced (pumpShed n) := by
  have stopped {c : PumpCfg} : Silenced (pumpStop c n) := releaseClaim (ite (ask h) h)
  unfold Machine.pumpShed
  split
  · exact h
  · exact ite (setPump (setPump stopped)) h

theorem enterCooldown {c} (h : Silenced n) : Silenced (enterCooldown c n) := by
  have asked : Silenced (Machine.ask c.fan 100 (Machine.ask c.glow 0 (Machine.fuelOff c n))) := h
  unfold Machine.enterCooldown
  exact setHeater (convertClaim asked)

theorem heaterShed (h : Silenced n) : Silenced (heaterShed n) := by
  have cold {c : HeaterCfg} : Silenced (Machine.setReason .shed (heaterTo .standby (heaterDark c n))) :=
    setHeater (setHeater (ask (ask (setHeater (ask h)))))
  have burning {c : HeaterCfg} : Silenced (Machine.enterCooldown c (Machine.setReason .shed n)) :=
    enterCooldown (setHeater h)
  unfold Machine.heaterShed
  split
  · exact h
  · split
    · exact setHeater h
    · exact cold
    · exact cold
    · exact cold
    · exact burning
    · exact burning
    · exact h

theorem bridgeCoast {u} (h : Silenced n) : Silenced (bridgeCoast u n) := by
  obtain ⟨b, e, -⟩ := bridgeCoast_puts u n
  rw [e]
  exact setBridge (setUnit h)

theorem startMove {u d} (h : Silenced n) : Silenced (startMove u d n) := by
  obtain ⟨m, b, e, -⟩ := startMove_puts u d n
  rw [e]
  exact setBridge (setUnit h)

theorem endEntry {e o} (h : Silenced n) : Silenced (endEntry e o n) := by
  unfold Machine.endEntry report
  split
  · exact setUnit (setList h)
  · exact setList h

/-- A command entry does not file outside ACTIVE (R29), and a safety entry files in class 4. -/
theorem fileHead {c u} (h : Silenced n) : Silenced (fileHead c u n) := by
  unfold Machine.fileHead
  dsimp only
  split
  · exact h
  · rename_i e _
    split_ifs with waits there command
    · exact h
    · exact endEntry h
    · exact absurd (.inr (.inr (.inr ⟨command, by simp [h.1]⟩))) waits
    · exact startMove (setList (fileClaim h))

theorem fileNext {c u} (h : Silenced n) : Silenced (fileNext c u n) := fileHead (fileHead (fileHead (fileHead h)))

theorem unitShed {u} (h : Silenced n) : Silenced (unitShed u n) := by
  unfold Machine.unitShed
  split
  · exact h
  · split
    · exact fileNext (endEntry (setUnit (setUnit (bridgeCoast h))))
    · split
      · exact fileNext (endEntry h)
      · exact h

theorem auxShed (h : Silenced n) : Silenced (auxShed n) := foldl _ (fun _ _ k => setAux (ite (ask k) k)) _ _ h

theorem tellShed {i} (h : Silenced n) : Silenced (tellShed i n) :=
  ite (pumpShed h) (ite (heaterShed h) (ite (unitShed h) (ite (unitShed h) (ite (auxShed h) h))))

end Silenced

/-- With the claims ended that SILENT ends, and their jobs told, none of them is left. -/
theorem shedClaims_silenced {n : Node} (h : n.isActive = false) :
    Silenced (shedClaims (slots.filter fun i => silentEnds (n.claim i)) n) := by
  refine Silenced.foldl _ (fun _ _ k => k.tellShed) _ _ ⟨?_, fun i => ?_⟩
  · obtain ⟨state, -⟩ := Fit.endClaims_parts (slots.filter fun i => silentEnds (n.claim i)) n
    exact (congrArg (· == some NodeState.active) state).trans h
  · rw [Fit.claim_endClaims]
    split
    · rfl
    · rename_i kept
      simpa [Fit.mem_slots] using kept

/-! ## Sightings (R32) -/

/-- The first sighting, and one too late to count as the second. -/
theorem sighting_first {stamp : Nat} {n : Node}
    (state : n.state = some .listenOnly ∨ n.state = some .listening ∨ n.state = some .active)
    (late : ∀ t, n.view.sighting = some t → t + 10000 < stamp) :
    sighting stamp n = (setFlag .duplicateSeen n).setView { n.view with sighting := some stamp } := by
  refine (if_pos state).trans ?_
  have view : (setFlag .duplicateSeen n).view = n.view := rfl
  simp only [view]
  split
  · exact if_neg (not_le.mpr (late _ ‹_›))
  · rfl

theorem sighting_second {stamp t : Nat} {n : Node}
    (state : n.state = some .listenOnly ∨ n.state = some .listening ∨ n.state = some .active)
    (seen : n.view.sighting = some t) (soon : stamp ≤ t + 10000) :
    sighting stamp n = enterSilent (setFlag .duplicateSeen n) := by
  refine (if_pos state).trans ?_
  have view : (setFlag .duplicateSeen n).view.sighting = some t := seen
  simp only [view]
  exact if_pos soon

/-- The node that enters SILENT, before its claims are ended. -/
def silentNode (n : Node) : Node :=
  { n with state := some .silent, pub := {}, view := { n.view with shed := 4, listen := none },
           tx := { n.tx with queue := if n.tx.attempt = .none then [] else n.tx.queue.take 1 } }

theorem enterSilent_eq (n : Node) : enterSilent n =
    shedClaims (slots.filter fun i => silentEnds ((silentNode n).claim i)) (silentNode n) := rfl

/-- Settles O23: what a sighting writes, and what the entry to SILENT writes and the jobs then leave. -/
theorem secondSightingSilences : Obligations.SecondSightingSilences := by
  unfold Obligations.SecondSightingSilences
  rintro s dt x rest n rfl head own low high state
  have up : (s.found dt).up = true := by rcases state with h | h | h <;> simp [Node.up, h]
  obtain ⟨p, job, holds, runs⟩ := frameRow_dispatches dt x.frame
  have acts : exec (frameRow dt x.frame) s =
      .next (s.ended dt (s.rx.without rest) (sighting x.stamp (s.found dt))) := by
    rw [runs, dispatchEvent_acts up head holds, dispatch_untaken (takeFrame_own low high own)]
  have flag : hasFlag .duplicateSeen (setFlag .duplicateSeen (s.found dt)) = true := hasFlag_setFlag (.inl rfl)
  refine ⟨_, acts, ?_⟩
  by_cases late : ∀ t, (s.found dt).view.sighting = some t → t + 10000 < x.stamp
  · rw [sighting_first state late]
    refine ⟨flag, rfl, rfl, fun _ => rfl, fun t seen soon => absurd (late t seen) (not_lt.mpr soon)⟩
  · push Not at late
    obtain ⟨t, seen, soon⟩ := late
    rw [sighting_second state seen soon, enterSilent_eq]
    let k := silentNode (setFlag .duplicateSeen (s.found dt))
    have adds : Adds k (shedClaims (slots.filter fun i => silentEnds (k.claim i)) k) := (Adds.refl k).shedClaims
    have keeps : JobKeeps k (shedClaims (slots.filter fun i => silentEnds (k.claim i)) k) := (JobKeeps.refl k).shedClaims
    have silent := shedClaims_silenced (n := k) rfl
    obtain ⟨-, cmd, flags, -⟩ := adds
    refine ⟨flags _ flag, cmd, keeps.reply, fun h => absurd (h t seen) (not_lt.mpr soon), fun _ _ _ => ?_⟩
    refine ⟨keeps.state, ?_, ?_, ?_, keeps.pub, ?_, ?_, fun i => silentEnds_iff.mp (silent.2 i), keeps.battery, keeps.cfg⟩
    · rw [keeps.view]; rfl
    · rw [keeps.view]; rfl
    · rw [keeps.view]; rfl
    · rw [keeps.tx]; rfl
    · rw [keeps.tx]; rfl

/-! ## The allowance source (R39 to R41) -/

/-- The lowest element of a list that is not empty is one of it, and none is lower. -/
theorem lowest_spec {α : Type} {l : List (Nat × α)} (h : l ≠ []) :
    ∃ b ∈ l, lowest l = some b.2 ∧ ∀ y ∈ l, b.1 ≤ y.1 := by
  have fold : ∀ (l : List (Nat × α)) (x : Nat × α), ∃ b ∈ x :: l,
      l.foldl (fun b y => if y.1 < b.1 then y else b) x = b ∧ ∀ y ∈ x :: l, b.1 ≤ y.1 := by
    intro l
    induction l with
    | nil => exact fun x => ⟨x, List.mem_cons_self, rfl, fun y hy => by rw [List.mem_singleton.mp hy]⟩
    | cons z l ih =>
      intro x
      obtain ⟨b, hb, e, least⟩ := ih (if z.1 < x.1 then z else x)
      have start : b.1 ≤ (if z.1 < x.1 then z else x).1 := least _ List.mem_cons_self
      refine ⟨b, ?_, e, fun y hy => ?_⟩
      · rcases List.mem_cons.mp hb with rfl | tail
        · split <;> simp
        · exact List.mem_cons_of_mem _ (List.mem_cons_of_mem _ tail)
      · rcases List.mem_cons.mp hy with rfl | hy
        · split at start <;> omega
        · rcases List.mem_cons.mp hy with rfl | hy
          · split at start <;> omega
          · exact least y (List.mem_cons_of_mem _ hy)
  match l, h with
  | x :: l, _ =>
    obtain ⟨b, hb, e, least⟩ := fold l x
    exact ⟨b, hb, congrArg (fun b : Nat × α => some b.2) e, least⟩

/-- The numbered sources that a node chooses from. -/
def sources (n : Node) : List (Nat × Source) :=
  (n.view.peers.filter isBatteryStation).map (fun p => (p.station, Source.peer p.station)) ++
    if n.has .battery then [(n.rankNumber, Source.own)] else []

theorem chooseSource_eq (n : Node) : chooseSource n = lowest (sources n) := rfl

theorem mem_sources {n : Node} {y : Nat × Source} : y ∈ sources n ↔
    (∃ p ∈ n.view.peers, isBatteryStation p = true ∧ y = (p.station, .peer p.station)) ∨
      (n.has .battery = true ∧ y = (n.rankNumber, .own)) := by
  simp only [sources, List.mem_append, List.mem_map, List.mem_filter, and_assoc, eq_comm (b := y)]
  refine or_congr Iff.rfl ?_
  split <;> simp [*]

/-- A battery station below every other, and below the own accountant, is the source. -/
theorem chooseSource_peer {n : Node} {p : Peer} (mem : p ∈ n.view.peers) (battery : isBatteryStation p = true)
    (peers : ∀ q ∈ n.view.peers, isBatteryStation q = true → p.station ≤ q.station)
    (own : n.has .battery = true → p.station < n.rankNumber) : chooseSource n = some (.peer p.station) := by
  have here : (p.station, Source.peer p.station) ∈ sources n := mem_sources.mpr (.inl ⟨p, mem, battery, rfl⟩)
  obtain ⟨b, hb, e, least⟩ := lowest_spec (List.ne_nil_of_mem here)
  have low : b.1 ≤ p.station := least _ here
  rw [chooseSource_eq, e]
  rcases mem_sources.mp hb with ⟨q, hq, bq, rfl⟩ | ⟨holds, rfl⟩
  · have same : q.station = p.station := le_antisymm low (peers q hq bq)
    rw [same]
  · exact absurd (own holds) (not_lt.mpr low)

/-- The own accountant below every battery station is the source. -/
theorem chooseSource_own {n : Node} (holds : n.has .battery = true)
    (peers : ∀ q ∈ n.view.peers, isBatteryStation q = true → n.rankNumber < q.station) :
    chooseSource n = some .own := by
  have here : (n.rankNumber, Source.own) ∈ sources n := mem_sources.mpr (.inr ⟨holds, rfl⟩)
  obtain ⟨b, hb, e, least⟩ := lowest_spec (List.ne_nil_of_mem here)
  have low : b.1 ≤ n.rankNumber := least _ here
  rw [chooseSource_eq, e]
  rcases mem_sources.mp hb with ⟨q, hq, bq, rfl⟩ | ⟨-, rfl⟩
  · exact absurd (peers q hq bq) (not_lt.mpr low)
  · rfl

/-- A station with a battery station, or the own accountant, below it is not the source. -/
theorem chooseSource_not_peer {n : Node} {k : Nat} {y : Nat × Source} (mem : y ∈ sources n) (below : y.1 < k) :
    chooseSource n ≠ some (.peer k) := by
  obtain ⟨b, hb, e, least⟩ := lowest_spec (List.ne_nil_of_mem mem)
  rw [chooseSource_eq, e]
  intro same
  have low := least _ mem
  rcases mem_sources.mp hb with ⟨q, -, -, rfl⟩ | ⟨-, rfl⟩
  · cases same
    exact absurd (low.trans_lt below) (lt_irrefl _)
  · cases same

theorem inConflict_iff {n : Node} : inConflict n = true ↔
    n.has .battery = true ∧ ∃ p ∈ n.view.peers, isBatteryStation p = true ∧ p.station < n.rankNumber := by
  simp [inConflict]

/-- Settles O24: the sender's entry is a battery station, so that the source and the conflict flag follow from the
numbers; only the source's ALLOWANCE is accepted. -/
theorem acceptanceFromTheSource : Obligations.AcceptanceFromTheSource := by
  unfold Obligations.AcceptanceFromTheSource
  rintro s dt x rest n b rfl a frame
  obtain ⟨new, table, filled, created, others, back, -⟩ := upsertPeer_writes a.room
  let n' := refreshSource ((s.found dt).setView { (s.found dt).view with peers := new })
  have kind : (kindOf x.frame == .allowance) = true := by rw [frame]; rfl
  have acts : exec (.dispatchAllowance dt) s = .next (s.ended dt (s.rx.without rest) (acceptFrame x n')) := by
    have derived : derive x ((s.found dt).setView { (s.found dt).view with peers := new }) = acceptFrame x n' := by
      simp only [derive, frame]
      rfl
    rw [← derived]
    change execDispatchAllowance dt s = _
    unfold execDispatchAllowance
    exact dispatchEvent_admitted a kind table
  have battery (p : Peer) : isBatteryStation (entryOf x p) = true := by
    rw [entryOf, frame]
    rfl
  have station (p : Peer) (h : p.station = x.source) : (entryOf x p).station = x.source :=
    (Fit.fillPart_station ..).trans h
  obtain ⟨e, mem, isBattery, number⟩ : ∃ e ∈ new, isBatteryStation e = true ∧ e.station = x.source := by
    by_cases known : (s.found dt).view.peers.any (·.station == x.source) = true
    · obtain ⟨p, hp, same⟩ := List.any_eq_true.mp known
      exact ⟨_, filled p hp (by simpa using same), battery p, station p (by simpa using same)⟩
    · exact ⟨_, created (by simpa using known), battery _, station _ rfl⟩
  have accepted (h : n'.view.source = some (.peer x.source)) :
      acceptFrame x n' = accept b.allowance b.shed b.band x.stamp n' := by
    simp only [acceptFrame, frame, h, if_true]
  have ignored (h : n'.view.source ≠ some (.peer x.source)) : acceptFrame x n' = n' := by
    simp only [acceptFrame, frame, h, if_false]
  have conflict : (acceptFrame x n').view.conflict = n'.view.conflict := by
    by_cases h : n'.view.source = some (.peer x.source)
    · rw [accepted h, (accept_keeps b.allowance b.shed b.band x.stamp n').view]
      rfl
    · rw [ignored h]
  refine ⟨_, acts, fun peers own => ?_, fun p hp bp below => ?_, fun holds below peers => ?_, ?_⟩
  · have source : n'.view.source = some (.peer x.source) := by
      rw [← number]
      refine chooseSource_peer (n := (s.found dt).setView { (s.found dt).view with peers := new }) mem isBattery
        (fun q hq bq => ?_) (fun holds => number ▸ own holds)
      rcases back q hq with ⟨same, -⟩ | ⟨-, old⟩
      · rw [number, same]
      · rw [number]
        exact peers q old bq
    have keeps := accept_keeps b.allowance b.shed b.band x.stamp n'
    rw [accepted source, keeps.view]
    refine ⟨source, rfl, rfl, rfl, rfl, rfl, fun h => ?_, fun h => ?_⟩
    · refine if_neg ?_
      change ¬ ((s.found dt).state = _ ∨ (s.found dt).state = _)
      rcases h with h | h <;> simp [h]
    · exact if_pos h.symm
  · have source : n'.view.source ≠ some (.peer x.source) :=
      chooseSource_not_peer (n := (s.found dt).setView { (s.found dt).view with peers := new })
        (mem_sources.mpr (.inl ⟨p, others p hp (Nat.ne_of_lt below), bp, rfl⟩)) below
    rw [ignored source]
    exact ⟨rfl, rfl, rfl, rfl, rfl, rfl⟩
  · have lower (q : Peer) (hq : q ∈ new) (bq : isBatteryStation q = true) : (s.found dt).rankNumber < q.station := by
      rcases back q hq with ⟨same, -⟩ | ⟨-, old⟩
      · rw [same]; exact below
      · exact peers q old bq
    have source : n'.view.source = some .own :=
      chooseSource_own (n := (s.found dt).setView { (s.found dt).view with peers := new }) holds lower
    have calm : n'.view.conflict = false := by
      refine Bool.eq_false_iff.mpr fun h => ?_
      obtain ⟨-, q, hq, bq, less⟩ := inConflict_iff.mp h
      exact absurd less (not_lt.mpr (lower q hq bq).le)
    rw [ignored (by rw [source]; nofun)]
    exact ⟨source, calm, rfl, rfl, rfl, rfl, rfl, rfl⟩
  · rw [conflict]
    refine inConflict_iff.trans (and_congr_right fun _ => ⟨?_, ?_⟩)
    · rintro ⟨q, hq, bq, less⟩
      rcases back q hq with ⟨same, -⟩ | ⟨other, old⟩
      · exact .inl (same ▸ less)
      · exact .inr ⟨q, old, other, bq, less⟩
    · rintro (less | ⟨q, old, other, bq, less⟩)
      · exact ⟨e, mem, isBattery, number ▸ less⟩
      · exact ⟨q, others q old other, bq, less⟩

/-! ## The expiries (R38, R42) -/

/-- PEER_AGE_OUT: the entry is gone, and what is derived of the table is derived afresh. -/
theorem peerAgeOut_acts :
    ∀ (s : State) (dt : Nat) (n : Node) (p : Peer),
    n = s.found dt → n.up = true → p ∈ n.view.peers → p.heard + 3500 ≤ n.now →
    ∃ m, exec (.peerAgeOut dt p.station) s = .next (s.ended dt s.rx m) ∧
    m.view.peers = n.view.peers.filter (·.station != p.station) ∧
    m.view.source = chooseSource { n with view := { n.view with peers := m.view.peers } } ∧
    (m.view.conflict = true ↔ n.has .battery = true ∧
    ∃ q ∈ n.view.peers, q.station ≠ p.station ∧ isBatteryStation q = true ∧ q.station < n.rankNumber) ∧
    m.view.travel = (n.ownTravel || m.view.peers.any (·.travel)) ∧
    m.view.wind = (n.ownWind || m.view.peers.any (·.wind)) ∧
    m.view.allowance = n.view.allowance ∧ m.view.shed = n.view.shed ∧
    m.now = n.now ∧ m.state = n.state ∧ m.battery = n.battery ∧ m.tx = n.tx ∧ m.ev.wait = true := by
  rintro s dt n p rfl up mem old
  let peers := (s.found dt).view.peers.filter fun q => q.station != p.station
  let n0 := (s.found dt).setView { (s.found dt).view with peers := peers }
  have acts : exec (.peerAgeOut dt p.station) s = .next (s.ended dt s.rx (removePeer p.station (s.found dt))) := by
    change execPeerAgeOut dt p.station s = _
    unfold execPeerAgeOut
    refine nodeEvent_found (fun n => by simp [agedOut]) up (List.any_eq_true.mpr ⟨p, mem, ?_⟩)
    simp [peerAge, old]
  have travel := refreshTravel_keeps (refreshSource n0.wantWait)
  have wind := refreshWind_keeps (refreshTravel (refreshSource n0.wantWait))
  have jobs : JobKeeps _ (removePeer p.station (s.found dt)) := wind.pumpCheck.frostCheck.courtesyCheck
  have keeps : ViewKeeps (refreshSource n0.wantWait) (removePeer p.station (s.found dt)) :=
    (ViewKeeps.of_jobs (by rfl) travel).trans (.of_jobs (by rfl) jobs)
  have wait : (removePeer p.station (s.found dt)).ev.wait = true :=
    (Adds.courtesyCheck (Adds.frostCheck (Adds.pumpCheck (Adds.refreshWind (Adds.refreshTravel
      (Adds.refl (refreshSource n0.wantWait))))))).1 rfl
  have ownTravel : (refreshSource n0.wantWait).ownTravel = (s.found dt).ownTravel := rfl
  have ownWind : (refreshTravel (refreshSource n0.wantWait)).ownWind = (s.found dt).ownWind := by
    simp only [Node.ownWind, Node.has, travel.cfg, travel.wind]
    rfl
  have view : (removePeer p.station (s.found dt)).view = { (s.found dt).view with
      peers := peers, source := chooseSource n0, conflict := inConflict n0
      travel := (s.found dt).ownTravel || peers.any (·.travel), wind := (s.found dt).ownWind || peers.any (·.wind) } := by
    rw [jobs.view]
    simp only [Node.setView_view, travel.view, ownWind, ownTravel]
    rfl
  refine ⟨_, acts, by rw [view], by rw [view]; rfl, ?_, by rw [view], by rw [view], by rw [view], by rw [view],
    keeps.now, keeps.state, keeps.battery, keeps.tx, wait⟩
  rw [view]
  refine inConflict_iff.trans (and_congr_right fun _ => ?_)
  simp only [n0, peers, Node.setView_view, List.mem_filter, bne_iff_ne, and_assoc]
  rfl

/-- The allowance of an orphaned node. -/
def orphanAllowance (n : Node) : Nat :=
  match n.cfg with
  | some c => c.orphan / 100
  | none => 0

/-- The view of a node that enters the orphan state. -/
def orphanView (n : Node) : View :=
  { n.view with allowance := orphanAllowance n, band := none, orphaned := true
                shed := acceptedShed n (max n.view.sourceShed 2) }

theorem enterOrphan_keeps (n : Node) :
    JobKeeps ((setFlag .orphaned n).setView (orphanView n)) (enterOrphan n) ∧
      Adds (setFlag .orphaned n).wantWait (enterOrphan n) := by
  let k := ((setFlag .orphaned n).setView
    { n.view with allowance := orphanAllowance n, band := none, orphaned := true }).wantWait
  have told := refreshShed_keeps k
  have adds := Adds.refreshShed (Adds.refl k)
  exact ⟨(JobKeeps.refl _).wantWait.trans told, adds⟩

/-- ORPHAN_EXPIRY: the orphan state's own view. -/
theorem orphanExpiry_acts :
    ∀ (s : State) (dt : Nat) (n : Node) (r : Nat),
    n = s.found dt → n.up = true → n.view.orphaned = false → n.view.source ≠ some .own →
    n.view.orphanRef = some r → r + 2000 ≤ n.now →
    ∃ m, exec (.orphanExpiry dt) s = .next (s.ended dt s.rx m) ∧
    m.view.orphaned = true ∧ m.view.band = none ∧ hasFlag .orphaned m = true ∧
    (∀ c, n.cfg = some c → m.view.allowance = c.orphan / 100) ∧
    (n.state = some .listening ∨ n.state = some .active → m.view.shed = max n.view.sourceShed 2) ∧
    m.view.peers = n.view.peers ∧ m.view.source = n.view.source ∧ m.view.sourceShed = n.view.sourceShed ∧
    m.now = n.now ∧ m.state = n.state ∧ m.battery = n.battery ∧ m.tx = n.tx ∧ m.ev.wait = true := by
  rintro s dt n r rfl up free source ref due
  have acts : exec (.orphanExpiry dt) s = .next (s.ended dt s.rx (enterOrphan (s.found dt))) := by
    change execOrphanExpiry dt s = _
    unfold execOrphanExpiry
    refine nodeEvent_found (fun n => by simp [orphanDue]) up ?_
    simp [orphanDue, free, source, ref, Node.reached, orphanTime, due]
  obtain ⟨keeps, wait, -, flags, -⟩ := enterOrphan_keeps (s.found dt)
  generalize enterOrphan (s.found dt) = m at acts keeps wait flags
  have flag : hasFlag .orphaned (setFlag .orphaned (s.found dt)) = true := hasFlag_setFlag (.inl rfl)
  have view : m.view = orphanView (s.found dt) := keeps.view
  refine ⟨m, acts, by rw [view]; rfl, by rw [view]; rfl, flags _ flag, fun c cfg => ?_,
    fun state => ?_, by rw [view]; rfl, by rw [view]; rfl, by rw [view]; rfl, keeps.now, keeps.state, keeps.battery,
    keeps.tx, wait rfl⟩
  · rw [view]
    change orphanAllowance (s.found dt) = _
    simp only [orphanAllowance, cfg]
  · rw [view]
    refine if_neg ?_
    rcases state with h | h <;> simp [h]

/-- Settles O25: the two expiries. -/
theorem viewExpiries : Obligations.ViewExpiries := by
  unfold Obligations.ViewExpiries
  exact ⟨peerAgeOut_acts, orphanExpiry_acts⟩

end Sys2Proof.Machine
end

section
/-!
# Proofs: how a COMMAND is checked and answered (R194, R195)

A COMMAND that is heard is run by its row on the node after the dispatch (`commandEvent_heard`); what a checked command
then leaves is its action's outcome with the REPLY owed (`Node.carry`, `carry_frame`).
-/
namespace Sys2Proof.Machine

theorem takeFrame_heard {s : State} {dt : Nat} {x : RxFrame} {rest : List RxFrame} (a : Admitted s dt x rest) :
    takeFrame x (s.found dt) = (s.admitted dt x, true) := by
  obtain ⟨new, table, -⟩ := upsertPeer_writes a.room
  rw [State.admitted, takeFrame_admitted a table]

theorem admitted_keeps {s : State} {dt : Nat} {x : RxFrame} {rest : List RxFrame} (a : Admitted s dt x rest) :
    (s.admitted dt x).station = (s.found dt).station ∧ (s.admitted dt x).state = (s.found dt).state ∧
      (s.admitted dt x).now = (s.found dt).now := by
  obtain ⟨new, table, -⟩ := upsertPeer_writes a.room
  have keeps := derive_keeps x ((s.found dt).setView { (s.found dt).view with peers := new })
  rw [State.admitted, takeFrame_admitted a table]
  exact ⟨keeps.station, keeps.state, keeps.now⟩

section
variable {s : State} {dt code : Nat} {x : RxFrame} {rest : List RxFrame} {b : CommandBody}

/-- A COMMAND that is heard is run by its row. -/
theorem commandEvent_heard {args : List Byte → Bool} {run : Nat → CommandBody → Node → Node}
    (h : Heard s dt code x rest b) (mine : args b.args = true) : commandEvent dt code args run s =
      .next (s.ended dt (s.rx.without rest) (run x.source b (s.admitted dt x))) := by
  unfold commandEvent
  rw [dispatchEvent_acts h.up h.head (by rw [h.frame]; exact isCommandOf_of h.code mine), dispatch,
    takeFrame_heard h.toAdmitted, onCommand, h.frame]
  rfl

/-- A COMMAND that is heard is addressed, or a broadcast and not addressed. -/
theorem heard_target (h : Heard s dt code x rest b) : (s.admitted dt x).station = some b.target ∨
    ((s.admitted dt x).station ≠ some b.target ∧ b.target = 0) := by
  obtain ⟨station, -, -⟩ := admitted_keeps h.toAdmitted
  rw [station]
  rcases h.target with addressed | broadcast
  · exact .inl addressed
  · exact .inr ⟨by rw [broadcast]; exact h.station, broadcast⟩

theorem heard_broadcast (h : Heard s dt code x rest b) (broadcast : b.target = 0) :
    (s.admitted dt x).station ≠ some b.target := by
  rw [broadcast, (admitted_keeps h.toAdmitted).1]
  exact h.station

end

/-- What a COMMAND leaves of an outcome: the REPLY when it is addressed, else the node alone. -/
def Node.carry (k : Node) (x : RxFrame) (b : CommandBody) (o : Outcome) : Node :=
  if k.station = some b.target then answer x.source b o else o.node

/-- The REPLY owed is all that a carried outcome adds to its node. -/
theorem carry_frame {k : Node} {x : RxFrame} {b : CommandBody} {o : Outcome} (h : o.node.ev.reply = k.ev.reply) :
    k.carry x b o = { o.node with ev := { o.node.ev with reply := k.owing x b o.result o.detail } } := by
  unfold Node.carry Node.owing
  split
  · rfl
  · rw [← h]

/-- A checked COMMAND with arguments of its length at a node with its duty is acted on. -/
theorem runCommand_acts {duty : Option Duty} {lengthOk : List Byte → Bool} {act : Nat → CommandBody → Node → Outcome}
    {k : Node} {x : RxFrame} {b : CommandBody}
    (target : k.station = some b.target ∨ (k.station ≠ some b.target ∧ b.target = 0))
    (length : lengthOk b.args = true) (duty_held : holds duty k = true) :
    runCommand duty lengthOk act x.source b k = k.carry x b (act x.source b k) := by
  unfold runCommand Node.carry
  rcases target with addressed | ⟨other, broadcast⟩
  · simp only [addressed, length, duty_held, Bool.not_true, Bool.false_eq_true, if_false, if_true]
  · rw [if_neg other, if_neg other, if_pos ⟨broadcast, length, duty_held⟩]

/-- An outcome that owes its REPLY, and keeps the one that was owed before. -/
theorem commandEvent_carries {s : State} {dt code : Nat} {x : RxFrame} {rest : List RxFrame} {b : CommandBody}
    {args : List Byte → Bool} {duty : Option Duty} {lengthOk : List Byte → Bool}
    {act : Nat → CommandBody → Node → Outcome} (h : Heard s dt code x rest b) (mine : args b.args = true)
    (length : lengthOk b.args = true) (duty_held : holds duty (s.admitted dt x) = true) :
    commandEvent dt code args (runCommand duty lengthOk act) s = .next (s.ended dt (s.rx.without rest)
      ((s.admitted dt x).carry x b (act x.source b (s.admitted dt x)))) := by
  rw [commandEvent_heard h mine, runCommand_acts (heard_target h) length duty_held]

theorem give_result (r : Result) (n : Node) : (give r n).result = r := rfl
theorem give_detail (r : Result) (n : Node) : (give r n).detail = 0 := rfl
theorem give_node (r : Result) (n : Node) : (give r n).node = n := rfl

/-! ## The checks (O58) -/

section
variable {duty : Option Duty} {lengthOk : List Byte → Bool} {act : Nat → CommandBody → Node → Outcome}
  {ask : CommandBody → Node → Outcome} {k : Node} {source : Nat} {b : CommandBody}

theorem runCommand_length (addressed : k.station = some b.target) (wrong : lengthOk b.args = false) :
    runCommand duty lengthOk act source b k = answer source b (give .refusedRange k) := by
  simp [runCommand, addressed, wrong]

theorem runCommand_duty (addressed : k.station = some b.target) (length : lengthOk b.args = true)
    (missing : holds duty k = false) :
    runCommand duty lengthOk act source b k = answer source b (give .refusedNoDuty k) := by
  simp [runCommand, addressed, length, missing]

theorem runCommand_result (addressed : k.station = some b.target) (length : lengthOk b.args = true)
    (duty_held : holds duty k = true) : runCommand duty lengthOk act source b k = answer source b (act source b k) := by
  simp [runCommand, addressed, length, duty_held]

/-- A broadcast COMMAND that an addressed one would be refused for is ignored. -/
theorem runCommand_ignored (other : k.station ≠ some b.target)
    (h : lengthOk b.args = false ∨ holds duty k = false ∨ (act source b k).node = k) :
    runCommand duty lengthOk act source b k = k := by
  unfold runCommand
  rw [if_neg other]
  split_ifs with runs
  · obtain ⟨-, length, held⟩ := runs
    rcases h with h | h | h
    · exact absurd length (by simp [h])
    · exact absurd held (by simp [h])
    · exact h
  · rfl

theorem runAddressed_length (addressed : k.station = some b.target) (wrong : lengthOk b.args = false) :
    runAddressed lengthOk ask source b k = answer source b (give .refusedRange k) := by
  simp [runAddressed, addressed, wrong]

theorem runQuery_active (active : k.isActive = true) : runQuery lengthOk ask source b k = runAddressed lengthOk
    (fun b n => if queueLimit < n.tx.queue.length + 2 then give .refusedBusy n else ask b n) source b k :=
  if_pos active

theorem runQuery_inactive (inactive : k.isActive = false) : runQuery lengthOk ask source b k = k :=
  if_neg (by simp [inactive])

theorem runQuery_busy (addressed : k.station = some b.target) (active : k.isActive = true)
    (length : lengthOk b.args = true) (full : 4 < k.tx.queue.length) :
    runQuery lengthOk ask source b k = answer source b (give .refusedBusy k) := by
  have busy : queueLimit < k.tx.queue.length + 2 := by simp only [queueLimit]; omega
  simp [runQuery_active active, runAddressed, addressed, length, busy]

end

theorem hasLength_eq_false {k : Nat} {args : List Byte} (h : args.length ≠ k) : hasLength k args = false := by
  simp [hasLength, h]

theorem hasLength_eq_true {k : Nat} {args : List Byte} (h : args.length = k) : hasLength k args = true := by
  simp [hasLength, h]

section
variable {s : State} {dt code len : Nat} {x : RxFrame} {rest : List RxFrame} {b : CommandBody} {row : Instr}

/-- The three checks of a row that is checked by duty and length. -/
theorem checked_row {duty : Option Duty} {act : Nat → CommandBody → Node → Outcome}
    (e : exec row s = commandEvent dt code (fun _ => true) (runCommand duty (hasLength len) act) s)
    (h : Heard s dt code x rest b) :
    let k := s.admitted dt x
    let answers (r : Result) : Node := { k with ev := { k.ev with
      reply := some ⟨x.source, b.tag, b.code, resultCode r, 0⟩ } }
    let ends (m : Node) : Host.Outcome State Fault Refusal := .next (s.ended dt (s.rx.without rest) m)
    (k.station = some b.target → b.args.length ≠ len → exec row s = ends (answers .refusedRange)) ∧
      (k.station = some b.target → b.args.length = len → ∀ d, duty = some d → k.has d = false →
        exec row s = ends (answers .refusedNoDuty)) ∧
      (b.target = 0 → b.args.length ≠ len ∨ (∃ d, duty = some d ∧ k.has d = false) → exec row s = ends k) := by
  intro k answers ends
  have runs := e.trans (commandEvent_heard h rfl)
  refine ⟨fun addressed wrong => ?_, fun addressed length d needs missing => ?_, fun broadcast refused => ?_⟩
  · rw [runs, runCommand_length addressed (hasLength_eq_false wrong)]
    rfl
  · rw [runs, runCommand_duty addressed (hasLength_eq_true length) (by rw [needs]; exact missing)]
    rfl
  · rw [runs, runCommand_ignored (heard_broadcast h broadcast)]
    rcases refused with wrong | ⟨d, needs, missing⟩
    · exact .inl (hasLength_eq_false wrong)
    · exact .inr (.inl (by rw [needs]; exact missing))

/-- The checks of a query. -/
theorem query_row {act : CommandBody → Node → Outcome}
    (e : exec row s = commandEvent dt code (fun _ => true) (runQuery (hasLength len) act) s)
    (h : Heard s dt code x rest b) :
    let k := s.admitted dt x
    let answers (r : Result) : Node := { k with ev := { k.ev with
      reply := some ⟨x.source, b.tag, b.code, resultCode r, 0⟩ } }
    let ends (m : Node) : Host.Outcome State Fault Refusal := .next (s.ended dt (s.rx.without rest) m)
    (k.isActive = false → exec row s = ends k) ∧
      (k.station = some b.target → k.isActive = true → b.args.length = len → 4 < k.tx.queue.length →
        exec row s = ends (answers .refusedBusy)) ∧
      (b.target = 0 → exec row s = ends k) ∧
      (k.station = some b.target → k.isActive = true → b.args.length ≠ len →
        exec row s = ends (answers .refusedRange)) := by
  intro k answers ends
  have runs := e.trans (commandEvent_heard h rfl)
  refine ⟨fun inactive => ?_, fun addressed active length full => ?_, fun broadcast => ?_,
    fun addressed active wrong => ?_⟩
  · rw [runs, runQuery_inactive inactive]
  · rw [runs, runQuery_busy addressed active (hasLength_eq_true length) full]
    rfl
  · rw [runs, runQuery_deaf (heard_broadcast h broadcast)]
  · rw [runs, runQuery_active active, runAddressed_length addressed (hasLength_eq_false wrong)]
    rfl

end

/-- An action that the unit does not have, or a target above 1 000, names no move. -/
theorem actionOf_none {u : MotionUnit} {args : List Byte}
    (h : byteAt args 0 ∉ [1, 2, 3, 4] ∨ (byteAt args 0 = 4 ∧ (u = .step ∨ 1000 < wordAt args 1))) :
    actionOf u args = none := by
  unfold actionOf
  rcases h with other | ⟨four, step | far⟩
  · simp only [List.mem_cons, List.not_mem_nil, or_false, not_or] at other
    obtain ⟨one, two, -, four⟩ := other
    simp [one, two, four]
  · simp [four, step]
  · simp [four, not_le.mpr far]

theorem moveAct_unknown {u : MotionUnit} {source : Nat} {b : CommandBody} {k : Node} (cfg : k.unitCfg u ≠ none)
    (h : actionOf u b.args = none) : moveAct u source b k = give .refusedRange k := by
  obtain ⟨c, hc⟩ := Option.ne_none_iff_exists'.mp cfg
  simp only [moveAct, hc, h]

/-- The checks of a motion row, up to that of the action. -/
theorem motion_row {s : State} {dt : Nat} {x : RxFrame} {rest : List RxFrame} {b : CommandBody} {row : Instr}
    {u : MotionUnit} {mine : Nat → Bool} {act : Nat → CommandBody → Node → Outcome}
    (e : exec row s = motionCommand dt u mine act s) (h : Heard s dt (unitCode u) x rest b)
    (m : mine (byteAt b.args 0) = true)
    (refuses : byteAt b.args 0 ∉ [1, 2, 3, 4] ∨ (byteAt b.args 0 = 4 ∧ (u = .step ∨ 1000 < wordAt b.args 1)) →
      (s.admitted dt x).unitCfg u ≠ none → act x.source b (s.admitted dt x) = give .refusedRange (s.admitted dt x)) :
    let k := s.admitted dt x
    let answers (r : Result) : Node := { k with ev := { k.ev with
      reply := some ⟨x.source, b.tag, b.code, resultCode r, 0⟩ } }
    let ends (m : Node) : Host.Outcome State Fault Refusal := .next (s.ended dt (s.rx.without rest) m)
    let action := byteAt b.args 0
    let length := if action = 4 then 3 else 1
    let unknown : Prop := action ∉ [1, 2, 3, 4] ∨ (action = 4 ∧ (u = .step ∨ 1000 < wordAt b.args 1))
    (k.station = some b.target →
      (b.args.length ≠ length → exec row s = ends (answers .refusedRange)) ∧
      (b.args.length = length → k.has (unitDuty u) = false → exec row s = ends (answers .refusedNoDuty)) ∧
      (b.args.length = length → k.has (unitDuty u) = true → k.unitCfg u ≠ none → unknown →
        exec row s = ends (answers .refusedRange))) ∧
    (b.target = 0 → b.args.length ≠ length ∨ k.has (unitDuty u) = false ∨ (k.unitCfg u ≠ none ∧ unknown) →
      exec row s = ends k) := by
  intro k answers ends action length unknown
  have runs := e.trans (commandEvent_heard h m)
  have long : motionLength b.args = decide (b.args.length = length) := by
    simp only [motionLength, length, action]
    split <;> rfl
  refine ⟨fun addressed => ⟨fun wrong => ?_, fun right missing => ?_, fun right held cfg unk => ?_⟩,
    fun broadcast refused => ?_⟩
  · rw [runs, runCommand_length addressed (by simp [long, wrong])]
    rfl
  · have missing' : holds (some (unitDuty u)) k = false := missing
    rw [runs, runCommand_duty addressed (by simp [long, right]) missing']
    rfl
  · have held' : holds (some (unitDuty u)) k = true := held
    rw [runs, runCommand_result addressed (by simp [long, right]) held', refuses unk cfg]
    rfl
  · rw [runs, runCommand_ignored (heard_broadcast h broadcast)]
    rcases refused with wrong | missing | ⟨cfg, unk⟩
    · exact .inl (by simp [long, wrong])
    · exact .inr (.inl missing)
    · exact .inr (.inr (by rw [refuses unk cfg]; rfl))

/-- Settles O58: the checks of the rows, one row after another. -/
theorem commandsAreChecked : Obligations.CommandsAreChecked := by
  unfold Obligations.CommandsAreChecked
  rintro s dt x rest b k rfl answers ends
  refine ⟨?_, ?_, ?_, ?_⟩
  · simp only [checkedRows, List.forall_mem_cons, List.not_mem_nil, IsEmpty.forall_iff, implies_true, and_true]
    exact ⟨checked_row rfl, checked_row rfl, checked_row rfl, checked_row rfl, checked_row rfl, checked_row rfl,
      checked_row rfl, checked_row rfl, checked_row rfl, checked_row rfl, checked_row rfl, checked_row rfl, checked_row rfl⟩
  · have busy {code len : Nat} {row : Instr} {act : CommandBody → Node → Outcome}
        (e : exec row s = commandEvent dt code (fun _ => true) (runQuery (hasLength len) act) s)
        (h : Heard s dt code x rest b) := And.intro (query_row e h).1 (query_row e h).2.1
    simp only [List.forall_mem_cons, List.not_mem_nil, IsEmpty.forall_iff, implies_true, and_true]
    exact ⟨busy rfl, busy rfl, busy rfl⟩
  · simp only [List.forall_mem_cons, List.not_mem_nil, IsEmpty.forall_iff, implies_true, and_true]
    refine ⟨fun h => (query_row rfl h).2.2, fun h => (query_row rfl h).2.2, fun h => (query_row rfl h).2.2, fun h => ?_⟩
    have runs := (rfl : exec (.restart dt) s = commandEvent dt 0x3F (fun _ => true)
      (runAddressed (hasLength 0) restartAct) s).trans (commandEvent_heard h rfl)
    refine ⟨fun broadcast => ?_, fun addressed _ wrong => ?_⟩
    · rw [runs, runAddressed_deaf (heard_broadcast h broadcast)]
    · rw [runs, runAddressed_length addressed (hasLength_eq_false wrong)]
      rfl
  · have move {u : MotionUnit} (unk : byteAt b.args 0 ∉ [1, 2, 3, 4] ∨
        (byteAt b.args 0 = 4 ∧ (u = .step ∨ 1000 < wordAt b.args 1))) (cfg : (s.admitted dt x).unitCfg u ≠ none) :
        moveAct u x.source b (s.admitted dt x) = give .refusedRange (s.admitted dt x) :=
      moveAct_unknown cfg (actionOf_none unk)
    have stop {u : MotionUnit} (m : (byteAt b.args 0 == 3) = true) (unk : byteAt b.args 0 ∉ [1, 2, 3, 4] ∨
        (byteAt b.args 0 = 4 ∧ (u = .step ∨ 1000 < wordAt b.args 1))) (_ : (s.admitted dt x).unitCfg u ≠ none) :
        stopAct u x.source b (s.admitted dt x) = give .refusedRange (s.admitted dt x) := by
      rw [beq_iff_eq] at m
      simp [m] at unk
    intro row mem
    simp only [List.mem_cons, List.not_mem_nil, or_false] at mem
    rcases mem with rfl | rfl | rfl | rfl | rfl | rfl | rfl <;> intro h m
    · exact motion_row (mine := fun k => k != 2 && k != 3 && k != 4) rfl h (by simpa [and_assoc] using m) move
    · exact motion_row rfl h m move
    · exact motion_row rfl h m move
    · exact motion_row rfl h m (stop m)
    · exact motion_row (mine := fun k => k != 2 && k != 3) rfl h (by simpa using m) move
    · exact motion_row rfl h m move
    · exact motion_row rfl h m (stop m)

end Sys2Proof.Machine
end

section
/-!
# Proofs: tanks and pump (chapter 4)

The scanner asks one level of each excitation channel (`excite_commanded`); a scan result enters a window whose median
is the middle of three (`median_three`). The pump's stops and filings write its own record, its claim, and, for a stop,
its output (`pumpStop_shape`, `pumpFile_shape`).
-/
namespace Sys2Proof.Machine

/-! ## The excitation channels (R76) -/

/-- The turn of one tank in an excitation. -/
def exciteTank (level : Nat) (n : Node) (c : TankCfg) : Node :=
  match c.method with
  | .ladder _ exc => ask exc level n
  | .sender _ _ => n

theorem excite_eq (level : Nat) (n : Node) : excite level n = n.tankCfgs.foldl (exciteTank level) n := rfl

theorem exciteTank_sets (level : Nat) (n : Node) (c : TankCfg) : ∃ b, exciteTank level n c = n.setBank b := by
  unfold exciteTank
  split
  · exact ask_sets ..
  · exact ⟨n.bank, rfl⟩

theorem excite_sets (level : Nat) (n : Node) : ∃ b, excite level n = n.setBank b := by
  have fold (l : List TankCfg) : ∀ n : Node, ∃ b, l.foldl (exciteTank level) n = n.setBank b := by
    induction l with
    | nil => exact fun n => ⟨n.bank, rfl⟩
    | cons c l ih =>
      intro n
      obtain ⟨b, e⟩ := exciteTank_sets level n c
      obtain ⟨b', e'⟩ := ih (n.setBank b)
      exact ⟨b', by rw [List.foldl_cons, e, e']; rfl⟩
  exact fold _ n

/-- A turn asks the level of the tank's own excitation channel, and leaves every other channel. -/
theorem exciteTank_commanded {level : Nat} {n : Node} {c : TankCfg} {i : Fin 16}
    (h : (n.chan i).commanded = level ∨ ∃ probes, c.method = .ladder probes i) :
    ((exciteTank level n c).chan i).commanded = level := by
  unfold exciteTank
  split
  · rename_i exc ladder
    rw [commanded_ask]
    split
    · rfl
    · rename_i other
      refine h.resolve_right ?_
      rintro ⟨probes', same⟩
      rw [ladder] at same
      exact other (by injection same)
  · rename_i sender
    refine h.resolve_right ?_
    rintro ⟨probes, same⟩
    rw [sender] at same
    nomatch same

theorem exciteTank_other {level : Nat} {n : Node} {c : TankCfg} {i : Fin 16}
    (h : ∀ probes, c.method ≠ .ladder probes i) : (exciteTank level n c).chan i = n.chan i := by
  unfold exciteTank
  split
  · rename_i probes exc ladder
    rw [chan_ask, if_neg]
    rintro rfl
    exact h _ ladder
  · rfl

theorem excite_commanded {level : Nat} {n : Node} {c : TankCfg} {probes : List (Fin 16)} {i : Fin 16}
    (mem : c ∈ n.tankCfgs) (ladder : c.method = .ladder probes i) :
    ((excite level n).chan i).commanded = level := by
  have fold (l : List TankCfg) : ∀ n : Node, (n.chan i).commanded = level ∨ c ∈ l →
      ((l.foldl (exciteTank level) n).chan i).commanded = level := by
    induction l with
    | nil => exact fun n h => h.resolve_right nofun
    | cons d l ih =>
      intro n h
      refine ih _ ?_
      rcases h with done | mem
      · exact .inl (exciteTank_commanded (.inl done))
      · rcases List.mem_cons.mp mem with rfl | later
        · exact .inl (exciteTank_commanded (.inr ⟨probes, ladder⟩))
        · exact .inr later
  exact fold _ n (.inr mem)

theorem excite_other {level : Nat} {n : Node} {i : Fin 16}
    (h : ∀ c ∈ n.tankCfgs, ∀ probes, c.method ≠ .ladder probes i) : (excite level n).chan i = n.chan i := by
  have fold (l : List TankCfg) : ∀ n : Node, (∀ c ∈ l, ∀ probes, c.method ≠ .ladder probes i) →
      (l.foldl (exciteTank level) n).chan i = n.chan i := by
    induction l with
    | nil => exact fun n _ => rfl
    | cons d l ih =>
      intro n h
      rw [List.foldl_cons, ih _ fun c hc => h c (List.mem_cons_of_mem d hc),
        exciteTank_other (h d List.mem_cons_self)]
  exact fold _ n h

/-! ## The results of a scan (R76 to R82) -/

/-- The node with its latched flags written. -/
def Node.setFlags (n : Node) (w : BitVec 16) : Node := n.setCmd { n.cmd with flags := w }

theorem scanFlags_turn (r : ScanResult) (t : Tank) (n : Node) : (∃ w, scanFlags r t n = n.setFlags w) ∧
    ∀ f, hasFlag f n = true → hasFlag f (scanFlags r t n) = true := by
  unfold scanFlags
  split
  · exact ⟨⟨_, rfl⟩, fun f h => hasFlag_setFlag (.inr h)⟩
  · split
    · exact ⟨⟨_, rfl⟩, fun f h => hasFlag_setFlag (.inr h)⟩
    · exact ⟨⟨n.cmd.flags, rfl⟩, fun f h => h⟩
  · exact ⟨⟨n.cmd.flags, rfl⟩, fun f h => h⟩

/-- The flags of the results are set one after another; nothing else changes. -/
theorem scanFlags_fold (l : List (ScanResult × Tank)) : ∀ n : Node,
    (∃ w, l.foldl (fun n x => scanFlags x.1 x.2 n) n = n.setFlags w) ∧
      ∀ f, (hasFlag f n = true ∨ ∃ x ∈ l, ∀ k, hasFlag f (scanFlags x.1 x.2 k) = true) →
        hasFlag f (l.foldl (fun n x => scanFlags x.1 x.2 n) n) = true := by
  induction l with
  | nil => exact fun n => ⟨⟨n.cmd.flags, rfl⟩, fun f h => h.resolve_right (by simp)⟩
  | cons x l ih =>
    intro n
    obtain ⟨⟨w, first⟩, flags1⟩ := scanFlags_turn x.1 x.2 n
    obtain ⟨⟨w', rest⟩, flags⟩ := ih (scanFlags x.1 x.2 n)
    refine ⟨⟨w', rest.trans (by rw [first]; rfl)⟩, fun f h => flags f ?_⟩
    rcases h with old | ⟨y, mem, sets⟩
    · exact .inl (flags1 f old)
    · rcases List.mem_cons.mp mem with rfl | later
      · exact .inl (sets n)
      · exact .inr ⟨y, later, sets⟩

/-- What a completed scan leaves in the tank records. -/
def scannedRecords (n : Node) : List Tank :=
  ((n.tankCfgs.zip (n.tankCfgs.map (scanTank n))).zip n.tanks.records).map fun x => applyScan x.1.1 x.1.2 x.2

theorem scannedRecords_at {n : Node} {i : Nat} {c : TankCfg} {t : Tank} (cfg : n.tankCfgs[i]? = some c)
    (old : n.tanks.records[i]? = some t) : (scannedRecords n)[i]? = some (applyScan c (scanTank n c) t) := by
  simp [scannedRecords, List.getElem?_zip_eq_some.mpr, cfg, old, List.zip, List.getElem?_zipWith]

theorem finishScan_held {n : Node} (h : n.view.travel = true) : finishScan n = (excite 0 n).setTanks
    { n.tanks with records := n.tanks.records.map fun t => { t with heldMark := true } } := by
  obtain ⟨b, e⟩ := excite_sets 0 n
  simp only [finishScan, e, Node.setBank_view, h, if_true]
  rfl

theorem finishScan_applied {n : Node} (h : n.view.travel = false) : finishScan n =
    ((n.tankCfgs.map (scanTank n)).zip (scannedRecords n)).foldl (fun n x => scanFlags x.1 x.2 n)
      ((excite 0 n).setTanks { n.tanks with records := scannedRecords n }) := by
  obtain ⟨b, e⟩ := excite_sets 0 n
  simp only [finishScan, e, Node.setBank_view, h, Bool.false_eq_true, if_false]
  rfl

/-- A faulty sender sets its flag, and so does the third inconsistent scan of a ladder. -/
theorem scanFlags_sender (t : Tank) (k : Node) : hasFlag .senderFault (scanFlags .senderFault t k) = true :=
  hasFlag_setFlag (.inl rfl)

theorem scanFlags_probe {level : Nat} {t : Tank} (h : t.probeFault = true) (k : Node) :
    hasFlag .probeFault (scanFlags (.ladder level false) t k) = true := by
  simp only [scanFlags, h, if_true]
  exact hasFlag_setFlag (.inl rfl)

@[simp] theorem alarms_probeFault (c : TankCfg) (level : Nat) (t : Tank) :
    (alarms c level t).probeFault = t.probeFault := by
  unfold alarms
  split <;> rfl

@[simp] theorem applyResult_probeFault (c : TankCfg) (level : Nat) (t : Tank) :
    (applyResult c level t).probeFault = t.probeFault := by
  unfold applyResult
  dsimp only
  split
  · rfl
  · split
    · rfl
    · rw [alarms_probeFault]

theorem applyScan_probeFault {c : TankCfg} {level : Nat} {t : Tank} (h : 2 ≤ t.run) :
    (applyScan c (.ladder level false) t).probeFault = true := by
  have third : min 3 (t.run + 1) = 3 := by omega
  simp [applyScan, third]

/-- Settles O32: the excitations, and the results that are applied or held. -/
theorem scansRun : Obligations.ScansRun := by
  unfold Obligations.ScansRun
  rintro s dt n d rfl up due
  refine ⟨fun start => ?_, fun complete => ?_⟩
  · have acts : exec (.scanStart dt) s = .next (s.ended dt s.rx (scanBegin (s.found dt))) := by
      change execScanStart dt s = _
      unfold execScanStart
      exact nodeEvent_found (fun n => by simp) up (by rw [start]; exact reached_iff.mpr due)
    refine ⟨_, acts, ?_, fun c mem probes exc ladder => ?_, fun ch none => ?_⟩
    · obtain ⟨b, e⟩ := excite_sets 100 (s.found dt)
      unfold scanBegin
      rw [e]
      rfl
    · exact excite_commanded mem ladder
    · exact excite_other none
  · have acts : exec (.scanComplete dt) s = .next (s.ended dt s.rx (scanEnd (s.found dt))) := by
      change execScanComplete dt s = _
      unfold execScanComplete
      exact nodeEvent_found (fun n => by simp) up (by rw [complete]; exact reached_iff.mpr due)
    obtain ⟨b, e⟩ := excite_sets 0 (s.found dt)
    refine ⟨_, acts, ?_⟩
    generalize s.found dt = n at complete e ⊢
    by_cases travel : n.view.travel = true
    · have shape := finishScan_held travel
      unfold scanEnd
      rw [shape]
      refine ⟨by rw [e]; rfl, rfl, rfl, fun c mem probes exc ladder => excite_commanded (level := 0) mem ladder,
        fun _ => ⟨by rw [e]; rfl, rfl⟩, fun h => absurd travel (by simp [h])⟩
    · have still : n.view.travel = false := by simpa using travel
      have shape := finishScan_applied still
      obtain ⟨⟨w, set⟩, flags⟩ := scanFlags_fold ((n.tankCfgs.map (scanTank n)).zip (scannedRecords n))
        ((excite 0 n).setTanks { n.tanks with records := scannedRecords n })
      rw [← shape] at set flags
      have row {i : Nat} {c : TankCfg} {t : Tank} (cfg : n.tankCfgs[i]? = some c) (old : n.tanks.records[i]? = some t) :
          (scanTank n c, applyScan c (scanTank n c) t) ∈ (n.tankCfgs.map (scanTank n)).zip (scannedRecords n) :=
        List.mem_of_getElem? (i := i) (List.getElem?_zip_eq_some.mpr ⟨by simp [cfg], scannedRecords_at cfg old⟩)
      have sets (f : Flag) (h : hasFlag f (finishScan n) = true) : hasFlag f (scanEnd n) = true := h
      refine ⟨?_, rfl, ?_, fun c mem probes exc ladder => ?_, fun h => absurd h travel, fun _ i c t cfg old => ?_⟩
      · unfold scanEnd
        rw [set, e]
        rfl
      · unfold scanEnd
        rw [set]
        rfl
      · have chan : (scanEnd n).chan exc = (excite 0 n).chan exc := by
          unfold scanEnd
          rw [set]
          rfl
        rw [chan]
        exact excite_commanded mem ladder
      · refine ⟨?_, fun fault => sets _ (flags _ (.inr ⟨_, row cfg old, fun k => ?_⟩)),
          fun level wet run => sets _ (flags _ (.inr ⟨_, row cfg old, fun k => ?_⟩))⟩
        · have records : (scanEnd n).tanks.records = scannedRecords n := by
            unfold scanEnd
            rw [set]
            rfl
          rw [records]
          exact scannedRecords_at cfg old
        · rw [fault]
          exact scanFlags_sender _ k
        · rw [wet]
          exact scanFlags_probe (applyScan_probeFault run) k

/-! ## Levels (R79 to R83) -/

/-- The median of three is one of them, with two of them on either side of it. -/
theorem median_three (a b x : Nat) : ∃ m, median [a, b, x] = some m ∧ m ∈ [a, b, x] ∧
    2 ≤ ([a, b, x].filter (· ≤ m)).length ∧ 2 ≤ ([a, b, x].filter (m ≤ ·)).length := by
  have middle : median [a, b, x] = some (if b < x then (if a < b then b else if a < x then a else x)
      else (if a < x then x else if a < b then a else b)) := by
    by_cases bx : b < x <;> by_cases ab : a < b <;> by_cases ax : a < x <;>
      simp [median, sortBy, insertBy, bx, ab, ax]
  refine ⟨_, middle, ?_, ?_, ?_⟩
  · split_ifs <;> simp
  · split_ifs <;> simp only [List.filter_cons, decide_eq_true_eq] <;> split_ifs <;> simp <;> omega
  · split_ifs <;> simp only [List.filter_cons, decide_eq_true_eq] <;> split_ifs <;> simp <;> omega

theorem median_of_short {w : List Nat} (h : w.length < 3) : median w = none := by
  match w, h with
  | [], _ => rfl
  | [_], _ => rfl
  | [a, b], _ =>
    simp only [median, sortBy, insertBy, decide_eq_true_eq]
    split_ifs <;> rfl

/-- The window of a tank with a new result. -/
def windowWith (x : Nat) (t : Tank) : List Nat := (if 3 ≤ t.window.length then t.window.drop 1 else t.window) ++ [x]

theorem applyResult_none {c : TankCfg} {x : Nat} {t : Tank} (h : median (windowWith x t) = none) :
    applyResult c x t = { t with window := windowWith x t } := by
  have h' : median ((if 3 ≤ t.window.length then t.window.drop 1 else t.window) ++ [x]) = none := h
  simp only [applyResult, h']
  rfl

theorem applyResult_some {c : TankCfg} {x m : Nat} {t : Tank} (h : median (windowWith x t) = some m) :
    applyResult c x t = if t.level = some m then { t with window := windowWith x t, heldMark := false }
      else alarms c m { t with window := windowWith x t, heldMark := false, level := some m } := by
  have h' : median ((if 3 ≤ t.window.length then t.window.drop 1 else t.window) ++ [x]) = some m := h
  simp only [applyResult, h']
  rfl

@[simp] theorem alarms_keeps (c : TankCfg) (m : Nat) (t : Tank) : let u := alarms c m t
    u.window = t.window ∧ u.level = t.level ∧ u.heldMark = t.heldMark := by
  unfold alarms
  split <;> exact ⟨rfl, rfl, rfl⟩

theorem applyResult_window (c : TankCfg) (x : Nat) (t : Tank) : (applyResult c x t).window = windowWith x t := by
  rcases h : median (windowWith x t) with _ | m
  · rw [applyResult_none h]
  · rw [applyResult_some h]
    split
    · rfl
    · exact (alarms_keeps ..).1

/-- Settles O34: a sender's reading, then the window and the alarms of its median. -/
theorem levelOfATank : Obligations.LevelOfATank := by
  unfold Obligations.LevelOfATank
  constructor
  · intro n c ch table r t sender reading
    have scan : scanTank n c = if 600 < r ∨ r < 2 then .senderFault else .sender (mapTable (min r 400) table) := by
      simp only [scanTank, sender, reading]
    refine ⟨fun fault => scan.trans (if_pos fault), fun low high => scan.trans (if_neg (by omega)), rfl,
      fun level => ?_, by decide, by decide, by decide, by decide⟩
    simp only [applyScan, applyResult]
    split
    · rfl
    · split
      · rfl
      · unfold alarms
        split <;> rfl
  · intro c t x atMost u
    have window : u.window = windowWith x t := applyResult_window c x t
    refine ⟨fun few => ?_, fun two => ?_, fun three => ?_, fun a b shape => ?_⟩
    · have short : windowWith x t = t.window ++ [x] := by rw [windowWith, if_neg (by omega)]
      have none : median (windowWith x t) = none := median_of_short (by rw [short]; simp; omega)
      exact (applyResult_none none).trans (by rw [short])
    · rw [window, windowWith, if_neg (by omega)]
    · rw [window, windowWith, if_pos (by omega)]
    · have last : windowWith x t = [a, b, x] := by
        rcases shape with h | ⟨z, h⟩ <;> simp [windowWith, h]
      obtain ⟨m, middle, mem, below, above⟩ := median_three a b x
      have result : u = _ := applyResult_some (c := c) (last ▸ middle)
      refine ⟨m, ?_, ?_, mem, below, above, fun same => ?_, fun changed fresh => ?_, fun changed other => ?_⟩
      · rw [result]
        split
        · assumption
        · exact (alarms_keeps ..).2.1
      · rw [result]
        split
        · rfl
        · exact (alarms_keeps ..).2.2
      · rw [result, if_pos same]
        exact ⟨rfl, rfl, rfl⟩
      · rw [result, if_neg changed, alarms, if_pos fresh]
        refine ⟨rfl, fun h => if_pos h, fun h => ?_, fun h k => ?_, fun h => if_pos h, fun h => ?_, fun h k => ?_⟩
        · exact (if_neg (by omega)).trans (if_pos h)
        · exact (if_neg (by omega)).trans (if_neg (by omega))
        · exact (if_neg (by omega)).trans (if_pos h)
        · exact (if_neg (by omega)).trans (if_neg (by omega))
      · rw [result, if_neg changed, alarms, if_neg other]
        refine ⟨rfl, rfl, fun h => if_pos h, fun h k => ?_, fun h k => ?_⟩
        · exact (if_neg (by omega)).trans (if_pos k)
        · exact (if_neg (by omega)).trans (if_neg (by omega))

/-! ## The pump (R87 to R94) -/

/-- A stop or a withdrawal writes the output, when it ran, and the claim. -/
theorem pumpStop_shape (c : PumpCfg) (n : Node) : ∃ b k w, pumpStop c n = (n.setBank b).putClaim slotPump k w ∧
    k.state = .idle ∧ (n.pump.state = .running → ((n.setBank b).chan c.output).commanded = 0) := by
  have idle := releaseClaim_idle slotPump (if n.pump.state = .running then ask c.output 0 n else n)
  obtain ⟨k, w, e⟩ := releaseClaim_puts slotPump (if n.pump.state = .running then ask c.output 0 n else n)
  rw [e, claim_putClaim_self] at idle
  by_cases run : n.pump.state = .running
  · obtain ⟨b, asked⟩ := ask_sets c.output 0 n
    refine ⟨b, k, w, ?_, idle, fun _ => by rw [← asked]; exact commanded_ask_self ..⟩
    rw [pumpStop, e, if_pos run, asked]
  · refine ⟨n.bank, k, w, ?_, idle, fun h => absurd h run⟩
    rw [pumpStop, e, if_neg run]
    rfl

/-- A filing writes the claim and the pump's state. -/
theorem pumpFile_files {c : PumpCfg} {n : Node} (active : n.isActive = true) (on : n.pump.modeOn = true)
    (wanted : demand c n = true) (idle : n.pump.state = .idle) :
    pumpFile c n = pumpTo .waiting none (fileClaim slotPump 1 (units c.draw) (some pumpWait) n) :=
  if_pos (by simp [active, on, wanted, idle])

theorem pumpFile_off {c : PumpCfg} {n : Node} (off : n.pump.modeOn = false) : pumpFile c n = n :=
  if_neg (by simp [off])

theorem pumpFile_shape (c : PumpCfg) (n : Node) : ∃ k w p, pumpFile c n = (n.putClaim slotPump k w).setPump p ∧
    p.modeOn = n.pump.modeOn ∧ p.dryCount = n.pump.dryCount := by
  unfold pumpFile
  split
  · obtain ⟨k, w, e⟩ := fileClaim_puts slotPump 1 (units c.draw) (some pumpWait) n
    rw [e]
    exact ⟨k, w, _, rfl, rfl, rfl⟩
  · exact ⟨_, _, n.pump, by rw [putClaim_self]; rfl, rfl, rfl⟩

/-- A new claim of the pump. -/
theorem fileClaim_pump {n : Node} {draw : Nat} (idle : (n.claim slotPump).state = .idle) :
    (fileClaim slotPump 1 draw (some pumpWait) n).claim slotPump =
      { state := .waiting, cls := 1, wanted := draw, stamp := n.now, deadline := some (n.now + 3000) } := by
  have files : fileClaim slotPump 1 draw (some pumpWait) n = n.putClaim slotPump
      { state := .waiting, cls := 1, wanted := draw, stamp := n.now, deadline := some (n.now + 3000) } true :=
    (if_neg (not_not_intro idle)).trans (if_neg (by decide))
  rw [files, claim_putClaim_self]

theorem pumpSwitch_off_running {c : PumpCfg} {n : Node}
    (h : n.pump.state = .waiting ∨ n.pump.state = .running ∨ n.pump.state = .inhibited) :
    pumpSwitch c false n = pumpTo .idle none (pumpStop c (n.setPump { n.pump with modeOn := false })) := by
  simp only [pumpSwitch, Bool.false_eq_true, if_false]
  exact if_pos h

theorem pumpSwitch_off_idle {c : PumpCfg} {n : Node}
    (h : ¬ (n.pump.state = .waiting ∨ n.pump.state = .running ∨ n.pump.state = .inhibited)) :
    pumpSwitch c false n = n.setPump { n.pump with modeOn := false } := by
  simp only [pumpSwitch, Bool.false_eq_true, if_false]
  exact if_neg h

theorem pumpSwitch_on (c : PumpCfg) (n : Node) :
    pumpSwitch c true n = pumpBegin c (n.setPump { n.pump with modeOn := true }) := by
  simp only [pumpSwitch, if_true]

theorem pumpBegin_other {c : PumpCfg} {n : Node} (h : n.pump.state ≠ .idle) : pumpBegin c n = n :=
  if_neg fun k => h k.1

theorem pumpBegin_idle {c : PumpCfg} {n : Node} (idle : n.pump.state = .idle) (on : n.pump.modeOn = true) :
    pumpBegin c n = match pumpInhibit c n with
      | some r => pumpTo .inhibited (some r) n
      | none => pumpFile c n := by
  simp only [pumpBegin, idle, on, and_self, if_true] <;> rfl

/-- The parts of the node that the pump writes. -/
def Node.putPump (n : Node) (b : Bank) (k : Claim) (w : Bool) (p : Pump) : Node :=
  ((n.setBank b).putClaim slotPump k w).setPump p

theorem pumpBegin_shape (c : PumpCfg) (n : Node) : ∃ k w p, pumpBegin c n = n.putPump n.bank k w p ∧
    p.modeOn = n.pump.modeOn ∧ p.dryCount = n.pump.dryCount := by
  have self : n.setBank n.bank = n := rfl
  simp only [Node.putPump, self]
  unfold pumpBegin
  split
  · split
    · exact ⟨n.claim slotPump, n.ev.wait, _, (congrArg (pumpTo .inhibited (some _)) (putClaim_self n slotPump)).symm,
        rfl, rfl⟩
    · exact pumpFile_shape c n
  · exact ⟨_, _, n.pump, by rw [putClaim_self]; rfl, rfl, rfl⟩

theorem pumpSwitch_shape (c : PumpCfg) (on : Bool) (n : Node) : ∃ b k w p, pumpSwitch c on n = n.putPump b k w p ∧
    p.modeOn = on ∧ p.dryCount = n.pump.dryCount := by
  cases on with
  | true =>
    obtain ⟨k, w, p, e, mode, dry⟩ := pumpBegin_shape c (n.setPump { n.pump with modeOn := true })
    exact ⟨n.bank, k, w, p, (pumpSwitch_on c n).trans e, mode, dry⟩
  | false =>
    by_cases h : n.pump.state = .waiting ∨ n.pump.state = .running ∨ n.pump.state = .inhibited
    · obtain ⟨b, k, w, e, -⟩ := pumpStop_shape c (n.setPump { n.pump with modeOn := false })
      rw [pumpSwitch_off_running h, e]
      exact ⟨b, k, w, _, rfl, rfl, rfl⟩
    · rw [pumpSwitch_off_idle h]
      exact ⟨n.bank, n.claim slotPump, n.ev.wait, { n.pump with modeOn := false }, by
        have self : (n.setBank n.bank).putClaim slotPump (n.claim slotPump) n.ev.wait = n := putClaim_self n slotPump
        rw [Node.putPump, self], rfl, rfl⟩

theorem argOf_single {b : CommandBody} {a : Byte} (h : b.args = [a]) : argOf b 0 = a.toNat := by
  rw [argOf, h]
  rfl

/-- PUMP_MODE OFF (R87). -/
theorem pumpSwitch_off (c : PumpCfg) (k : Node) : let m := pumpSwitch c false k
    (k.pump.state = .idle ∨ k.pump.state = .dryFault →
      m.pump.state = k.pump.state ∧ m.claims = k.claims ∧ m.bank = k.bank) ∧
    (k.pump.state ≠ .dryFault → m.pump.state = .idle) ∧
    (k.pump.state = .waiting ∨ k.pump.state = .running ∨ k.pump.state = .inhibited → (m.claim slotPump).state = .idle) ∧
    (k.pump.state = .running → (m.chan c.output).commanded = 0) := by
  intro m
  obtain ⟨b', q, w, e, slot, level⟩ := pumpStop_shape c (k.setPump { k.pump with modeOn := false })
  by_cases stops : k.pump.state = .waiting ∨ k.pump.state = .running ∨ k.pump.state = .inhibited
  · have shape : m = _ := (pumpSwitch_off_running stops).trans (congrArg (pumpTo .idle none) e)
    rw [shape]
    refine ⟨fun idle => ?_, fun _ => rfl, fun _ => ?_, fun run => level run⟩
    · rcases stops with h | h | h <;> simp [h] at idle
    · simpa [pumpTo] using slot
  · have shape : m = _ := pumpSwitch_off_idle stops
    rw [shape]
    refine ⟨fun _ => ⟨rfl, rfl, rfl⟩, fun sound => ?_, fun h => absurd h stops, fun run => absurd (.inr (.inl run)) stops⟩
    change k.pump.state = .idle
    cases state : k.pump.state <;> simp_all

/-- PUMP_MODE ON (R87). -/
theorem pumpSwitch_begins (c : PumpCfg) (k : Node) : let m := pumpSwitch c true k
    (k.pump.state ≠ .idle → m.pump = { k.pump with modeOn := true } ∧ m.claims = k.claims ∧ m.bank = k.bank) ∧
    (∀ r, k.pump.state = .idle → pumpInhibit c k = some r →
      m.pump.state = .inhibited ∧ m.pump.reason = some r ∧ m.claims = k.claims) ∧
    (k.pump.state = .idle → pumpInhibit c k = none → k.isActive = true → demand c k = true →
      (k.claim slotPump).state = .idle → m.pump.state = .waiting ∧
      m.claim slotPump = { state := .waiting, cls := 1, wanted := units c.draw, stamp := k.now,
                           deadline := some (k.now + 3000) }) := by
  dsimp only
  rw [pumpSwitch_on]
  have on : (k.setPump { k.pump with modeOn := true }).pump.modeOn = true := rfl
  refine ⟨fun busy => ?_, fun r idle inhibit => ?_, fun idle free active wanted slot => ?_⟩
  · rw [pumpBegin_other (by exact busy)]
    exact ⟨rfl, rfl, rfl⟩
  · have inhibit' : pumpInhibit c (k.setPump { k.pump with modeOn := true }) = some r := inhibit
    rw [pumpBegin_idle (by exact idle) on, inhibit']
    exact ⟨rfl, rfl, rfl⟩
  · have free' : pumpInhibit c (k.setPump { k.pump with modeOn := true }) = none := free
    rw [pumpBegin_idle (by exact idle) on, free']
    dsimp only
    rw [pumpFile_files (by exact active) on (by exact wanted) (by exact idle)]
    exact ⟨rfl, fileClaim_pump (by exact slot)⟩

/-- Settles O35: PUMP_MODE by its argument, PUMP_RESET by the pump's state. -/
theorem pumpCommands : Obligations.PumpCommands := by
  unfold Obligations.PumpCommands
  constructor
  · rintro s dt x rest b k c a rfl h held cfg args
    have acts : exec (.pumpMode dt) s = .next (s.ended dt (s.rx.without rest)
        ((s.admitted dt x).carry x b (pumpModeAct x.source b (s.admitted dt x)))) :=
      (rfl : exec (.pumpMode dt) s = commandEvent dt 0x18 (fun _ => true)
        (runCommand (some .pump) (hasLength 1) pumpModeAct) s).trans
        (commandEvent_carries h rfl (hasLength_eq_true (by rw [args]; rfl)) held)
    refine ⟨_, acts, ?_⟩
    clear acts
    generalize s.admitted dt x = k at held cfg ⊢
    have arg := argOf_single args
    have switched (on : Bool) (act : pumpModeAct x.source b k = give .done (pumpSwitch c on k)) :
        let m := pumpSwitch c on k
        k.carry x b (pumpModeAct x.source b k) = { m with ev := { m.ev with reply := k.owing x b .done 0 } } ∧
          m = { k with pump := m.pump, claims := m.claims, bank := m.bank, ev := m.ev } ∧ m.pump.modeOn = on ∧
          m.pump.dryCount = k.pump.dryCount := by
      obtain ⟨b', q, w, p, e, mode, dry⟩ := pumpSwitch_shape c on k
      have kept : (pumpSwitch c on k).ev.reply = k.ev.reply := by rw [e]; rfl
      rw [act]
      exact ⟨carry_frame (o := give .done (pumpSwitch c on k)) kept, by rw [e]; rfl, by rw [e]; exact mode,
        by rw [e]; exact dry⟩
    by_cases zero : a.toNat = 0
    · have act : pumpModeAct x.source b k = give .done (pumpSwitch c false k) := by
        simp only [pumpModeAct, cfg, arg, zero, if_true]
      obtain ⟨carried, frame, mode, dry⟩ := switched false act
      obtain ⟨kept, idles, frees, stops⟩ := pumpSwitch_off c k
      rw [carried]
      generalize pumpSwitch c false k = m at frame mode dry kept idles frees stops ⊢
      refine ⟨by rw [frame], fun _ => ⟨rfl, mode, dry, kept, idles, frees, stops⟩, fun one => ?_,
        fun far => absurd far (by omega)⟩
      rw [one] at zero
      exact absurd zero (by decide)
    · by_cases one : a.toNat = 1
      · have act : pumpModeAct x.source b k = give .done (pumpSwitch c true k) := by
          simp only [pumpModeAct, cfg, arg, one]
          rfl
        obtain ⟨carried, frame, mode, -⟩ := switched true act
        obtain ⟨kept, inhibits, files⟩ := pumpSwitch_begins c k
        rw [carried]
        generalize pumpSwitch c true k = m at frame mode kept inhibits files ⊢
        exact ⟨by rw [frame], fun h => absurd (by rw [h]; rfl) zero, fun _ => ⟨rfl, mode, kept, inhibits, files⟩,
          fun far => absurd far (by omega)⟩
      · have act : pumpModeAct x.source b k = give .refusedRange k := by
          simp only [pumpModeAct, cfg, arg, zero, one, if_false]
        rw [act, carry_frame (by rfl)]
        refine ⟨rfl, fun h => absurd (by rw [h]; rfl) zero, fun h => absurd (by rw [h]; rfl) one, fun _ => rfl⟩
  · rintro s dt x rest b k c rfl h held cfg args
    have acts : exec (.pumpReset dt) s = .next (s.ended dt (s.rx.without rest)
        ((s.admitted dt x).carry x b (pumpResetAct x.source b (s.admitted dt x)))) :=
      (rfl : exec (.pumpReset dt) s = commandEvent dt 0x19 (fun _ => true)
        (runCommand (some .pump) (hasLength 0) pumpResetAct) s).trans
        (commandEvent_carries h rfl (hasLength_eq_true (by rw [args]; rfl)) held)
    refine ⟨_, acts, ?_⟩
    clear acts
    generalize s.admitted dt x = k at held cfg ⊢
    by_cases dry : k.pump.state = .dryFault
    · cases inhibit : pumpInhibit c k with
      | some r =>
        have act : pumpResetAct x.source b k = give .done (pumpTo .inhibited (some r) k) := by
          simp only [pumpResetAct, cfg, dry, if_true, inhibit]
        rw [act, carry_frame (by rfl)]
        exact ⟨rfl, rfl, fun _ => ⟨rfl, fun r' same => ⟨rfl, same, rfl⟩, nofun, nofun⟩, fun other => absurd dry other⟩
      | none =>
        have act : pumpResetAct x.source b k = give .done (pumpFile c (pumpTo .idle none k)) := by
          simp only [pumpResetAct, cfg, dry, if_true, inhibit]
        obtain ⟨q, w, p, e, -, count⟩ := pumpFile_shape c (pumpTo .idle none k)
        rw [act, carry_frame (by rw [give_node, e]; rfl)]
        refine ⟨by rw [give_node, e]; rfl, by rw [give_node, e]; exact count, fun _ => ⟨rfl, nofun, fun _ off => ?_,
          fun _ on wanted active => ?_⟩, fun other => absurd dry other⟩
        · rw [give_node, pumpFile_off (by exact off)]
          exact ⟨rfl, rfl⟩
        · rw [give_node, pumpFile_files (by exact active) (by exact on) (by exact wanted) rfl]
          rfl
    · have act : pumpResetAct x.source b k = give .refusedState k := by
        simp only [pumpResetAct, cfg, dry, if_false]
      rw [act, carry_frame (by rfl)]
      exact ⟨rfl, rfl, fun state => absurd state dry, fun _ => rfl⟩

/-- What DRY_FAULT writes (R93). -/
theorem pumpDry_shape (c : PumpCfg) (n : Node) : ∃ b k w, pumpDry c n = (((n.setBank b).putClaim slotPump k w).setPump
      { n.pump with state := .dryFault, reason := none, run := none, low := none
                    dryCount := satSucc n.pump.dryCount }).setFlags (n.cmd.flags ||| flagMask .dryFault) ∧
    k.state = .idle ∧ (n.pump.state = .running → ((n.setBank b).chan c.output).commanded = 0) := by
  obtain ⟨b, k, w, e, idle, off⟩ := pumpStop_shape c n
  refine ⟨b, k, w, ?_, idle, off⟩
  unfold pumpDry
  rw [e]
  rfl

theorem pumpDry_parts {c : PumpCfg} {n : Node} (run : n.pump.state = .running) : let m := pumpDry c n
    m = { n with pump := m.pump, claims := m.claims, bank := m.bank, cmd := { n.cmd with flags := m.cmd.flags },
                 ev := m.ev } ∧
    m.pump.state = .dryFault ∧ m.pump.run = none ∧ m.pump.low = none ∧
    m.pump.dryCount = min (n.pump.dryCount + 1) 65535 ∧ m.pump.modeOn = n.pump.modeOn ∧
    (m.chan c.output).commanded = 0 ∧ (m.claim slotPump).state = .idle ∧ hasFlag .dryFault m = true := by
  obtain ⟨b, k, w, e, idle, off⟩ := pumpDry_shape c n
  dsimp only
  rw [e]
  refine ⟨rfl, rfl, rfl, rfl, rfl, rfl, off run, by simpa [Node.setFlags] using idle, ?_⟩
  exact hasFlag_setFlag (f := .dryFault) (g := .dryFault) (n := n) (.inl rfl)

/-- The clearing of the shed mark at the start of an evaluation leaves what the inhibits read. -/
theorem pumpEvaluate_inhibited {n : Node} {c : PumpCfg} {r : PumpReason}
    (state : n.pump.state = .running ∨ n.pump.state = .waiting) (inhibit : pumpInhibit c n = some r) :
    let m := pumpEvaluate c n
    m.pump.state = .inhibited ∧ m.pump.reason = some r ∧ m.pump.run = none ∧ (m.claim slotPump).state = .idle ∧
      (n.pump.state = .running → (m.chan c.output).commanded = 0) := by
  let n' := if n.view.shed < 2 then n.setPump { n.pump with toldShed := false } else n
  have same : n'.pump.state = n.pump.state := by simp only [n']; split <;> rfl
  have still : pumpInhibit c n' = pumpInhibit c n := by
    simp only [n']
    split
    · rename_i low
      have level : ¬ 2 ≤ n.view.shed := not_le.mpr low
      have sheds (m : Node) (h : m.view.shed = n.view.shed) : (m.pump.toldShed && decide (2 ≤ m.view.shed)) = false := by
        simp [h, level]
      simp only [pumpInhibit, sheds n rfl, sheds (n.setPump { n.pump with toldShed := false }) rfl]
      rfl
    · rfl
  have evaluates : pumpEvaluate c n = pumpTo .inhibited (some r) (pumpStop c n') := by
    have h : pumpEvaluate c n = match n'.pump.state, pumpInhibit c n' with
      | .running, some r => pumpTo .inhibited (some r) (pumpStop c n')
      | .running, none => pumpLow n'
      | .waiting, some r => pumpTo .inhibited (some r) (pumpStop c n')
      | .idle, some r => if n'.pump.modeOn then pumpTo .inhibited (some r) n' else n'
      | .inhibited, some r => pumpTo .inhibited (some r) n'
      | .inhibited, none => pumpFile c (pumpTo .idle none n')
      | _, _ => n' := rfl
    rw [h, same, still, inhibit]
    rcases state with run | wait
    · rw [run]
    · rw [wait]
  obtain ⟨b, k, w, e, idle, off⟩ := pumpStop_shape c n'
  rw [same] at off
  dsimp only
  rw [evaluates, e]
  exact ⟨rfl, rfl, rfl, by simpa [pumpTo] using idle, off⟩

/-- The inhibits in their order (R88). -/
theorem pumpInhibit_order {n : Node} {c : PumpCfg} {r : PumpReason} (inhibit : pumpInhibit c n = some r) :
    (frostInhibit n = true → r = .frost) ∧
    (frostInhibit n = false → greyInhibit n = true → r = .greyFull) ∧
    (frostInhibit n = false → greyInhibit n = false → (∃ low, usedFresh n = some (true, low)) → r = .freshEmpty) ∧
    (frostInhibit n = false → greyInhibit n = false → (∀ low, usedFresh n ≠ some (true, low)) →
      isHeldOff (n.chan c.output) = true → r = .channel) := by
  refine ⟨fun frost => ?_, fun frost grey => ?_, fun frost grey => ?_, fun frost grey fresh held => ?_⟩
  · simpa [pumpInhibit, frost, eq_comm] using inhibit
  · simpa [pumpInhibit, frost, grey, eq_comm] using inhibit
  · rintro ⟨low, fresh⟩
    simpa [pumpInhibit, frost, grey, fresh, eq_comm] using inhibit
  · have some_water : (usedFresh n).any (·.1) = false := by
      rcases h : usedFresh n with _ | ⟨_ | _, low⟩
      · rfl
      · rfl
      · exact absurd h (fresh low)
    simpa [pumpInhibit, frost, grey, some_water, held, eq_comm] using inhibit

/-- Settles O36: the two clocks of a running pump, then the first inhibit that holds. -/
theorem pumpStops : Obligations.PumpStops := by
  unfold Obligations.PumpStops
  constructor
  · rintro s dt n c p rfl up cfg run dry
    have body : pumpDryOut (s.found dt) = pumpDry c (s.found dt) := by simp only [pumpDryOut, cfg]
    have isDry : dry (pumpDry c (s.found dt)) := pumpDry_parts run
    have clocks (clock : Pump → Option Nat) (limit : PumpCfg → Nat) (n : Node) :
        pumpClock clock limit (keepTemp n) = pumpClock clock limit n := by simp [pumpClock]
    refine ⟨fun at_ due => ⟨_, ?_, isDry⟩, fun at_ due => ⟨_, ?_, isDry⟩⟩
    · rw [← body]
      change execPumpRunTimeout dt s = _
      unfold execPumpRunTimeout
      refine nodeEvent_found (clocks _ _) up ?_
      simp [pumpClock, cfg, run, at_, later, Node.reached, due]
    · rw [← body]
      change execPumpLowTimeout dt s = _
      unfold execPumpLowTimeout
      refine nodeEvent_found (clocks _ _) up ?_
      simp [pumpClock, cfg, run, at_, later, Node.reached, lowLimit, due]
  · intro n c r state inhibit m
    obtain ⟨stopped, reason, run, slot, off⟩ := pumpEvaluate_inhibited state inhibit
    exact ⟨stopped, reason, run, slot, off, pumpInhibit_order inhibit⟩

end Sys2Proof.Machine
end

section
/-!
# Proofs: frost monitor (chapter 5)

An evaluation of the conditions by the monitor's state (`frostEvaluate_…`); a valve move writes the class-4 claim, the
coil and the monitor's record (`beginMove_shape`); what a move's end releases leaves what the conditions read
(`moveEnded_reads`).
-/
namespace Sys2Proof.Machine

/-! ## The conditions (R98 to R101) -/

theorem frostEvaluate_unknown {c : FrostCfg} {n : Node} (h : contactKnown c n = false) : frostEvaluate c n = n := by
  simp [frostEvaluate, h]

theorem frostEvaluate_safe {c : FrostCfg} {n : Node} (armed : n.frost.state = .armed)
    (safe : (waterCold c n && !heatPresent n) = false) : frostEvaluate c n = n := by
  simp [frostEvaluate, armed, safe]

theorem frostEvaluate_counts {c : FrostCfg} {n : Node} (known : contactKnown c n = true) (armed : n.frost.state = .armed)
    (cold : waterCold c n = true) (dark : heatPresent n = false) (power : viewCutoff n = false) :
    frostEvaluate c n = n.setFrost { n.frost with state := .countdown, countdown := some (n.now + c.delay) } := by
  simp [frostEvaluate, known, armed, cold, dark, power, Node.after]

theorem frostEvaluate_dumps {c : FrostCfg} {n : Node} (known : contactKnown c n = true) (armed : n.frost.state = .armed)
    (cold : waterCold c n = true) (dark : heatPresent n = false) (cutoff : viewCutoff n = true) :
    frostEvaluate c n = beginMove .dumping c.openCoil n := by
  simp [frostEvaluate, known, armed, cold, dark, cutoff]

theorem contactKnown_of_active {c : FrostCfg} {n : Node} (h : n.inputActive c.contact = true) :
    contactKnown c n = true := by
  have active : (n.chan c.contact).accepted = some true := by simpa [Node.inputActive] using h
  simp [contactKnown, active]

theorem safe_of {c : FrostCfg} {n : Node} (h : waterCold c n = false ∨ heatPresent n = true) :
    (waterCold c n && !heatPresent n) = false := by
  rcases h with h | h <;> simp [h]

theorem safe_of_not {c : FrostCfg} {n : Node} (h : ¬ (waterCold c n = true ∧ heatPresent n = false)) :
    (waterCold c n && !heatPresent n) = false := by
  simpa using h

/-! ## Valve moves (R97) -/

/-- The node with the slots, the bank and the monitor's record written: what a valve move touches. -/
def Node.putFrost (n : Node) (k : Vector Claim 8) (b : Bank) (f : Frost) : Node :=
  { n with claims := k, bank := b, frost := f }

theorem putFrost_self (n : Node) : n.putFrost n.claims n.bank n.frost = n := rfl

theorem beginMove_shape (st : FrostState) (coil : Fin 16) (n : Node) : ∃ k b,
    beginMove st coil n = n.putFrost k b
      { n.frost with state := st, countdown := none, moveEnd := some (n.now + 8000) } ∧
    ((beginMove st coil n).chan coil).commanded = 100 ∧
    ((n.claim slotFrost).state = .idle →
      (beginMove st coil n).claim slotFrost =
        { state := .holding, cls := 4, held := 4, wanted := 4, stamp := n.now }) := by
  have on : ((beginMove st coil n).chan coil).commanded = 100 :=
    commanded_ask_self coil 100 (fileClaim slotFrost 4 valveUnits none n)
  by_cases idle : (n.claim slotFrost).state = .idle
  · have files : fileClaim slotFrost 4 valveUnits none n =
        n.setClaim slotFrost { state := .holding, cls := 4, held := 4, wanted := 4, stamp := n.now } :=
      (if_neg (not_not_intro idle)).trans (if_pos rfl)
    obtain ⟨b, asked⟩ := ask_sets coil 100 (fileClaim slotFrost 4 valveUnits none n)
    have shape : beginMove st coil n = (n.setClaim slotFrost
        { state := .holding, cls := 4, held := 4, wanted := 4, stamp := n.now }).putFrost
        (n.setClaim slotFrost { state := .holding, cls := 4, held := 4, wanted := 4, stamp := n.now }).claims b
        { n.frost with state := st, countdown := none, moveEnd := some (n.now + 8000) } := by
      unfold beginMove
      dsimp only
      rw [asked, files]
      rfl
    refine ⟨_, b, by rw [shape]; rfl, on, fun _ => ?_⟩
    rw [shape]
    exact Node.claim_setClaim_self ..
  · have files : fileClaim slotFrost 4 valveUnits none n = n := if_pos idle
    obtain ⟨b, asked⟩ := ask_sets coil 100 (fileClaim slotFrost 4 valveUnits none n)
    refine ⟨n.claims, b, ?_, on, fun h => absurd h idle⟩
    unfold beginMove
    dsimp only
    rw [asked, files]
    rfl

/-- An evaluation touches the slots, the bank and the monitor's record alone. -/
theorem frostEvaluate_shape (c : FrostCfg) (n : Node) : ∃ k b f, frostEvaluate c n = n.putFrost k b f := by
  have moves : ∃ k b f, beginMove .dumping c.openCoil n = n.putFrost k b f := by
    obtain ⟨k, b, e, -⟩ := beginMove_shape .dumping c.openCoil n
    exact ⟨k, b, _, e⟩
  have still : ∃ k b f, n = n.putFrost k b f := ⟨_, _, _, (putFrost_self n).symm⟩
  have writes (f : Frost) : ∃ k b f', n.setFrost f = n.putFrost k b f' := ⟨n.claims, n.bank, f, rfl⟩
  unfold frostEvaluate
  dsimp only
  repeat' split
  · exact still
  · exact moves
  · exact writes _
  · exact still
  · exact writes _
  · exact moves
  · exact still
  · exact still

/-- The node after the end of a move, before its new state: the coil off and the claim released (R97). -/
def moveEnded (c : FrostCfg) (n : Node) : Node :=
  releaseClaim slotFrost (ask (if n.frost.state == .dumping then c.openCoil else c.closeCoil) 0 n)

theorem endMove_eq (c : FrostCfg) (n : Node) : endMove c n =
    if n.frost.state == .dumping then
      if (moveEnded c n).inputActive c.contact then setFlag .valveFault (frostTo .valveFault (moveEnded c n))
      else setFlag .frostDumped (frostTo .drained (moveEnded c n))
    else if (moveEnded c n).inputActive c.contact then frostEvaluate c (frostTo .armed (moveEnded c n))
    else setFlag .valveFault (frostTo .valveFault (moveEnded c n)) := rfl

/-- What the end of a move releases: the channels and the slot; the conditions read neither. -/
theorem moveEnded_shape (c : FrostCfg) (n : Node) : ∃ v k w,
    moveEnded c n = (n.setBank { n.bank with chans := v }).putClaim slotFrost k w ∧ k.state = .idle := by
  have asked : ∃ v, ask (if n.frost.state == .dumping then c.openCoil else c.closeCoil) 0 n =
      n.setBank { n.bank with chans := v } := ⟨_, rfl⟩
  obtain ⟨v, asked⟩ := asked
  obtain ⟨k, w, released⟩ := releaseClaim_puts slotFrost (n.setBank { n.bank with chans := v })
  have shape : moveEnded c n = (n.setBank { n.bank with chans := v }).putClaim slotFrost k w := by
    unfold moveEnded
    rw [asked, released]
  have idle : ((moveEnded c n).claim slotFrost).state = .idle := releaseClaim_idle ..
  rw [shape, claim_putClaim_self] at idle
  exact ⟨v, k, w, shape, idle⟩

theorem moveEnded_idle (c : FrostCfg) (n : Node) : ((moveEnded c n).claim slotFrost).state = .idle :=
  releaseClaim_idle ..

theorem moveEnded_chan (c : FrostCfg) (n : Node) (i : Fin 16) : (moveEnded c n).chan i =
    (ask (if n.frost.state == .dumping then c.openCoil else c.closeCoil) 0 n).chan i := by
  obtain ⟨k, w, released⟩ := releaseClaim_puts slotFrost
    (ask (if n.frost.state == .dumping then c.openCoil else c.closeCoil) 0 n)
  unfold moveEnded
  rw [released]
  rfl

theorem moveEnded_off (c : FrostCfg) (n : Node) :
    (n.frost.state = .dumping → ((moveEnded c n).chan c.openCoil).commanded = 0) ∧
    (n.frost.state ≠ .dumping → ((moveEnded c n).chan c.closeCoil).commanded = 0) := by
  constructor <;> intro h <;> simp [moveEnded_chan, h]

theorem moveEnded_contact (c : FrostCfg) (n : Node) : (moveEnded c n).inputActive c.contact = n.inputActive c.contact ∧
    contactKnown c (moveEnded c n) = contactKnown c n := by
  constructor <;> simp [Node.inputActive, contactKnown, moveEnded_chan]

/-- What the conditions read is as it was before the move ended. -/
theorem moveEnded_reads (c : FrostCfg) (n : Node) :
    waterCold c (frostTo .armed (moveEnded c n)) = waterCold c n ∧
    heatPresent (frostTo .armed (moveEnded c n)) = heatPresent n ∧
    viewCutoff (frostTo .armed (moveEnded c n)) = viewCutoff n ∧ (moveEnded c n).now = n.now := by
  obtain ⟨v, k, w, shape, -⟩ := moveEnded_shape c n
  rw [shape]
  exact ⟨rfl, rfl, rfl, rfl⟩

/-- What the end of a move touches. -/
theorem endMove_frame (c : FrostCfg) (n : Node) : let m := endMove c n
    m = { n with frost := m.frost, claims := m.claims, bank := m.bank, ev := m.ev
                 cmd := { n.cmd with flags := m.cmd.flags } } := by
  obtain ⟨v, q, w, shape, -⟩ := moveEnded_shape c n
  dsimp only
  rw [endMove_eq]
  obtain ⟨k, b, f, e⟩ := frostEvaluate_shape c (frostTo .armed (moveEnded c n))
  rw [e, shape]
  repeat' split
  all_goals rfl

/-- The end of an OPEN move (R102). -/
theorem endMove_dumping {c : FrostCfg} {n : Node} (state : n.frost.state = .dumping) : let m := endMove c n
    (m.chan c.openCoil).commanded = 0 ∧ (m.claim slotFrost).state = .idle ∧
    (n.inputActive c.contact = false →
      m.frost.state = .drained ∧ m.frost.moveEnd = none ∧ hasFlag .frostDumped m = true) ∧
    (n.inputActive c.contact = true →
      m.frost.state = .valveFault ∧ m.frost.moveEnd = none ∧ hasFlag .valveFault m = true) := by
  have off := (moveEnded_off c n).1 state
  have free := moveEnded_idle c n
  have ends : endMove c n = if n.inputActive c.contact then setFlag .valveFault (frostTo .valveFault (moveEnded c n))
      else setFlag .frostDumped (frostTo .drained (moveEnded c n)) := by
    rw [endMove_eq, (moveEnded_contact c n).1]
    simp [state]
  dsimp only
  cases contact : n.inputActive c.contact
  · rw [contact] at ends
    rw [ends]
    exact ⟨off, free, fun _ => ⟨rfl, rfl, hasFlag_setFlag (f := .frostDumped) (g := .frostDumped) (.inl rfl)⟩, nofun⟩
  · rw [contact] at ends
    rw [ends]
    exact ⟨off, free, nofun, fun _ => ⟨rfl, rfl, hasFlag_setFlag (f := .valveFault) (g := .valveFault) (.inl rfl)⟩⟩

/-- The end of a CLOSE move (R103). -/
theorem endMove_closing {c : FrostCfg} {n : Node} (state : n.frost.state = .closing) : let m := endMove c n
    (n.inputActive c.contact = false → m.frost.state = .valveFault ∧ hasFlag .valveFault m = true ∧
      (m.chan c.closeCoil).commanded = 0 ∧ (m.claim slotFrost).state = .idle) ∧
    (n.inputActive c.contact = true → waterCold c n = false ∨ heatPresent n = true →
      m.frost.state = .armed ∧ m.frost.moveEnd = none ∧ (m.chan c.closeCoil).commanded = 0 ∧
      (m.claim slotFrost).state = .idle) ∧
    (n.inputActive c.contact = true → waterCold c n = true → heatPresent n = false → viewCutoff n = false →
      m.frost.state = .countdown ∧ m.frost.countdown = some (n.now + c.delay)) := by
  have off := (moveEnded_off c n).2 (by rw [state]; decide)
  have free := moveEnded_idle c n
  obtain ⟨coldSame, heatSame, cutoffSame, nowSame⟩ := moveEnded_reads c n
  have ends : endMove c n = if n.inputActive c.contact then frostEvaluate c (frostTo .armed (moveEnded c n))
      else setFlag .valveFault (frostTo .valveFault (moveEnded c n)) := by
    rw [endMove_eq, (moveEnded_contact c n).1]
    simp [state]
  dsimp only
  cases contact : n.inputActive c.contact
  · rw [contact] at ends
    rw [ends]
    exact ⟨fun _ => ⟨rfl, hasFlag_setFlag (f := .valveFault) (g := .valveFault) (.inl rfl), off, free⟩, nofun, nofun⟩
  · rw [contact] at ends
    have known : contactKnown c (frostTo .armed (moveEnded c n)) = true := by
      have same : contactKnown c (frostTo .armed (moveEnded c n)) = contactKnown c n := (moveEnded_contact c n).2
      rw [same]
      exact contactKnown_of_active contact
    refine ⟨nofun, fun _ safe => ?_, fun _ cold dark power => ?_⟩
    · have safe' : (waterCold c (frostTo .armed (moveEnded c n)) && !heatPresent (frostTo .armed (moveEnded c n))) =
          false := by rw [coldSame, heatSame]; exact safe_of safe
      rw [ends, if_pos rfl, frostEvaluate_safe rfl safe']
      exact ⟨rfl, rfl, off, free⟩
    · rw [ends, if_pos rfl, frostEvaluate_counts known rfl (coldSame.trans cold) (heatSame.trans dark)
        (cutoffSame.trans power)]
      exact ⟨rfl, congrArg (fun t => some (t + c.delay)) nowSame⟩

/-! ## The clocks (R97, R98, R101 to R103) -/

/-- Keeping the reading changes no source of it. -/
theorem sourceTemp_keepTemp (c : FrostCfg) (n : Node) : sourceTemp c (keepTemp n) = sourceTemp c n := by
  unfold keepTemp
  split
  · rfl
  · split <;> rfl

/-- Without a source the grace is as it was. -/
theorem graceEnds_keepTemp (n : Node) : graceEnds (keepTemp n) = graceEnds n := by
  cases cfg : n.frostCfg with
  | none =>
    have same : keepTemp n = n := by simp only [keepTemp, cfg]
    rw [same]
  | some c =>
    cases source : sourceTemp c n with
    | none =>
      have same : keepTemp n = n := by simp only [keepTemp, cfg, source]
      rw [same]
    | some t =>
      have cfg' : (keepTemp n).frostCfg = some c := by
        simp only [keepTemp, cfg, source]
        exact cfg
      have source' : sourceTemp c (keepTemp n) = some t := (sourceTemp_keepTemp c n).trans source
      simp [graceEnds, cfg, cfg', source, source']

theorem countdownEnds_keepTemp (n : Node) : countdownEnds (keepTemp n) = countdownEnds n := by
  unfold keepTemp
  split
  · rfl
  · split <;> rfl

theorem moveDue_keepTemp (n : Node) :
    (keepTemp n).reached (keepTemp n).frost.moveEnd = n.reached n.frost.moveEnd := by
  unfold keepTemp
  split
  · rfl
  · split <;> rfl

/-- Settles O37: the end of the grace evaluates the conditions, the countdown's expiry begins the OPEN move or re-arms,
and the end of a move is judged from the closed contact. -/
theorem frostClocks : Obligations.FrostClocks := by
  unfold Obligations.FrostClocks
  rintro s dt n c d rfl up cfg due
  refine ⟨fun none_valid past => ?_, fun state at_ => ?_, fun at_ state => ?_⟩
  · have ends : graceEnds (s.found dt) = true := by
      have graceless : inGrace (s.found dt) = false := decide_eq_false (not_lt.mpr past)
      simp [graceEnds, cfg, none_valid, graceless]
    have acts : exec (.frostGraceEnd dt) s = .next (s.ended dt s.rx (frostCheck (s.found dt))) := by
      change execFrostGraceEnd dt s = _
      unfold execFrostGraceEnd
      exact nodeEvent_found graceEnds_keepTemp up ends
    have checks : frostCheck (s.found dt) = frostEvaluate c (s.found dt) := by simp only [frostCheck, cfg]
    rw [checks] at acts
    refine ⟨_, acts, fun h armed => ?_, fun known dark armed power => ?_, fun known dark armed cutoff => ?_⟩
    · rcases h with unknown | heat
      · exact frostEvaluate_unknown unknown
      · exact frostEvaluate_safe armed (safe_of (.inr heat))
    · have cold : waterCold c (s.found dt) = true := by
        have graceless : inGrace (s.found dt) = false := decide_eq_false (not_lt.mpr past)
        simp [waterCold, tempUsed, none_valid, graceless]
      exact frostEvaluate_counts known armed cold dark power
    · have cold : waterCold c (s.found dt) = true := by
        have graceless : inGrace (s.found dt) = false := decide_eq_false (not_lt.mpr past)
        simp [waterCold, tempUsed, none_valid, graceless]
      rw [frostEvaluate_dumps known armed cold dark cutoff]
      obtain ⟨k, b, e, on, -⟩ := beginMove_shape .dumping c.openCoil (s.found dt)
      exact ⟨by rw [e]; rfl, by rw [e]; rfl, on⟩
  · have acts : exec (.countdownExpiry dt) s = .next (s.ended dt s.rx (countdownEnd (s.found dt))) := by
      change execCountdownExpiry dt s = _
      unfold execCountdownExpiry
      refine nodeEvent_found countdownEnds_keepTemp up ?_
      simp [countdownEnds, state, at_, Node.reached, due]
    refine ⟨_, acts, fun cold dark => ?_, fun h => ?_⟩
    · have body : countdownEnd (s.found dt) = beginMove .dumping c.openCoil (s.found dt) := by
        simp [countdownEnd, cfg, cold, dark]
      obtain ⟨k, b, e, on, slot⟩ := beginMove_shape .dumping c.openCoil (s.found dt)
      rw [body]
      exact ⟨by rw [e]; rfl, by rw [e]; rfl, by rw [e]; rfl, on, slot, by rw [e]; rfl⟩
    · simp [countdownEnd, cfg, safe_of h]
      rfl
  · have acts : exec (.valveMoveEnd dt) s = .next (s.ended dt s.rx (endMove c (s.found dt))) := by
      have body : (fun n : Node => match n.frostCfg with
          | some c => endMove c n
          | none => n) (s.found dt) = endMove c (s.found dt) := by simp only [cfg]
      rw [← body]
      change execValveMoveEnd dt s = _
      unfold execValveMoveEnd
      exact nodeEvent_found moveDue_keepTemp up (by rw [at_]; exact reached_iff.mpr due)
    refine ⟨_, acts, ?_⟩
    refine ⟨fun opens => ?_, fun closes => endMove_closing closes, endMove_frame c _⟩
    obtain ⟨off, free, drains, faults⟩ := endMove_dumping (c := c) opens
    exact ⟨off, free, drains, faults⟩

/-! ## The commands (R105) -/

/-- A frost command heard at a node with the duty. -/
theorem frostCommand_carries {s : State} {dt code : Nat} {x : RxFrame} {rest : List RxFrame} {b : CommandBody}
    {act : FrostCfg → Node → Outcome} (h : Heard s dt code x rest b) (held : (s.admitted dt x).has .frost = true)
    (args : b.args = []) :
    commandEvent dt code (fun _ => true) (runCommand (some .frost) (hasLength 0) (frostAct act)) s =
      .next (s.ended dt (s.rx.without rest)
        ((s.admitted dt x).carry x b (frostAct act x.source b (s.admitted dt x)))) :=
  commandEvent_carries h rfl (hasLength_eq_true (by rw [args]; rfl)) held

theorem frostAct_known {act : FrostCfg → Node → Outcome} {c : FrostCfg} {k : Node} (cfg : k.frostCfg = some c)
    (known : contactKnown c k = true) (source : Nat) (b : CommandBody) : frostAct act source b k = act c k := by
  simp only [frostAct, cfg, known, if_true]

theorem frostAct_refuses {act : FrostCfg → Node → Outcome} {c : FrostCfg} {k : Node} (cfg : k.frostCfg = some c)
    (h : contactKnown c k = true → act c k = give .refusedState k) (source : Nat) (b : CommandBody) :
    frostAct act source b k = give .refusedState k := by
  cases known : contactKnown c k
  · simp only [frostAct, cfg, known]
    rfl
  · rw [frostAct_known cfg known, h known]

/-- ARMED or DRAINED by the contact (R105): what it writes. -/
theorem stateFromContact_spec (c : FrostCfg) {k : Node} (known : contactKnown c k = true) :
    let m := stateFromContact c k
    (∃ q b f, m = k.putFrost q b f) ∧
    (k.inputActive c.contact = false →
      m.frost = { k.frost with state := .drained, countdown := none, moveEnd := none }) ∧
    (k.inputActive c.contact = true → ¬ (waterCold c k = true ∧ heatPresent k = false) →
      m.frost = { k.frost with state := .armed, countdown := none, moveEnd := none }) ∧
    (k.inputActive c.contact = true → waterCold c k = true → heatPresent k = false → viewCutoff k = false →
      m.frost = { k.frost with state := .countdown, countdown := some (k.now + c.delay), moveEnd := none }) ∧
    (k.inputActive c.contact = true → waterCold c k = true → heatPresent k = false → viewCutoff k = true →
      m.frost.state = .dumping ∧ (m.chan c.openCoil).commanded = 100) := by
  have known' : contactKnown c (frostTo .armed k) = true := known
  dsimp only
  unfold stateFromContact
  cases contact : k.inputActive c.contact
  · exact ⟨⟨k.claims, k.bank, _, rfl⟩, fun _ => rfl, nofun, nofun, nofun⟩
  · rw [if_pos rfl]
    refine ⟨?_, nofun, fun _ safe => ?_, fun _ cold dark power => ?_, fun _ cold dark cutoff => ?_⟩
    · obtain ⟨q, b, f, e⟩ := frostEvaluate_shape c (frostTo .armed k)
      exact ⟨q, b, f, by rw [e]; rfl⟩
    · have safe' : (waterCold c (frostTo .armed k) && !heatPresent (frostTo .armed k)) = false := safe_of_not safe
      rw [frostEvaluate_safe rfl safe']
      rfl
    · rw [frostEvaluate_counts known' rfl cold dark power]
      rfl
    · rw [frostEvaluate_dumps known' rfl cold dark cutoff]
      obtain ⟨q, b, e, on, -⟩ := beginMove_shape .dumping c.openCoil (frostTo .armed k)
      exact ⟨by rw [e]; rfl, on⟩

/-- FROST_ARM by the state (R105). -/
theorem armAct_cases (c : FrostCfg) (k : Node) :
    (k.frost.state = .armed ∨ k.frost.state = .countdown → armAct c k = give .done k) ∧
    (k.frost.state = .dumping ∨ k.frost.state = .drained ∨ k.frost.state = .closing →
      armAct c k = give .refusedState k) ∧
    (k.frost.state = .valveFault ∨ k.frost.state = .disarmed → armAct c k = give .done (stateFromContact c k)) := by
  unfold armAct
  cases k.frost.state <;> simp

/-- FROST_DISARM by the state (R105). -/
theorem disarmAct_cases (c : FrostCfg) (k : Node) :
    (k.frost.state = .armed ∨ k.frost.state = .countdown → disarmAct c k = give .done (frostTo .disarmed k)) ∧
    (k.frost.state = .disarmed → disarmAct c k = give .done k) ∧
    (k.frost.state = .dumping ∨ k.frost.state = .drained ∨ k.frost.state = .closing ∨ k.frost.state = .valveFault →
      disarmAct c k = give .refusedState k) := by
  unfold disarmAct
  cases k.frost.state <;> simp

/-- FROST_CLOSE by the state and the temperature used (R103). -/
theorem closeAct_cases (c : FrostCfg) (k : Node) :
    (k.frost.state = .drained → ∀ t, tempUsed c k = some t → c.threshold + 40 ≤ t →
      closeAct c k = give .accepted (beginMove .closing c.closeCoil k)) ∧
    (k.frost.state = .drained → tempUsed c k = none ∨ (∃ t, tempUsed c k = some t ∧ t < c.threshold + 40) →
      closeAct c k = give .refusedInterlock k) ∧
    (k.frost.state ≠ .drained → closeAct c k = give .refusedState k) := by
  refine ⟨fun drained t used warm => ?_, fun drained h => ?_, fun other => if_neg other⟩
  · simp only [closeAct, drained, used, if_true]
    exact if_pos warm
  · rcases h with used | ⟨t, used, cool⟩
    · simp only [closeAct, drained, used, if_true]
    · simp only [closeAct, drained, used, if_true]
      exact if_neg (not_le.mpr cool)

/-- Settles O38: the three commands by the monitor's state. -/
theorem frostCommands : Obligations.FrostCommands := by
  unfold Obligations.FrostCommands
  rintro s dt x rest b k c rfl held cfg args
  dsimp only
  refine ⟨fun h => ?_, fun h => ?_, fun h => ?_⟩
  · have acts : exec (.frostArm dt) s = _ := frostCommand_carries (act := armAct) h held args
    refine ⟨_, acts, ?_⟩
    clear acts
    generalize s.admitted dt x = k at held cfg ⊢
    obtain ⟨done, refused, fresh⟩ := armAct_cases c k
    refine ⟨fun heard state => ?_, fun h => ?_, fun heard state => ?_⟩
    · rw [frostAct_known cfg heard, done state]
      rw [carry_frame (by rfl)]
      rfl
    · have act := frostAct_refuses (act := armAct) cfg (fun heard => refused (h.resolve_left (not_not_intro heard)))
        x.source b
      rw [act]
      rw [carry_frame (by rfl)]
      rfl
    · obtain ⟨⟨q, bank, f, shape⟩, drains, arms, counts, dumps⟩ := stateFromContact_spec c heard
      rw [frostAct_known cfg heard, fresh state, carry_frame (by rw [give_node, shape]; rfl)]
      refine ⟨rfl, drains, arms, fun active cold => counts active cold.1 cold.2,
        fun active cold => dumps active cold.1 cold.2, ?_⟩
      rw [give_node, shape]
      rfl
  · have acts : exec (.frostDisarm dt) s = _ := frostCommand_carries (act := disarmAct) h held args
    refine ⟨_, acts, ?_⟩
    clear acts
    generalize s.admitted dt x = k at held cfg ⊢
    obtain ⟨disarms, done, refused⟩ := disarmAct_cases c k
    refine ⟨fun heard state => ?_, fun heard state => ?_, fun h => ?_⟩
    · rw [frostAct_known cfg heard, disarms state]
      rw [carry_frame (by rfl)]
      rfl
    · rw [frostAct_known cfg heard, done state]
      rw [carry_frame (by rfl)]
      rfl
    · have act := frostAct_refuses (act := disarmAct) cfg
        (fun heard => refused (h.resolve_left (not_not_intro heard))) x.source b
      rw [act]
      rw [carry_frame (by rfl)]
      rfl
  · have acts : exec (.frostClose dt) s = _ := frostCommand_carries (act := closeAct) h held args
    refine ⟨_, acts, ?_⟩
    clear acts
    generalize s.admitted dt x = k at held cfg ⊢
    obtain ⟨closes, interlock, refused⟩ := closeAct_cases c k
    refine ⟨fun heard state t used warm => ?_, fun heard state used => ?_, fun h => ?_⟩
    · obtain ⟨q, bank, shape, on, -⟩ := beginMove_shape .closing c.closeCoil k
      rw [frostAct_known cfg heard, closes state t used warm, carry_frame (by rw [give_node, shape]; rfl)]
      refine ⟨rfl, by rw [give_node, shape]; rfl, by rw [give_node, shape]; rfl, on, ?_⟩
      rw [give_node, shape]
      rfl
    · rw [frostAct_known cfg heard, interlock state used]
      rw [carry_frame (by rfl)]
      rfl
    · have act := frostAct_refuses (act := closeAct) cfg
        (fun heard => refused (h.resolve_left (not_not_intro heard))) x.source b
      rw [act]
      rw [carry_frame (by rfl)]
      rfl

end Sys2Proof.Machine
end

section
/-!
# Proofs: the heater's operations (chapter 6)

An operation of the heater writes the heater's record, its outputs, its claim and the mark for the wait service
(`HeatActs`); mode, setpoint and attempts are written by the commands, the entry of RUN and a failed attempt alone. Then
one equation per case for the evaluation of STANDBY, the thermostat, and the end of the cooldown.
-/
namespace Sys2Proof.Machine

/-- The parts of the node that an operation of the heater writes. -/
def Node.putHeat (n : Node) (v : Vector Channel 16) (k : Vector Claim 8) (w : Bool) (h : Heater) : Node :=
  { n with bank := { n.bank with chans := v }, claims := k, ev := { n.ev with wait := w }, heater := h }

/-- What an operation of the heater leaves: everything but those parts, and the settings of its record. -/
structure HeatActs (n m : Node) : Prop where
  frame : ∃ v k w h, m = n.putHeat v k w h
  mode : m.heater.mode = n.heater.mode
  setpoint : m.heater.setpoint = n.heater.setpoint
  attempts : m.heater.attempts = n.heater.attempts

namespace HeatActs

variable {n m : Node} {c : HeaterCfg}

theorem refl (n : Node) : HeatActs n n := ⟨⟨n.bank.chans, n.claims, n.ev.wait, n.heater, rfl⟩, rfl, rfl, rfl⟩

theorem ask {i level} (h : HeatActs n m) : HeatActs n (ask i level m) := by
  obtain ⟨⟨v, k, w, e, rfl⟩, mode, setpoint, attempts⟩ := h
  have asked : ∃ v', Machine.ask i level (n.putHeat v k w e) =
      (n.putHeat v k w e).setBank { (n.putHeat v k w e).bank with chans := v' } := ⟨_, rfl⟩
  obtain ⟨v', asked⟩ := asked
  exact ⟨⟨v', k, w, e, by rw [asked]; rfl⟩, mode, setpoint, attempts⟩

theorem putClaim {i k w} (h : HeatActs n m) : HeatActs n (m.putClaim i k w) := by
  obtain ⟨⟨v, k', w', e, rfl⟩, mode, setpoint, attempts⟩ := h
  exact ⟨⟨v, k'.set i k, w, e, rfl⟩, mode, setpoint, attempts⟩

theorem fileClaim {i k w d} (h : HeatActs n m) : HeatActs n (fileClaim i k w d m) := by
  obtain ⟨c, b, e⟩ := fileClaim_puts i k w d m
  rw [e]
  exact h.putClaim

theorem raiseClaim {i w d} (h : HeatActs n m) : HeatActs n (raiseClaim i w d m) := by
  obtain ⟨c, b, e⟩ := raiseClaim_puts i w d m
  rw [e]
  exact h.putClaim

theorem reduceClaim {i w} (h : HeatActs n m) : HeatActs n (reduceClaim i w m) := by
  obtain ⟨c, b, e⟩ := reduceClaim_puts i w m
  rw [e]
  exact h.putClaim

theorem releaseClaim {i} (h : HeatActs n m) : HeatActs n (releaseClaim i m) := by
  obtain ⟨c, b, e⟩ := releaseClaim_puts i m
  rw [e]
  exact h.putClaim

theorem convertClaim {i w} (h : HeatActs n m) : HeatActs n (convertClaim i w m) := by
  obtain ⟨c, b, e⟩ := convertClaim_puts i w m
  rw [e]
  exact h.putClaim

/-- A write of the heater's record that keeps the settings. -/
theorem setHeater {e : Heater} (h : HeatActs n m) (mode : e.mode = m.heater.mode)
    (setpoint : e.setpoint = m.heater.setpoint) (attempts : e.attempts = m.heater.attempts) :
    HeatActs n (m.setHeater e) := by
  obtain ⟨⟨v, k, w, e', rfl⟩, mode', setpoint', attempts'⟩ := h
  exact ⟨⟨v, k, w, e, rfl⟩, mode.trans mode', setpoint.trans setpoint', attempts.trans attempts'⟩

theorem setReason {r} (h : HeatActs n m) : HeatActs n (setReason r m) := h.setHeater rfl rfl rfl

theorem heaterTo {s} (h : HeatActs n m) : HeatActs n (heaterTo s m) := h.setHeater rfl rfl rfl

theorem fuelOff (h : HeatActs n m) : HeatActs n (fuelOff c m) := h.ask.setHeater rfl rfl rfl

theorem heaterDark (h : HeatActs n m) : HeatActs n (heaterDark c m) := h.fuelOff.ask.ask

theorem stopCold {s} (h : HeatActs n m) : HeatActs n (stopCold c s m) := h.heaterDark.heaterTo.releaseClaim

theorem enterCooldown (h : HeatActs n m) : HeatActs n (enterCooldown c m) :=
  h.fuelOff.ask.ask.convertClaim.setHeater rfl rfl rfl

theorem startCheck (h : HeatActs n m) : HeatActs n (startCheck c m) := by
  unfold Machine.startCheck
  repeat' split
  · exact h
  · exact h.setReason
  · exact h.setReason
  · exact h
  · exact h.setReason
  · exact h.fileClaim

theorem ventCheck (h : HeatActs n m) : HeatActs n (ventCheck c m) := by
  unfold Machine.ventCheck
  split
  · exact h.fileClaim
  · exact h

theorem standbyCheck (h : HeatActs n m) : HeatActs n (standbyCheck c m) := by
  unfold Machine.standbyCheck
  repeat' split
  · exact h.startCheck
  · exact h.startCheck
  · exact h.ventCheck
  · exact h
  · exact h

theorem takeLevel {l} (h : HeatActs n m) : HeatActs n (takeLevel c l m) := h.ask.setHeater rfl rfl rfl

theorem stepDown {l} (h : HeatActs n m) : HeatActs n (stepDown c l m) := h.takeLevel.reduceClaim

theorem stepUp {l} (h : HeatActs n m) : HeatActs n (stepUp c l m) := by
  unfold Machine.stepUp
  split
  · exact h.takeLevel
  · exact h.raiseClaim.setHeater rfl rfl rfl

theorem thermostat (h : HeatActs n m) : HeatActs n (thermostat c m) := by
  have dropped : HeatActs n ((Machine.reduceClaim slotHeater (levelUnits c m.heater.level) m).setHeater
      { (Machine.reduceClaim slotHeater (levelUnits c m.heater.level) m).heater with raise := none }) :=
    h.reduceClaim.setHeater rfl rfl rfl
  unfold Machine.thermostat
  dsimp only
  repeat' split
  · exact h
  · exact dropped.stepDown
  · exact dropped
  · exact h
  · exact h.stepDown
  · exact h.stepUp

theorem satisfiedClock (h : HeatActs n m) : HeatActs n (satisfiedClock c m) := by
  unfold Machine.satisfiedClock
  repeat' split
  all_goals exact h.setHeater rfl rfl rfl

theorem satisfiedSetpoint (h : HeatActs n m) : HeatActs n (satisfiedSetpoint c m) := by
  unfold Machine.satisfiedSetpoint
  split
  · exact h.satisfiedClock
  · exact h

/-- The end of a cooldown without the lockout mark (R126). -/
theorem endCooldown (h : HeatActs n m)
    (open_ : (Machine.releaseClaim slotHeater (Machine.ask c.fan 0 m)).heater.lockout = false) :
    HeatActs n (endCooldown c m) := by
  have off : HeatActs n (Machine.releaseClaim slotHeater (Machine.ask c.fan 0 m)) := h.ask.releaseClaim
  have fresh {o : Node} (h : HeatActs n o) : HeatActs n (o.setHeater { o.heater with restart := false }) :=
    h.setHeater rfl rfl rfl
  unfold Machine.endCooldown
  dsimp only
  rw [if_neg (by simp [open_])]
  split
  · exact fresh off.heaterTo
  · exact (fresh off.heaterTo).standbyCheck
  · exact off.heaterTo.standbyCheck
  · exact off.heaterTo.standbyCheck

theorem modeChange {old} (h : HeatActs n m) : HeatActs n (modeChange c old m) := by
  unfold Machine.modeChange
  dsimp only
  cases m.heater.state <;> dsimp only <;> repeat' split
  · exact h
  · exact h.heaterTo.standbyCheck
  · exact h.releaseClaim.heaterTo
  · exact h.releaseClaim.standbyCheck
  · exact h.standbyCheck
  · exact h.stopCold
  · exact h.stopCold.standbyCheck
  · exact h
  · exact h.stopCold
  · exact h.stopCold.standbyCheck
  · exact h
  · exact h.enterCooldown
  · exact h
  · exact h.enterCooldown
  · exact h
  · exact h.satisfiedSetpoint.thermostat
  · exact h
  · exact h.stopCold
  · exact h
  · exact h.stopCold.standbyCheck
  · exact h

end HeatActs

/-! ## The state after an operation -/

section
variable (c : HeaterCfg) (n : Node)

@[simp] theorem releaseClaim_heater (i : Fin 8) : (releaseClaim i n).heater = n.heater := by
  obtain ⟨k, w, e⟩ := releaseClaim_puts i n
  rw [e]
  rfl

@[simp] theorem reduceClaim_heater (i : Fin 8) (w : Nat) : (reduceClaim i w n).heater = n.heater := by
  obtain ⟨k, w, e⟩ := reduceClaim_puts i w n
  rw [e]
  rfl

@[simp] theorem fileClaim_heater (i : Fin 8) (k w : Nat) (d : Option Nat) : (fileClaim i k w d n).heater = n.heater := by
  obtain ⟨k, w, e⟩ := fileClaim_puts i k w d n
  rw [e]
  rfl

@[simp] theorem raiseClaim_heater (i : Fin 8) (w : Nat) (d : Option Nat) : (raiseClaim i w d n).heater = n.heater := by
  obtain ⟨k, w, e⟩ := raiseClaim_puts i w d n
  rw [e]
  rfl

/-- An evaluation of STANDBY writes nothing but the reason in the heater's record. -/
theorem standbyCheck_heater : ∃ r, (standbyCheck c n).heater = { n.heater with reason := r } := by
  have start : ∃ r, (startCheck c n).heater = { n.heater with reason := r } := by
    unfold startCheck
    repeat' split
    · exact ⟨_, rfl⟩
    · exact ⟨_, rfl⟩
    · exact ⟨_, rfl⟩
    · exact ⟨_, rfl⟩
    · exact ⟨_, rfl⟩
    · exact ⟨_, fileClaim_heater ..⟩
  have vent : ∃ r, (ventCheck c n).heater = { n.heater with reason := r } := by
    unfold ventCheck
    split
    · exact ⟨_, fileClaim_heater ..⟩
    · exact ⟨_, rfl⟩
  unfold standbyCheck
  repeat' split
  · exact start
  · exact start
  · exact vent
  · exact ⟨_, rfl⟩
  · exact ⟨_, rfl⟩

@[simp] theorem standbyCheck_state : (standbyCheck c n).heater.state = n.heater.state := by
  obtain ⟨r, e⟩ := standbyCheck_heater c n
  rw [e]

@[simp] theorem stopCold_state (s : HeaterState) : (stopCold c s n).heater.state = s := by
  simp [stopCold, heaterTo]

@[simp] theorem enterCooldown_state : (enterCooldown c n).heater.state = .cooldown := rfl

@[simp] theorem stepDown_state (l : Nat) : (stepDown c l n).heater.state = n.heater.state := by
  simp [stepDown, takeLevel, setRate]

@[simp] theorem stepUp_state (l : Nat) : (stepUp c l n).heater.state = n.heater.state := by
  unfold stepUp
  split <;> simp [takeLevel, setRate]

@[simp] theorem thermostat_state : (thermostat c n).heater.state = n.heater.state := by
  unfold thermostat
  dsimp only
  repeat' split
  all_goals simp

@[simp] theorem satisfiedSetpoint_state : (satisfiedSetpoint c n).heater.state = n.heater.state := by
  unfold satisfiedSetpoint satisfiedClock
  repeat' split
  all_goals rfl

end

/-! ## HEATER_MODE and HEATER_RESET (R111, R112, R126) -/

/-- What a new mode does in each heater state (R112). -/
def stateAfter : HeaterState → HeaterMode → HeaterState
  | .off, .off => .off
  | .off, _ => .standby
  | .standby, .off => .off
  | .standby, _ => .standby
  | .purge, .off => .off
  | .purge, .vent => .standby
  | .purge, _ => .purge
  | .glow, .off => .off
  | .glow, .vent => .standby
  | .glow, _ => .glow
  | .ignite, .off => .cooldown
  | .ignite, .vent => .cooldown
  | .ignite, _ => .ignite
  | .run, .off => .cooldown
  | .run, .vent => .cooldown
  | .run, _ => .run
  | .cooldown, _ => .cooldown
  | .venting, .off => .off
  | .venting, .vent => .venting
  | .venting, _ => .standby
  | .lockout, _ => .lockout

theorem modeChange_state (c : HeaterCfg) (old : Heater) (n : Node) :
    (modeChange c old n).heater.state = stateAfter n.heater.state n.heater.mode := by
  unfold modeChange
  cases state : n.heater.state <;> cases mode : n.heater.mode
  all_goals simp [state, stateAfter, heaterTo]
  all_goals split <;> simp [state]

/-- A new mode that ends in OFF releases the claim. -/
theorem modeChange_frees {c : HeaterCfg} {old : Heater} {n : Node} (off : (modeChange c old n).heater.state = .off)
    (on : n.heater.state ≠ .off) : ((modeChange c old n).claim slotHeater).state = .idle := by
  rw [modeChange_state] at off
  have mode : n.heater.mode = .off ∧ n.heater.state ∈ [.standby, .purge, .glow, .venting] := by
    revert off on
    cases n.heater.state <;> cases n.heater.mode <;> simp [stateAfter]
  obtain ⟨mode, state⟩ := mode
  simp only [List.mem_cons, List.not_mem_nil, or_false] at state
  unfold modeChange
  rcases state with s | s | s | s <;> simp [s, mode, heaterTo, stopCold]

/-- A mode taken: what it writes, and what it leaves to the new state. -/
theorem takeMode_spec (c : HeaterCfg) (mode : HeaterMode) (t : Int) (k : Node) : let m := takeMode c mode t k
    (∃ v q w h, m = k.putHeat v q w h) ∧ m.heater.mode = mode ∧
    m.heater.setpoint = (if mode = .heat then clampSetpoint t else k.heater.setpoint) ∧
    m.heater.attempts = (if mode = .off then 0 else k.heater.attempts) ∧
    m.heater.state = stateAfter k.heater.state mode ∧
    (m.heater.state = .off → k.heater.state ≠ .off → (m.claim slotHeater).state = .idle) := by
  let h : Heater := { k.heater with
    mode := mode
    setpoint := if mode = .heat then clampSetpoint t else k.heater.setpoint
    attempts := if mode = .off then 0 else k.heater.attempts }
  obtain ⟨⟨v, q, w, h', frame⟩, modeSame, setpoint, attempts⟩ :=
    (HeatActs.refl (k.setHeater h)).modeChange (c := c) (old := k.heater)
  exact ⟨⟨v, q, w, h', frame⟩, modeSame, setpoint, attempts, modeChange_state c k.heater (k.setHeater h),
    modeChange_frees (n := k.setHeater h)⟩

/-- Settles O39: HEATER_MODE by its code and the heater's state, HEATER_RESET by the state and the lockout mark. -/
theorem heaterCommands : Obligations.HeaterCommands := by
  unfold Obligations.HeaterCommands
  constructor
  · rintro s dt x rest b k c m0 lo hi rfl h held cfg args
    dsimp only
    have acts : exec (.heaterMode dt) s = .next (s.ended dt (s.rx.without rest)
        ((s.admitted dt x).carry x b (heaterModeAct x.source b (s.admitted dt x)))) :=
      (rfl : exec (.heaterMode dt) s = commandEvent dt 0x10 (fun _ => true)
        (runCommand (some .heater) (hasLength 3) heaterModeAct) s).trans
        (commandEvent_carries h rfl (hasLength_eq_true (by rw [args]; rfl)) held)
    refine ⟨_, acts, ?_⟩
    clear acts
    generalize s.admitted dt x = k at held cfg ⊢
    have code : argOf b 0 = m0.toNat := by rw [argOf, args]; rfl
    have asked : signedAt b.args 1 = signed 16 (lo.toNat + 256 * hi.toNat) := by rw [args]; rfl
    rw [← asked]
    refine ⟨fun far => ?_, fun mode is => ⟨fun locked => ?_, fun free => ?_⟩⟩
    · have unknown : modeOfCode (argOf b 0) = none := by
        have h0 : ¬ m0.toNat = 0 := by omega
        have h1 : ¬ m0.toNat = 1 := by omega
        have h2 : ¬ m0.toNat = 2 := by omega
        have h3 : ¬ m0.toNat = 3 := by omega
        simp [code, modeOfCode, h0, h1, h2, h3]
      have act : heaterModeAct x.source b k = give .refusedRange k := by simp only [heaterModeAct, cfg, unknown]
      rw [act, carry_frame (by rfl)]
      rfl
    · have act : heaterModeAct x.source b k = give .refusedState k := by
        simp only [heaterModeAct, cfg, code, is, locked, if_true]
      rw [act, carry_frame (by rfl)]
      rfl
    · have act : heaterModeAct x.source b k =
          modeResult k.heater.state mode (signedAt b.args 1) (takeMode c mode (signedAt b.args 1) k) := by
        simp only [heaterModeAct, cfg, code, is, free, if_false]
      obtain ⟨⟨v, q, w, e, frame⟩, modeIs, setpoint, attempts, state, frees⟩ :=
        takeMode_spec c mode (signedAt b.args 1) k
      rw [act]
      generalize takeMode c mode (signedAt b.args 1) k = m at frame modeIs setpoint attempts state frees ⊢
      have node : (modeResult k.heater.state mode (signedAt b.args 1) m).node = m := by
        unfold modeResult
        split_ifs <;> rfl
      rw [carry_frame (by rw [node, frame]; rfl), node]
      refine ⟨by rw [frame]; rfl, modeIs, fun heat => ?_, fun other => ?_, fun off => ?_, ?_, ?_, frees⟩
      · rw [if_pos heat] at setpoint
        exact setpoint
      · rw [if_neg other] at setpoint
        exact setpoint
      · rw [if_pos off] at attempts
        exact attempts
      · unfold modeResult
        dsimp only
        split_ifs <;> rfl
      · rw [state]
        cases k.heater.state <;> cases mode <;> rfl
  · rintro s dt x rest b k rfl h held args
    dsimp only
    have acts : exec (.heaterReset dt) s = .next (s.ended dt (s.rx.without rest)
        ((s.admitted dt x).carry x b (heaterResetAct x.source b (s.admitted dt x)))) :=
      (rfl : exec (.heaterReset dt) s = commandEvent dt 0x11 (fun _ => true)
        (runCommand (some .heater) (hasLength 0) heaterResetAct) s).trans
        (commandEvent_carries h rfl (hasLength_eq_true (by rw [args]; rfl)) held)
    refine ⟨_, acts, ?_⟩
    clear acts
    generalize s.admitted dt x = k at held ⊢
    refine ⟨fun locked => ?_, fun cooling marked => ?_, fun unlocked other => ?_⟩
    · have act : heaterResetAct x.source b k = give .done (k.setHeater
          { k.heater with mode := .off, attempts := 0, flame := none, lockout := false, state := .off }) := by
        simp only [heaterResetAct, locked, resetHeater, if_true]
      rw [act, carry_frame (by rfl)]
      rfl
    · have act : heaterResetAct x.source b k = give .accepted (k.setHeater
          { k.heater with mode := .off, attempts := 0, flame := none, lockout := false }) := by
        simp [heaterResetAct, cooling, marked, resetHeater]
      rw [act, carry_frame (by rfl)]
      rfl
    · have act : heaterResetAct x.source b k = give .refusedState k := by
        unfold heaterResetAct
        split
        · exact absurd ‹_› unlocked
        · rename_i cooling marked
          exact absurd other (by simp [cooling, marked])
        · rfl
      rw [act, carry_frame (by rfl)]
      rfl

end Sys2Proof.Machine
end

section
/-!
# Proofs: the heater's rows (chapter 6)

Entry of COOLDOWN, a failed attempt and the end of the cooldown, each in one statement; the thermostat in one equation per
case; then the rows.
-/
namespace Sys2Proof.Machine

/-! ## COOLDOWN (R126) -/

/-- A conversion leaves the slot with the amount in class 4, whatever it held (R67). -/
theorem convertClaim_claim (i : Fin 8) (k : Nat) (n : Node) :
    ((convertClaim i k n).claim i).cls = 4 ∧ ((convertClaim i k n).claim i).held = k := by
  simp only [convertClaim]
  split
  · rename_i idle
    simp [fileClaim, idle]
  · rw [wantWait_eq_putClaim, claim_putClaim_self]
    exact ⟨rfl, rfl⟩

/-- The record of the heater that enters COOLDOWN. -/
def cooled (h : Heater) (now : Nat) : Heater :=
  { clocksOff { h with rate := 0, pulses := 0, pulseEnd := none } with
    state := .cooldown, level := 0, phaseEnd := some (now + 180000) }

theorem enterCooldown_heater (c : HeaterCfg) (n : Node) : (enterCooldown c n).heater = cooled n.heater n.now := by
  obtain ⟨k, w, -, e⟩ := enterCooldown_shape c n
  rw [e]
  rfl

theorem enterCooldown_claim (c : HeaterCfg) (n : Node) : ((enterCooldown c n).claim slotHeater).cls = 4 ∧
    ((enterCooldown c n).claim slotHeater).held = units c.cooldown :=
  convertClaim_claim slotHeater (units c.cooldown) (ask c.fan 100 (ask c.glow 0 (fuelOff c n)))

theorem enterCooldown_frame (c : HeaterCfg) (n : Node) : ∃ v k w h, enterCooldown c n = n.putHeat v k w h :=
  (HeatActs.refl n).enterCooldown.frame

/-- An evaluation of STANDBY asks nothing of the bank. -/
@[simp] theorem standbyCheck_bank (c : HeaterCfg) (n : Node) : (standbyCheck c n).bank = n.bank := by
  have files (i k w d) (n : Node) : (fileClaim i k w d n).bank = n.bank := by
    obtain ⟨k, w, e⟩ := fileClaim_puts i k w d n
    rw [e]
    rfl
  have start : (startCheck c n).bank = n.bank := by
    unfold startCheck
    repeat' split
    · rfl
    · rfl
    · rfl
    · rfl
    · rfl
    · exact files ..
  have vent : (ventCheck c n).bank = n.bank := by
    unfold ventCheck
    split
    · exact files ..
    · rfl
  unfold standbyCheck
  repeat' split
  · exact start
  · exact start
  · exact vent
  · rfl
  · rfl

/-! ## A failed attempt (R116) -/

/-- The record after a failed attempt, before COOLDOWN: the first sets the restart mark, the second the lockout mark. -/
def attempted (r : StopReason) (h : Heater) : Heater :=
  { h with
    attempts := h.attempts + 1, reason := r
    restart := h.attempts = 0 || h.restart
    lockout := 1 ≤ h.attempts || h.lockout }

theorem failAttempt_eq (c : HeaterCfg) (r : StopReason) (n : Node) :
    failAttempt c r n = enterCooldown c ((bump .ignitions n).setHeater (attempted r n.heater)) := by
  unfold failAttempt
  dsimp only
  by_cases first : n.heater.attempts = 0
  · rw [if_pos (by omega)]
    simp [attempted, first]
    rfl
  · rw [if_neg (by omega)]
    have again : 1 ≤ n.heater.attempts := by omega
    simp [attempted, first, again]
    rfl

theorem counter_bump (k : Counter) (n : Node) : counter k (bump k n) = min (counter k n + 1) 65535 := by
  simp [counter, bump, satSucc, counterTop]

/-- What a failed attempt leaves. -/
theorem failAttempt_spec (c : HeaterCfg) (r : StopReason) (n : Node) : let m := failAttempt c r n
    m.heater = cooled (attempted r n.heater) n.now ∧ (∃ v k w h, m = (bump .ignitions n).putHeat v k w h) ∧
    counter .ignitions m = min (counter .ignitions n + 1) 65535 ∧
    (m.claim slotHeater).cls = 4 ∧ (m.claim slotHeater).held = units c.cooldown ∧
    ∀ i, (m.chan i).commanded =
      if c.fan = i then 100 else if c.glow = i then 0 else if c.fuel = i then 0 else (n.chan i).commanded := by
  dsimp only
  rw [failAttempt_eq]
  obtain ⟨v, k, w, h, e⟩ := enterCooldown_frame c ((bump .ignitions n).setHeater (attempted r n.heater))
  obtain ⟨cls, held⟩ := enterCooldown_claim c ((bump .ignitions n).setHeater (attempted r n.heater))
  refine ⟨enterCooldown_heater .., ⟨v, k, w, h, by rw [e]; rfl⟩, ?_, cls, held, enterCooldown_commanded c _⟩
  rw [← counter_bump, e]
  rfl

/-! ## The phases of a start (R115, R116, R117) -/

theorem keepTemp_phaseEnds (s : HeaterState) (n : Node) : phaseEnds s (keepTemp n) = phaseEnds s n := by simp [phaseEnds]

theorem phaseEnds_of {s : HeaterState} {n : Node} {d : Nat} (state : n.heater.state = s)
    (at_ : n.heater.phaseEnd = some d) (due : d ≤ n.now) : phaseEnds s n = true := by
  simp [phaseEnds, state, at_, Node.reached, due]

theorem onHeater_some {f : HeaterCfg → Node → Node} {n : Node} {c : HeaterCfg} (cfg : n.heaterCfg = some c) :
    onHeater f n = f c n := by simp only [onHeater, cfg]

/-- Entry to GLOW with a sound glow output. -/
theorem enterGlow_sound {c : HeaterCfg} {n : Node} (sound : (n.chan c.glow).protection ≠ .latchedOff) : enterGlow c n =
    (ask c.glow 100 n).setHeater { n.heater with state := .glow, phaseEnd := some (n.now + 40000) } := by
  have held : ¬ (((ask c.glow 100 n).chan c.glow).protection = .latchedOff) := by rwa [protection_ask]
  exact if_neg held

/-- Entry to GLOW with the glow output latched off fails the attempt (R116). -/
theorem enterGlow_latched {c : HeaterCfg} {n : Node} (latched : (n.chan c.glow).protection = .latchedOff) :
    enterGlow c n = failAttempt c .channel ((ask c.glow 100 n).setHeater
      { n.heater with state := .glow, phaseEnd := some (n.now + 40000) }) := by
  have held : ((ask c.glow 100 n).chan c.glow).protection = .latchedOff := by rwa [protection_ask]
  exact if_pos held

/-- What O40 says of a failed attempt, at a node as the attempt found it. -/
theorem failAttempt_fails {c : HeaterCfg} {r : StopReason} {n k : Node}
    (same : ∃ b st d, k = (n.setBank b).setHeater { n.heater with state := st, phaseEnd := d }) :
    let m := failAttempt c r k
    m.heater.state = .cooldown ∧ m.heater.attempts = n.heater.attempts + 1 ∧ m.heater.reason = r ∧
    m.heater.phaseEnd = some (n.now + 180000) ∧ m.heater.level = 0 ∧
    counter .ignitions m = min (counter .ignitions n + 1) 65535 ∧
    (n.heater.attempts = 0 → m.heater.restart = true ∧ m.heater.lockout = n.heater.lockout) ∧
    (1 ≤ n.heater.attempts → m.heater.lockout = true ∧ m.heater.restart = n.heater.restart) ∧
    m = { n with heater := m.heater, claims := m.claims, bank := m.bank, ev := m.ev
                 cmd := { n.cmd with counters := m.cmd.counters } } ∧
    (m.claim slotHeater).cls = 4 ∧ (c.fan ≠ c.glow → c.fan ≠ c.fuel → (m.chan c.fan).commanded = 100 ∧
      (m.chan c.glow).commanded = 0 ∧ (m.chan c.fuel).commanded = 0) := by
  obtain ⟨b, st, d, same⟩ := same
  obtain ⟨heater, ⟨v, q, w, h', frame⟩, count, cls, -, levels⟩ := failAttempt_spec c r k
  dsimp only
  rw [heater]
  have tally : counter .ignitions k = counter .ignitions n := by rw [same]; rfl
  rw [tally] at count
  refine ⟨rfl, by rw [same]; rfl, rfl, by rw [same]; rfl, rfl, count, fun first => ?_, fun again => ?_, ?_, cls,
    fun glow fuel => ?_⟩
  · rw [same]
    simp [cooled, clocksOff, attempted, first]
  · rw [same]
    have later : n.heater.attempts ≠ 0 := by omega
    simp [cooled, clocksOff, attempted, again, later]
  · rw [← heater, frame, same]
    rfl
  · refine ⟨by rw [levels, if_pos rfl], by rw [levels, if_neg glow, if_pos rfl], ?_⟩
    rw [levels, if_neg fuel, if_pos rfl, ite_self]

/-- Settles O40: the ends of the phases and the fuel pulses. -/
theorem heaterStarts : Obligations.HeaterStarts := by
  unfold Obligations.HeaterStarts
  constructor
  · rintro s dt n c d rfl up cfg at_ due
    dsimp only
    refine ⟨fun state => ?_, fun state => ?_, fun state => ?_⟩
    · have acts : exec (.purgeEnd dt) s = .next (s.ended dt s.rx (onHeater enterGlow (s.found dt))) := by
        change execPurgeEnd dt s = _
        unfold execPurgeEnd
        exact nodeEvent_found (keepTemp_phaseEnds _) up (phaseEnds_of state at_ due)
      rw [onHeater_some cfg] at acts
      refine ⟨_, acts, fun sound => ?_, fun latched => ?_⟩
      · rw [enterGlow_sound sound]
        obtain ⟨b, asked⟩ := ask_sets c.glow 100 (s.found dt)
        refine ⟨by rw [asked]; rfl, commanded_ask_self c.glow 100 (s.found dt)⟩
      · rw [enterGlow_latched latched]
        obtain ⟨b, asked⟩ := ask_sets c.glow 100 (s.found dt)
        refine failAttempt_fails ⟨b, .glow, some ((s.found dt).now + 40000), ?_⟩
        rw [asked]
    · have acts : exec (.glowEnd dt) s = .next (s.ended dt s.rx (onHeater enterIgnite (s.found dt))) := by
        change execGlowEnd dt s = _
        unfold execGlowEnd
        exact nodeEvent_found (keepTemp_phaseEnds _) up (phaseEnds_of state at_ due)
      rw [acts, onHeater_some cfg]
      rfl
    · have acts : exec (.ignitionLimit dt) s =
          .next (s.ended dt s.rx (onHeater (fun c n => failAttempt c .noFlame n) (s.found dt))) := by
        change execIgnitionLimit dt s = _
        unfold execIgnitionLimit
        exact nodeEvent_found (keepTemp_phaseEnds _) up (phaseEnds_of state at_ due)
      rw [onHeater_some cfg] at acts
      exact ⟨_, acts, failAttempt_fails ⟨(s.found dt).bank, (s.found dt).heater.state, (s.found dt).heater.phaseEnd, rfl⟩⟩
  · rintro s dt n c rfl up cfg
    refine ⟨fun state rate due => ?_, fun d at_ due => ?_⟩
    · have acts : exec (.fuelPulseStart dt) s = .next (s.ended dt s.rx (onHeater pulseBegin (s.found dt))) := by
        change execFuelPulseStart dt s = _
        unfold execFuelPulseStart
        refine nodeEvent_found (fun n => by simp [pulseDue]) up ?_
        have falls : (s.found dt).heater.rate ≠ 0 := by omega
        simp [pulseDue, state, falls, pulseOffset, due]
      rw [onHeater_some cfg] at acts
      obtain ⟨b, asked⟩ := ask_sets c.fuel 100 (s.found dt)
      refine ⟨_, acts, commanded_ask_self c.fuel 100 (s.found dt), fun ch other => ?_, ?_⟩
      · exact (chan_ask c.fuel ch 100 (s.found dt)).trans (if_neg (Ne.symm other))
      · unfold pulseBegin
        dsimp only
        rw [asked]
        rfl
    · have acts : exec (.fuelPulseEnd dt) s = .next (s.ended dt s.rx (onHeater pulseStop (s.found dt))) := by
        change execFuelPulseEnd dt s = _
        unfold execFuelPulseEnd
        exact nodeEvent_found (fun n => by simp) up (by rw [at_]; exact reached_iff.mpr due)
      rw [onHeater_some cfg] at acts
      obtain ⟨b, asked⟩ := ask_sets c.fuel 0 (s.found dt)
      refine ⟨_, acts, commanded_ask_self c.fuel 0 (s.found dt), fun ch other => ?_, ?_⟩
      · exact (chan_ask c.fuel ch 0 (s.found dt)).trans (if_neg (Ne.symm other))
      · unfold pulseStop
        dsimp only
        rw [asked]
        rfl

end Sys2Proof.Machine
end

section
/-!
# Proofs: the heater's run and its stops (chapter 6)

The thermostat in one equation per case (`thermostat_…`), what a step down and a step up write, and the ends of a run and
of a cooldown.
-/
namespace Sys2Proof.Machine

section
variable {c : HeaterCfg} {n : Node}

/-! ## The thermostat (R118 to R120) -/

theorem thermostat_settled (steady : n.heater.raise = none)
    (h : wantedLevel c n = n.heater.level ∨ holdRunning n = true) : thermostat c n = n := by
  simp [thermostat, steady, h]

theorem thermostat_lowers (steady : n.heater.raise = none) (free : holdRunning n = false)
    (less : wantedLevel c n < n.heater.level) : thermostat c n = stepDown c (wantedLevel c n) n := by
  simp [thermostat, steady, free, less, less.ne]

theorem thermostat_lifts (steady : n.heater.raise = none) (free : holdRunning n = false)
    (more : n.heater.level < wantedLevel c n) : thermostat c n = stepUp c (wantedLevel c n) n := by
  simp [thermostat, steady, free, more.ne', more.not_gt]

theorem thermostat_waits {r : Nat} (raising : n.heater.raise = some r) (more : n.heater.level < wantedLevel c n) :
    thermostat c n = n := by
  simp [thermostat, raising, more]

/-- The node with a pending raise given up: the claim back to the present level's amount (R120). -/
def raiseDropped (c : HeaterCfg) (n : Node) : Node :=
  (reduceClaim slotHeater (levelUnits c n.heater.level) n).setHeater { n.heater with raise := none }

theorem thermostat_drops {r : Nat} (raising : n.heater.raise = some r) (less : wantedLevel c n ≤ n.heater.level) :
    thermostat c n = if wantedLevel c n < n.heater.level ∧ holdRunning n = false
      then stepDown c (wantedLevel c n) (raiseDropped c n) else raiseDropped c n := by
  have dropped : (reduceClaim slotHeater (levelUnits c n.heater.level) n).setHeater
      { (reduceClaim slotHeater (levelUnits c n.heater.level) n).heater with raise := none } = raiseDropped c n := by
    rw [reduceClaim_heater]
    rfl
  have hold : holdRunning (raiseDropped c n) = holdRunning n := by
    obtain ⟨k, w, e⟩ := reduceClaim_puts slotHeater (levelUnits c n.heater.level) n
    unfold raiseDropped
    rw [e]
    rfl
  simp only [thermostat, raising, if_neg less.not_gt, dropped, hold, Bool.not_eq_true']

/-! ## The steps (R119, R120) -/

@[simp] theorem reduceClaim_chan (i : Fin 8) (w : Nat) (j : Fin 16) : (reduceClaim i w n).chan j = n.chan j := by
  obtain ⟨k, w, e⟩ := reduceClaim_puts i w n
  rw [e]
  rfl

theorem reduceClaim_bank (i : Fin 8) (w : Nat) : (reduceClaim i w n).bank = n.bank := by
  obtain ⟨k, w, e⟩ := reduceClaim_puts i w n
  rw [e]
  rfl

theorem raiseClaim_bank (i : Fin 8) (w : Nat) (d : Option Nat) : (raiseClaim i w d n).bank = n.bank := by
  obtain ⟨k, w, e⟩ := raiseClaim_puts i w d n
  rw [e]
  rfl

/-- The record of the heater that takes a level (R117, R118). -/
def levelled (level : Nat) (h : Heater) (now : Nat) : Heater :=
  { setRate (levelRate level) h now with level := level, holdEnd := some (now + 60000) }

theorem takeLevel_eq (l : Nat) : takeLevel c l n = (ask c.fan (levelDuty c l) n).setHeater (levelled l n.heater n.now) :=
  rfl

theorem stepDown_heater (l : Nat) : (stepDown c l n).heater = levelled l n.heater n.now := by
  unfold stepDown
  rw [reduceClaim_heater]
  rfl

theorem stepDown_fan (l : Nat) : ((stepDown c l n).chan c.fan).commanded = levelDuty c l := by
  unfold stepDown
  rw [reduceClaim_chan]
  exact commanded_ask_self c.fan (levelDuty c l) n

/-- A reduce of a held claim to an amount it holds. -/
theorem reduceClaim_held {i : Fin 8} {r : Nat} (state : (n.claim i).state = .holding) (pos : 0 < r)
    (less : r < (n.claim i).wanted) (holds : r ≤ (n.claim i).held) : ((reduceClaim i r n).claim i).held = r := by
  simp only [reduceClaim, state]
  rw [if_neg (by simpa using less), if_neg pos.ne', if_pos holds, wantWait_eq_putClaim, claim_putClaim_self]

theorem stepDown_held {l : Nat} (state : (n.claim slotHeater).state = .holding) (pos : 0 < levelUnits c l)
    (less : levelUnits c l < (n.claim slotHeater).wanted) (holds : levelUnits c l ≤ (n.claim slotHeater).held) :
    ((stepDown c l n).claim slotHeater).held = levelUnits c l :=
  reduceClaim_held (n := takeLevel c l n) state pos less holds

theorem stepUp_raises {l : Nat} (lacks : (n.claim slotHeater).held < levelUnits c l) : stepUp c l n =
    (raiseClaim slotHeater (levelUnits c l) (some 30000) n).setHeater
      { n.heater with raise := some l, holdEnd := some (n.now + 60000) } := by
  unfold stepUp
  rw [if_neg (not_le.mpr lacks)]
  obtain ⟨k, w, e⟩ := raiseClaim_puts slotHeater (levelUnits c l) (some heaterRaiseWait) n
  have e' : raiseClaim slotHeater (levelUnits c l) (some 30000) n = n.putClaim slotHeater k w := e
  dsimp only
  rw [e, e']
  rfl

/-- A raise of a held claim below class 4 waits (R64). -/
theorem raiseClaim_waits {i : Fin 8} {w t : Nat} (state : (n.claim i).state = .holding) (cls : (n.claim i).cls = 3)
    (more : (n.claim i).wanted < w) : (raiseClaim i w (some t) n).claim i =
      { n.claim i with state := .waiting, wanted := w, stamp := n.now, deadline := some (n.now + t) } := by
  have notFour : ¬ (n.claim i).cls = 4 := by omega
  simp only [raiseClaim, state]
  rw [if_neg (by omega), if_neg notFour, wantWait_eq_putClaim, claim_putClaim_self]
  rfl

end

/-- Settles O41: at the end of the hold the thermostat evaluates with no hold running. -/
theorem levelHoldEnds : Obligations.LevelHoldEnds := by
  unfold Obligations.LevelHoldEnds
  rintro s dt n c d rfl up cfg state at_ due steady
  dsimp only
  have acts : exec (.levelHoldExpiry dt) s = .next (s.ended dt s.rx (onHeater holdOver (s.found dt))) := by
    change execLevelHoldExpiry dt s = _
    unfold execLevelHoldExpiry
    refine nodeEvent_found (fun n => by simp) up ?_
    simp [state, at_, Node.reached, due]
  rw [onHeater_some cfg] at acts
  generalize found : s.found dt = n at up cfg state at_ due steady ⊢
  rw [found] at acts
  let k := n.setHeater { n.heater with holdEnd := none }
  have want : wantedLevel c k = wantedLevel c n := rfl
  have free : holdRunning k = false := rfl
  have frame := ((HeatActs.refl k).thermostat (c := c)).frame
  refine ⟨fun none_valid => ?_, fun t reads => ?_, holdOver c n, acts, ?_, fun level => ?_, fun less => ?_,
    fun more lacks => ?_⟩
  · simp only [wantedLevel, none_valid]
  · simp only [wantedLevel, reads, errorLevel]
  · obtain ⟨v, q, w, h, e⟩ := frame
    have shape : holdOver c n = k.putHeat v q w h := e
    rw [shape]
    rfl
  · exact thermostat_settled steady (.inl level)
  · have lowers : holdOver c n = stepDown c (wantedLevel c n) k := thermostat_lowers (n := k) steady free less
    rw [lowers, stepDown_heater]
    exact ⟨rfl, rfl, rfl, stepDown_fan _, stepDown_held (n := k)⟩
  · have lifts : holdOver c n = stepUp c (wantedLevel c n) k := thermostat_lifts (n := k) steady free more
    rw [lifts, stepUp_raises (n := k) lacks]
    refine ⟨rfl, rfl, rfl, raiseClaim_bank .., fun holding cls less => ?_⟩
    have waits := raiseClaim_waits (n := k) (t := 30000) holding cls less
    rw [Node.setHeater_claim, waits]
    exact ⟨rfl, rfl, rfl, rfl⟩

/-! ## The stops of a run (R121, R123) -/

/-- What O42 says of an entry of COOLDOWN, from a node whose record alone, and its flags, were written before. -/
theorem enterCooldown_cools {c : HeaterCfg} {r : StopReason} {n k : Node}
    (same : ∃ f h, k = (n.setFlags f).setHeater h ∧ h.mode = n.heater.mode ∧ h.attempts = n.heater.attempts ∧ h.reason = r) :
    let m := enterCooldown c k
    m.heater.state = .cooldown ∧ m.heater.reason = r ∧ m.heater.level = 0 ∧ m.heater.holdEnd = none ∧
    m.heater.raise = none ∧ m.heater.satisfied = none ∧ m.heater.loss = none ∧ m.heater.rate = 0 ∧
    m.heater.phaseEnd = some (n.now + 180000) ∧ (m.claim slotHeater).cls = 4 ∧
    (m.claim slotHeater).held = units c.cooldown ∧ m.heater.attempts = n.heater.attempts ∧ m.heater.mode = n.heater.mode ∧
    m = { n with heater := m.heater, claims := m.claims, bank := m.bank, ev := m.ev
                 cmd := { n.cmd with flags := m.cmd.flags } } := by
  obtain ⟨f, h, same, mode, attempts, reason⟩ := same
  obtain ⟨cls, held⟩ := enterCooldown_claim c k
  obtain ⟨v, q, w, h', frame⟩ := enterCooldown_frame c k
  have heater := enterCooldown_heater c k
  dsimp only
  have shape : enterCooldown c k = ((n.setFlags f).setHeater h).putHeat v q w h' := by rw [frame, same]
  have record : (enterCooldown c k).heater = cooled h n.now := by rw [heater, same]; rfl
  have whole : enterCooldown c k = { n with
      heater := (enterCooldown c k).heater, claims := (enterCooldown c k).claims, bank := (enterCooldown c k).bank
      ev := (enterCooldown c k).ev, cmd := { n.cmd with flags := (enterCooldown c k).cmd.flags } } := by
    rw [shape]
    rfl
  rw [record] at whole ⊢
  exact ⟨rfl, reason, rfl, rfl, rfl, rfl, rfl, rfl, rfl, cls, held, attempts, mode, whole⟩

/-- The flame was lost before within the window (R123). -/
def lostAgain (n : Node) : Bool :=
  match n.heater.flame with
  | some t => decide (n.now ≤ t + lossWindow)
  | none => false

/-- The record of a flame loss before COOLDOWN (R123). -/
def flameGone (n : Node) : Heater :=
  { n.heater with
    lockout := n.heater.lockout || lostAgain n, restart := n.heater.restart || !lostAgain n
    reason := .flameLost, flame := some n.now }

theorem flameLost_again {c : HeaterCfg} {n : Node} (again : lostAgain n = true) :
    flameLost c n = enterCooldown c ((setFlag .flameLost n).setHeater (flameGone n)) := by
  have e : flameLost c n = enterCooldown c ((if lostAgain n then setFlag .flameLost n else n).setHeater
      { (if lostAgain n then setFlag .flameLost n else n).heater with
        lockout := (if lostAgain n then setFlag .flameLost n else n).heater.lockout || lostAgain n
        restart := (if lostAgain n then setFlag .flameLost n else n).heater.restart || !lostAgain n
        reason := .flameLost, flame := some (if lostAgain n then setFlag .flameLost n else n).now }) := rfl
  rw [e, if_pos again]
  rfl

theorem flameLost_once {c : HeaterCfg} {n : Node} (once : lostAgain n = false) :
    flameLost c n = enterCooldown c (n.setHeater (flameGone n)) := by
  have e : flameLost c n = enterCooldown c ((if lostAgain n then setFlag .flameLost n else n).setHeater
      { (if lostAgain n then setFlag .flameLost n else n).heater with
        lockout := (if lostAgain n then setFlag .flameLost n else n).heater.lockout || lostAgain n
        restart := (if lostAgain n then setFlag .flameLost n else n).heater.restart || !lostAgain n
        reason := .flameLost, flame := some (if lostAgain n then setFlag .flameLost n else n).now }) := rfl
  rw [e, if_neg (by simp [once])]
  rfl

theorem hasFlag_enterCooldown (f : Flag) (c : HeaterCfg) (n : Node) : hasFlag f (enterCooldown c n) = hasFlag f n := by
  obtain ⟨v, q, w, h, e⟩ := enterCooldown_frame c n
  rw [e]
  rfl

/-! ## The end of a cooldown (R126) -/

/-- The node at the end of a cooldown, before its tests: the fan off and the claim released. -/
def cooldownOver (c : HeaterCfg) (n : Node) : Node := releaseClaim slotHeater (ask c.fan 0 n)

theorem cooldownOver_shape (c : HeaterCfg) (n : Node) : ∃ v k w, cooldownOver c n = n.putHeat v k w n.heater ∧
    ((cooldownOver c n).chan c.fan).commanded = 0 := by
  obtain ⟨⟨v, k, w, h, e⟩, -⟩ := (HeatActs.refl n).ask (i := c.fan) (level := 0) |>.releaseClaim (i := slotHeater)
  have heater : (cooldownOver c n).heater = n.heater := by
    unfold cooldownOver
    rw [releaseClaim_heater]
    rfl
  have same : (cooldownOver c n).heater = h := by
    unfold cooldownOver
    rw [e]
    rfl
  refine ⟨v, k, w, ?_, ?_⟩
  · unfold cooldownOver
    rw [e, ← same, heater]
  · obtain ⟨k', w', e'⟩ := releaseClaim_puts slotHeater (ask c.fan 0 n)
    unfold cooldownOver
    rw [e']
    exact commanded_ask_self c.fan 0 n

theorem enterLockout_eq (n : Node) : enterLockout n = (n.setHeater { clocksOff n.heater with
    state := .lockout, level := 0, lockout := false, restart := false }).setFlags
      (n.cmd.flags ||| flagMask .heaterLockout) := rfl

theorem endCooldown_locks {c : HeaterCfg} {n : Node} (marked : n.heater.lockout = true) :
    endCooldown c n = enterLockout (cooldownOver c n) := by
  obtain ⟨v, k, w, e, -⟩ := cooldownOver_shape c n
  have mark : (cooldownOver c n).heater.lockout = true := by rw [e]; exact marked
  exact if_pos mark

theorem endCooldown_off {c : HeaterCfg} {n : Node} (clear : n.heater.lockout = false) (mode : n.heater.mode = .off) :
    endCooldown c n = (heaterTo .off (cooldownOver c n)).setHeater
      { (heaterTo .off (cooldownOver c n)).heater with restart := false } := by
  obtain ⟨v, k, w, e, -⟩ := cooldownOver_shape c n
  have mark : (cooldownOver c n).heater.lockout = false := by rw [e]; exact clear
  have mode' : (cooldownOver c n).heater.mode = .off := by rw [e]; exact mode
  unfold cooldownOver at mark mode' ⊢
  simp only [endCooldown, mark, mode', Bool.false_eq_true, if_false]

/-- The end of a cooldown of a heater that is not OFF evaluates STANDBY. -/
theorem endCooldown_stands {c : HeaterCfg} {n : Node} (clear : n.heater.lockout = false) (mode : n.heater.mode ≠ .off) :
    ∃ r, endCooldown c n = standbyCheck c ((cooldownOver c n).setHeater
      { clocksOff n.heater with state := .standby, level := 0, restart := r }) := by
  obtain ⟨v, k, w, e, -⟩ := cooldownOver_shape c n
  have mark : (cooldownOver c n).heater.lockout = false := by rw [e]; exact clear
  have heater : (cooldownOver c n).heater = n.heater := by rw [e]; rfl
  have unfolds : endCooldown c n = match (cooldownOver c n).heater.mode with
      | .off => (heaterTo .off (cooldownOver c n)).setHeater
          { (heaterTo .off (cooldownOver c n)).heater with restart := false }
      | .vent => standbyCheck c ((heaterTo .standby (cooldownOver c n)).setHeater
          { (heaterTo .standby (cooldownOver c n)).heater with restart := false })
      | .heat | .frost => standbyCheck c (heaterTo .standby (cooldownOver c n)) :=
    if_neg fun marked => Bool.false_ne_true (mark.symm.trans marked)
  have enters : heaterTo .standby (cooldownOver c n) = (cooldownOver c n).setHeater
      { clocksOff n.heater with state := .standby, level := 0 } := by
    unfold heaterTo
    rw [heater]
  rw [unfolds, heater, enters]
  cases state : n.heater.mode
  · exact absurd state mode
  · exact ⟨n.heater.restart, rfl⟩
  · exact ⟨n.heater.restart, rfl⟩
  · exact ⟨false, rfl⟩

/-- What the end of a cooldown leaves (R126). -/
theorem endCooldown_spec (c : HeaterCfg) (n : Node) : let m := endCooldown c n
    m = { n with heater := m.heater, claims := m.claims, bank := m.bank, ev := m.ev
                 cmd := { n.cmd with flags := m.cmd.flags } } ∧
    (m.chan c.fan).commanded = 0 ∧ m.heater.level = 0 ∧ m.heater.mode = n.heater.mode ∧
    (n.heater.lockout = true → m.heater.state = .lockout ∧ m.heater.lockout = false ∧ m.heater.restart = false ∧
      hasFlag .heaterLockout m = true ∧ (m.claim slotHeater).state = .idle) ∧
    (n.heater.lockout = false → n.heater.mode = .off → m.heater.state = .off ∧ m.heater.restart = false ∧
      (m.claim slotHeater).state = .idle) ∧
    (n.heater.lockout = false → n.heater.mode ≠ .off → m.heater.state = .standby ∧ m.cmd = n.cmd) := by
  obtain ⟨v, k, w, e, fan⟩ := cooldownOver_shape c n
  have free : ((cooldownOver c n).claim slotHeater).state = .idle := releaseClaim_idle ..
  dsimp only
  cases marked : n.heater.lockout
  · by_cases mode : n.heater.mode = .off
    · rw [endCooldown_off marked mode]
      refine ⟨by rw [e]; rfl, fan, rfl, by rw [e]; rfl, nofun, fun _ _ => ⟨rfl, rfl, free⟩, fun _ h => absurd mode h⟩
    · obtain ⟨r, stands⟩ := endCooldown_stands (c := c) marked mode
      rw [stands, e]
      rw [e] at fan
      generalize start : (n.putHeat v k w n.heater).setHeater
        { clocksOff n.heater with state := .standby, level := 0, restart := r } = o
      obtain ⟨⟨v', k', w', h', frame⟩, mode', -⟩ := (HeatActs.refl o).standbyCheck (c := c)
      obtain ⟨reason, heater⟩ := standbyCheck_heater c o
      have bank := standbyCheck_bank c o
      have chan : (standbyCheck c o).chan c.fan = o.chan c.fan := congrArg (·.chans[c.fan]) bank
      refine ⟨by rw [frame, ← start]; rfl, by rw [chan, ← start]; exact fan, by rw [heater, ← start]; rfl,
        by rw [mode', ← start]; rfl, nofun, fun _ off => absurd off mode, fun _ _ => ⟨?_, by rw [frame, ← start]; rfl⟩⟩
      rw [standbyCheck_state, ← start]
      rfl
  · rw [endCooldown_locks marked, enterLockout_eq]
    rw [e] at fan free ⊢
    refine ⟨rfl, fan, rfl, rfl, fun _ => ⟨rfl, rfl, rfl, ?_, free⟩, nofun, nofun⟩
    exact hasFlag_setFlag (f := .heaterLockout) (g := .heaterLockout) (n := n) (.inl rfl)

/-- Settles O42: the two stops enter COOLDOWN with their reasons and marks, and its limit ends it. -/
theorem heaterStops : Obligations.HeaterStops := by
  unfold Obligations.HeaterStops
  constructor
  · rintro s dt n c p rfl up cfg state
    dsimp only
    refine ⟨fun at_ due filed => ?_, fun at_ due filed => ?_⟩
    · have acts : exec (.satisfiedExpiry dt) s = .next (s.ended dt s.rx
          (onHeater (fun c n => enterCooldown c (setReason .satisfied n)) (s.found dt))) := by
        change execSatisfiedExpiry dt s = _
        unfold execSatisfiedExpiry
        refine nodeEvent_found (fun n => by simp) up ?_
        simp [state, at_, Node.reached, later, satisfiedTime, due]
      rw [onHeater_some cfg] at acts
      refine ⟨_, acts, enterCooldown_cools ⟨(s.found dt).cmd.flags, _, rfl, rfl, rfl, rfl⟩, ?_⟩
      rw [enterCooldown_heater]
      exact ⟨rfl, rfl, rfl⟩
    · have acts : exec (.flameLossExpiry dt) s = .next (s.ended dt s.rx (onHeater flameLost (s.found dt))) := by
        change execFlameLossExpiry dt s = _
        unfold execFlameLossExpiry
        refine nodeEvent_found (fun n => by simp) up ?_
        simp [state, at_, Node.reached, later, lossTime, due]
      rw [onHeater_some cfg] at acts
      generalize s.found dt = n at filed acts ⊢
      refine ⟨_, acts, ?_⟩
      cases again : lostAgain n
      · rw [flameLost_once again]
        refine ⟨enterCooldown_cools ⟨n.cmd.flags, _, rfl, rfl, rfl, rfl⟩, by rw [enterCooldown_heater]; rfl,
          fun f lost within => ?_, fun _ => ?_⟩
        · have window : lostAgain n = true := by simp [lostAgain, lost, lossWindow, within]
          rw [again] at window
          nomatch window
        · rw [enterCooldown_heater]
          simp [cooled, clocksOff, flameGone, again]
      · rw [flameLost_again again]
        refine ⟨enterCooldown_cools ⟨n.cmd.flags ||| flagMask .flameLost, _, rfl, rfl, rfl, rfl⟩,
          by rw [enterCooldown_heater]; rfl, fun f lost within => ⟨?_, ?_⟩, fun past => ?_⟩
        · rw [enterCooldown_heater]
          simp [cooled, clocksOff, flameGone, again]
        · rw [hasFlag_enterCooldown]
          exact hasFlag_setFlag (f := .flameLost) (g := .flameLost) (n := n) (.inl rfl)
        · simp only [lostAgain, lossWindow] at again
          split at again
          · rename_i f lost
            exact absurd (past f lost) (not_lt.mpr (of_decide_eq_true again))
          · nomatch again
  · rintro s dt n c d rfl up cfg state at_ due
    have acts : exec (.cooldownLimit dt) s = .next (s.ended dt s.rx (onHeater endCooldown (s.found dt))) := by
      change execCooldownLimit dt s = _
      unfold execCooldownLimit
      exact nodeEvent_found (keepTemp_phaseEnds _) up (phaseEnds_of state at_ due)
    rw [onHeater_some cfg] at acts
    exact ⟨_, acts, endCooldown_spec c _⟩

end Sys2Proof.Machine
end

section
/-!
# Proofs: the parts of a move (chapter 7)

What an operation of a motion unit writes stands together in one record (`MovePart`): the request list, the unit's record
and bridge, its claim, and the mark for the wait service. Each operation is one equation on that record, and the request
list is read with its entry of the unit between entries of the other unit.
-/
namespace Sys2Proof.Machine

/-! ## The part of a node that a unit's operations write -/

/-- What the operations of one motion unit write. -/
structure MovePart where
  list : List Entry
  unit : MoveUnit
  bridge : Bridge
  claim : Claim
  wait : Bool

/-- The part as it stands. -/
def Node.movePart (n : Node) (u : MotionUnit) : MovePart :=
  ⟨n.motion.list, n.unit u, n.bridge u, n.claim (slotUnit u), n.ev.wait⟩

/-- The node with the part of a unit written. -/
def Node.putMove (n : Node) (u : MotionUnit) (p : MovePart) : Node :=
  ((n.putUnit u p.unit p.bridge).setList p.list).putClaim (slotUnit u) p.claim p.wait

section
variable (n : Node) (u : MotionUnit) (p q : MovePart)

theorem putMove_self : n.putMove u (n.movePart u) = n := by
  have part : n.putMove u (n.movePart u) = n.putClaim (slotUnit u) (n.claim (slotUnit u)) n.ev.wait := by
    cases u <;> rfl
  rw [part, putClaim_self]

@[simp] theorem movePart_unit : (n.movePart u).unit = n.unit u := rfl

@[simp] theorem movePart_list : (n.movePart u).list = n.motion.list := rfl

@[simp] theorem movePart_bridge : (n.movePart u).bridge = n.bridge u := rfl

@[simp] theorem movePart_claim : (n.movePart u).claim = n.claim (slotUnit u) := rfl

@[simp] theorem movePart_wait : (n.movePart u).wait = n.ev.wait := rfl

@[simp] theorem unit_putMove : (n.putMove u p).unit u = p.unit := by cases u <;> rfl

@[simp] theorem bridge_putMove : (n.putMove u p).bridge u = p.bridge := by cases u <;> rfl

@[simp] theorem list_putMove : (n.putMove u p).motion.list = p.list := by cases u <;> rfl

@[simp] theorem wait_putMove : (n.putMove u p).ev.wait = p.wait := by cases u <;> rfl

@[simp] theorem claim_putMove : (n.putMove u p).claim (slotUnit u) = p.claim := by
  unfold Node.putMove
  rw [claim_putClaim_self]

@[simp] theorem now_putMove : (n.putMove u p).now = n.now := by cases u <;> rfl

@[simp] theorem view_putMove : (n.putMove u p).view = n.view := by cases u <;> rfl

@[simp] theorem isActive_putMove : (n.putMove u p).isActive = n.isActive := by cases u <;> rfl

@[simp] theorem unitCfg_putMove (v : MotionUnit) : (n.putMove u p).unitCfg v = n.unitCfg v := by
  cases u <;> cases v <;> rfl

@[simp] theorem extStop_putMove (c : UnitCfg) : extStop c (n.putMove u p) = extStop c n := by cases u <;> rfl

@[simp] theorem retStop_putMove (c : UnitCfg) : retStop c (n.putMove u p) = retStop c n := by cases u <;> rfl

@[simp] theorem stopsKnown_putMove (c : UnitCfg) : stopsKnown c (n.putMove u p) = stopsKnown c n := by cases u <;> rfl

@[simp] theorem putMove_setUnit (m : MoveUnit) : (n.putMove u p).setUnit u m = n.putMove u { p with unit := m } := by
  cases u <;> rfl

@[simp] theorem putMove_setBridge (b : Bridge) : (n.putMove u p).setBridge u b = n.putMove u { p with bridge := b } := by
  cases u <;> rfl

@[simp] theorem putMove_setList (l : List Entry) : (n.putMove u p).setList l = n.putMove u { p with list := l } := by
  cases u <;> rfl

@[simp] theorem putMove_putUnit (m : MoveUnit) (b : Bridge) :
    (n.putMove u p).putUnit u m b = n.putMove u { p with unit := m, bridge := b } := by cases u <;> rfl

@[simp] theorem putMove_putClaim (k : Claim) (w : Bool) :
    (n.putMove u p).putClaim (slotUnit u) k w = n.putMove u { p with claim := k, wait := w } := by
  cases u <;> simp [Node.putMove, Node.putClaim, slotUnit, Node.putUnit, Node.setUnit, Node.setBridge, Node.setList]

@[simp] theorem putMove_setClaim (k : Claim) :
    (n.putMove u p).setClaim (slotUnit u) k = n.putMove u { p with claim := k } := by
  rw [setClaim_eq_putClaim, putMove_putClaim, wait_putMove]

@[simp] theorem putMove_wantWait : (n.putMove u p).wantWait = n.putMove u { p with wait := true } := by
  cases u <;> rfl

/-- A move writes motion, claims, bank and the mark for the wait service alone. -/
theorem putMove_frame : let m := n.putMove u p
    m = { n with motion := m.motion, claims := m.claims, bank := m.bank, ev := m.ev } := by cases u <;> rfl

theorem putMove_reply : (n.putMove u p).ev.reply = n.ev.reply := by cases u <;> rfl

theorem putMove_bank (h : p.bridge = n.bridge u) : (n.putMove u p).bank = n.bank := by
  cases u <;> simp only [Node.bridge] at h <;>
    simp [Node.putMove, Node.putUnit, Node.setUnit, Node.setBridge, Node.setList, Node.putClaim, h]

theorem putMove_claims (h : p.claim = n.claim (slotUnit u)) : (n.putMove u p).claims = n.claims := by
  have part : (n.putMove u p).claims = (n.putClaim (slotUnit u) (n.claim (slotUnit u)) n.ev.wait).claims := by
    rw [← h]
    cases u <;> rfl
  rw [part, putClaim_self]

theorem putMove_ev : (n.putMove u p).ev = { n.ev with wait := p.wait } := by cases u <;> rfl

/-- A move that leaves the claim and owes no pass writes motion and bank alone. -/
theorem putMove_unclaimed (h : p.claim = n.claim (slotUnit u)) (w : p.wait = n.ev.wait) : let m := n.putMove u p
    m = { n with motion := m.motion, bank := m.bank } := by
  have frame := putMove_frame n u p
  dsimp only at frame
  rw [putMove_claims n u p h, putMove_ev, w] at frame
  exact frame

end

/-! ## The bridge (section 9.5) -/

/-- A bridge asked for COAST (R179). -/
def coasting (now : Nat) (b : Bridge) : Bridge :=
  match b.state with
  | .fault => b
  | .coast => { b with pending := none }
  | _ => { b with state := .coast, coastSince := some now, pending := none, due := none }

theorem bridgeCoast_eq (u : MotionUnit) (n : Node) : bridgeCoast u n = n.setBridge u (coasting n.now (n.bridge u)) := by
  have self : n = n.setBridge u (n.bridge u) := by cases u <;> rfl
  unfold bridgeCoast coasting
  cases state : (n.bridge u).state <;> simp only [state]
  · exact self

theorem coasting_state {now : Nat} {b : Bridge} (sound : b.state ≠ .fault) : (coasting now b).state = .coast := by
  unfold coasting
  split
  · exact absurd ‹_› sound
  · assumption
  · rfl

theorem coasting_fault {now : Nat} {b : Bridge} (h : b.state = .fault) : coasting now b = b := by simp only [coasting, h]

/-- A bridge that drives is braked to COAST at this moment. -/
theorem coasting_driving {now : Nat} {b : Bridge} {d : Dir} (h : b.state = driveState d) :
    (coasting now b).state = .coast ∧ (coasting now b).coastSince = some now := by
  cases d <;> simp only [driveState] at h <;> simp [coasting, h]

/-- A bridge asked for BRAKE (R179, R180). -/
def braking (b : Bridge) : Bridge :=
  if b.state = .fault then b else { b with state := .brake, coastSince := none, pending := none, due := none }

theorem bridgeBrake_eq (u : MotionUnit) (n : Node) : bridgeBrake u n = n.setBridge u (braking (n.bridge u)) := by
  have self : n = n.setBridge u (n.bridge u) := by cases u <;> rfl
  unfold bridgeBrake braking
  dsimp only
  split
  · exact self
  · rfl

theorem braking_state {b : Bridge} (sound : b.state ≠ .fault) : (braking b).state = .brake := by
  unfold braking
  rw [if_neg sound]

/-! ## Drives (R141, R142) -/

/-- A unit that drives from this moment. -/
def driveUnit (d : Dir) (now : Nat) (m : MoveUnit) : MoveUnit :=
  { m with
    state := if d = .extend then .extending else .retracting
    cause := .none, dir := d, segStart := now, segPos := m.pos, run := some now, jam := none, dwellEnd := none }

theorem beginDrive_putMove (u : MotionUnit) (d : Dir) (n : Node) (p : MovePart) : ∃ b,
    beginDrive u d (n.putMove u p) = n.putMove u { p with unit := driveUnit d n.now p.unit, bridge := b } ∧
    (p.bridge.state ≠ .fault → b.state ≠ .fault) ∧
    (p.bridge.state ≠ .fault → dwellComplete n.now p.bridge d = true → b = driving n.now p.bridge d) := by
  have drives : ∃ b, bridgeDrive u d (n.putMove u p) = n.putMove u { p with bridge := b } ∧
      (p.bridge.state ≠ .fault → b.state ≠ .fault) ∧
      (p.bridge.state ≠ .fault → dwellComplete n.now p.bridge d = true → b = driving n.now p.bridge d) := by
    unfold bridgeDrive
    simp only [bridge_putMove, now_putMove, putMove_setBridge]
    split_ifs with fault dwell coast
    · exact ⟨p.bridge, rfl, id, fun sound => absurd fault sound⟩
    · exact ⟨_, rfl, fun _ => by cases d <;> simp [driving, driveState], fun _ _ => rfl⟩
    · exact ⟨_, rfl, id, fun _ done => absurd done dwell⟩
    · exact ⟨_, rfl, fun _ => by simp, fun _ done => absurd done dwell⟩
  obtain ⟨b, e, facts⟩ := drives
  refine ⟨b, ?_, facts⟩
  unfold beginDrive
  simp only [e, unit_putMove, now_putMove, putMove_setUnit]
  rfl

/-- A unit that waits for the dwell of its bridge. -/
def dwellUnit (d : Dir) (over_ : Nat) (m : MoveUnit) : MoveUnit :=
  { m with state := .reversing, cause := .none, dir := d, run := none, jam := none, dwellEnd := some over_ }

theorem beginDwell_putMove (u : MotionUnit) (d : Dir) (n : Node) (p : MovePart) :
    beginDwell u d (n.putMove u p) = n.putMove u { p with
      unit := dwellUnit d ((coasting n.now p.bridge).coastSince.getD n.now + 500) p.unit
      bridge := coasting n.now p.bridge } := by
  unfold beginDwell
  simp only [bridgeCoast_eq, bridge_putMove, now_putMove, putMove_setBridge, unit_putMove, putMove_setUnit]
  rfl

/-- A unit begins to move (R141): driven, or waiting for the dwell, in the direction asked for. -/
theorem startMove_putMove (u : MotionUnit) (d : Dir) (n : Node) (p : MovePart) : ∃ m b,
    startMove u d (n.putMove u p) = n.putMove u { p with unit := m, bridge := b } ∧ m.dir = d ∧ isMoving m = true ∧
    m.outcome = p.unit.outcome ∧ m.tag = p.unit.tag ∧ b.state ≠ .fault := by
  have clears : ∃ b, bridgeClear u (n.putMove u p) = n.putMove u { p with bridge := b } ∧ b.state ≠ .fault := by
    unfold bridgeClear
    simp only [bridge_putMove, putMove_setBridge]
    split_ifs with fault
    · exact ⟨_, rfl, by simp⟩
    · exact ⟨p.bridge, rfl, fault⟩
  obtain ⟨b, cleared, sound⟩ := clears
  unfold startMove
  simp only [cleared]
  split_ifs
  · obtain ⟨b', e, sound', -⟩ := beginDrive_putMove u d n { p with bridge := b }
    exact ⟨_, b', e, rfl, by cases d <;> rfl, rfl, rfl, sound' sound⟩
  · refine ⟨_, _, beginDwell_putMove u d n _, rfl, rfl, rfl, rfl, ?_⟩
    rw [coasting_state sound]
    decide

/-! ## The claim of a unit -/

/-- The part with the claim released (R66). -/
def MovePart.released (p : MovePart) : MovePart :=
  if p.claim.state = .idle then p else { p with claim := {}, wait := true }

theorem releaseClaim_putMove (u : MotionUnit) (n : Node) (p : MovePart) :
    releaseClaim (slotUnit u) (n.putMove u p) = n.putMove u p.released := by
  unfold releaseClaim MovePart.released
  rw [claim_putMove]
  split_ifs
  · rfl
  · rw [putMove_setClaim, putMove_wantWait]

section
variable (p : MovePart)

@[simp] theorem released_list : p.released.list = p.list := by unfold MovePart.released; split <;> rfl

@[simp] theorem released_unit : p.released.unit = p.unit := by unfold MovePart.released; split <;> rfl

@[simp] theorem released_bridge : p.released.bridge = p.bridge := by unfold MovePart.released; split <;> rfl

@[simp] theorem released_idle : p.released.claim.state = .idle := by
  unfold MovePart.released
  split
  · assumption
  · rfl

theorem released_of_idle (h : p.claim.state = .idle) : p.released = p := if_pos h

end

/-- A filing on an idle slot, and none on another (R58). -/
theorem fileClaim_putMove (u : MotionUnit) (n : Node) (p : MovePart) (k w : Nat) (d : Option Nat) : ∃ q v,
    fileClaim (slotUnit u) k w d (n.putMove u p) = n.putMove u { p with claim := q, wait := v } ∧
    (p.claim.state = .idle →
      (k = 4 → q = { state := .holding, cls := 4, held := w, wanted := w, stamp := n.now }) ∧
      (k ≠ 4 → q = { state := .waiting, cls := k, wanted := w, stamp := n.now, deadline := d.map (n.now + ·)
                     degradable := decide ((slotUnit u).val < 2) })) ∧
    (p.claim.state ≠ .idle → q = p.claim) := by
  unfold fileClaim
  rw [claim_putMove, now_putMove]
  split_ifs with filed four
  · exact ⟨p.claim, p.wait, rfl, fun h => absurd h filed, fun _ => rfl⟩
  · rw [putMove_setClaim]
    exact ⟨_, p.wait, rfl, fun _ => ⟨fun _ => rfl, fun h => absurd four h⟩, fun h => absurd h filed⟩
  · rw [putMove_setClaim, putMove_wantWait]
    exact ⟨_, true, rfl, fun _ => ⟨fun h => absurd h four, fun _ => rfl⟩, fun h => absurd h filed⟩

/-- A conversion leaves the claim held in class 4 (R67). -/
theorem convertClaim_putMove (u : MotionUnit) (n : Node) (p : MovePart) (k : Nat) : ∃ q v,
    convertClaim (slotUnit u) k (n.putMove u p) = n.putMove u { p with claim := q, wait := v } ∧
    q.state = .holding ∧ q.cls = 4 ∧ q.held = k := by
  unfold convertClaim
  rw [claim_putMove]
  dsimp only
  split_ifs with idle
  · obtain ⟨q, v, e, files, -⟩ := fileClaim_putMove u n p 4 k none
    refine ⟨q, v, e, ?_⟩
    rw [(files idle).1 rfl]
    exact ⟨rfl, rfl, rfl⟩
  · rw [putMove_setClaim, putMove_wantWait]
    exact ⟨_, true, rfl, rfl, rfl, rfl⟩

/-! ## The request list (section 7.3) -/

section
variable {u : MotionUnit} {e new : Entry} {front behind : List Entry}

/-- A test that only entries of the unit meet finds the one between the others. -/
theorem find_mine {p : Entry → Bool} (mine : ∀ x, p x = true → x.unit = u) (others : ∀ x ∈ front, x.unit ≠ u)
    (h : p e = true) : (front ++ e :: behind).find? p = some e := by
  have none : front.find? p = none := List.find?_eq_none.mpr fun x mem hit => others x mem (mine x hit)
  rw [List.find?_append, none, List.find?_cons_of_pos h]
  rfl

theorem find_other {p : Entry → Bool} (mine : ∀ x, p x = true → x.unit = u) {l : List Entry}
    (others : ∀ x ∈ l, x.unit ≠ u) : l.find? p = none :=
  List.find?_eq_none.mpr fun x mem hit => others x mem (mine x hit)

theorem findEntry_hit {n : Node} {s : EntryState} {command : Bool} (list : n.motion.list = front ++ e :: behind)
    (others : ∀ x ∈ front, x.unit ≠ u) (unit : e.unit = u) (state : e.state = s) (origin : isCommand e = command) :
    findEntry u s command n = some e := by
  unfold findEntry
  rw [list]
  refine find_mine (u := u) (fun x hit => ?_) others ?_
  · simp only [Bool.and_eq_true, beq_iff_eq] at hit
    exact hit.1.1
  · simp [unit, state, origin]

theorem findEntry_absent {n : Node} {s : EntryState} {command : Bool} (others : ∀ x ∈ n.motion.list, x.unit ≠ u) :
    findEntry u s command n = none := by
  refine find_other (u := u) (fun x hit => ?_) others
  simp only [Bool.and_eq_true, beq_iff_eq] at hit
  exact hit.1.1

theorem findEntry_miss {n : Node} {s : EntryState} {command : Bool} (list : n.motion.list = front ++ e :: behind)
    (before : ∀ x ∈ front, x.unit ≠ u) (after : ∀ x ∈ behind, x.unit ≠ u)
    (h : e.state ≠ s ∨ isCommand e ≠ command) : findEntry u s command n = none := by
  refine List.find?_eq_none.mpr fun x mem hit => ?_
  simp only [Bool.and_eq_true, beq_iff_eq] at hit
  obtain ⟨⟨unit, state⟩, origin⟩ := hit
  rw [list] at mem
  rcases List.mem_append.mp mem with mem | mem
  · exact before x mem unit
  · rcases List.mem_cons.mp mem with rfl | mem
    · rcases h with h | h
      · exact h state
      · exact h origin
    · exact after x mem unit

theorem removeEntry_mid (others : ∀ x ∈ front, x.unit ≠ e.unit) :
    removeEntry e (front ++ e :: behind) = front ++ behind := by
  induction front with
  | nil => exact if_pos rfl
  | cons x l ih =>
    have other : x ≠ e := fun same => others x (List.mem_cons_self ..) (congrArg Entry.unit same)
    exact (if_neg other).trans (congrArg (x :: ·) (ih fun y mem => others y (List.mem_cons_of_mem x mem)))

theorem replaceEntry_mid (others : ∀ x ∈ front, x.unit ≠ e.unit) :
    replaceEntry e new (front ++ e :: behind) = front ++ new :: behind := by
  induction front with
  | nil => exact if_pos rfl
  | cons x l ih =>
    have other : x ≠ e := fun same => others x (List.mem_cons_self ..) (congrArg Entry.unit same)
    exact (if_neg other).trans (congrArg (x :: ·) (ih fun y mem => others y (List.mem_cons_of_mem x mem)))

/-- A safety entry stands behind the safety entries at the front, ahead of every command entry (R135). -/
theorem insertSafety_splits (e : Entry) (l : List Entry) : ∃ a r, l = a ++ r ∧ insertSafety e l = a ++ e :: r ∧
    (∀ x ∈ a, isCommand x = false) ∧ ∀ x ∈ r.head?, isCommand x = true := by
  induction l with
  | nil => exact ⟨[], [], rfl, rfl, nofun, nofun⟩
  | cons x l ih =>
    cases command : isCommand x
    · obtain ⟨a, r, whole, inserted, safe, next⟩ := ih
      refine ⟨x :: a, r, congrArg (x :: ·) whole, ?_, ?_, next⟩
      · simp only [insertSafety, command, Bool.false_eq_true, if_false, inserted, List.cons_append]
      · intro y mem
        rcases List.mem_cons.mp mem with rfl | mem
        · exact command
        · exact safe y mem
    · refine ⟨[], x :: l, rfl, by simp [insertSafety, command], nofun, ?_⟩
      intro y head
      simp only [List.head?_cons, Option.mem_def, Option.some.injEq] at head
      rw [← head]
      exact command

theorem isBusy_of {n : Node} (list : n.motion.list = front ++ e :: behind) (before : ∀ x ∈ front, x.unit ≠ u)
    (after : ∀ x ∈ behind, x.unit ≠ u) (queued : e.state = .queued) : isBusy u n = false := by
  refine List.any_eq_false.mpr fun x mem hit => ?_
  simp only [Bool.and_eq_true, beq_iff_eq, bne_iff_ne] at hit
  obtain ⟨unit, state⟩ := hit
  rw [list] at mem
  rcases List.mem_append.mp mem with mem | mem
  · exact before x mem unit
  · rcases List.mem_cons.mp mem with rfl | mem
    · exact state queued
    · exact after x mem unit

end

/-! ## Endings (R146) -/

/-- A unit's record with the report of an ended command entry. -/
def MoveUnit.reports (m : MoveUnit) (tag : Nat) (o : MoveOutcome) : MoveUnit := { m with tag := tag, outcome := o }

theorem report_putMove {u : MotionUnit} {e : Entry} {station tag : Nat} (unit : e.unit = u)
    (origin : e.origin = .command station tag) (o : MoveOutcome) (n : Node) (p : MovePart) :
    report e o (n.putMove u p) = n.putMove u { p with unit := p.unit.reports tag o } := by
  simp only [report, origin, unit, unit_putMove, putMove_setUnit]
  rfl

/-- The unit's only entry, a command's, ends. -/
theorem endEntry_putMove {u : MotionUnit} {e : Entry} {station tag : Nat} {front behind : List Entry} {p : MovePart}
    (unit : e.unit = u) (origin : e.origin = .command station tag) (list : p.list = front ++ e :: behind)
    (others : ∀ x ∈ front, x.unit ≠ u) (o : MoveOutcome) (n : Node) :
    endEntry e o (n.putMove u p) =
      n.putMove u { p with list := front ++ behind, unit := p.unit.reports tag o } := by
  unfold endEntry
  rw [list_putMove, list, removeEntry_mid (by rwa [unit]), putMove_setList, report_putMove unit origin]

/-! ## Filing (R140) -/

section
variable {c : UnitCfg} {u : MotionUnit} {e : Entry} {front behind : List Entry} {n : Node}

/-- What filing looks at when the unit's only entry heads its list. -/
theorem fileHead_unfold (list : n.motion.list = front ++ e :: behind) (before : ∀ x ∈ front, x.unit ≠ u)
    (unit : e.unit = u) : fileHead c u n =
    if e.state ≠ .queued ∨ isBusy u n ∨ (n.unit u).state = .fault ∨ (isCommand e ∧ !n.isActive) then n
    else if standsThere c e.action u n then endEntry e .done n
    else if isCommand e then
      ((fileClaim (slotUnit u) 2 (unitUnits c) (some motionWait) n).setList
        (replaceEntry e { e with state := .waitingEnergy } n.motion.list)).setUnit u
        { ((fileClaim (slotUnit u) 2 (unitUnits c) (some motionWait) n).setList
            (replaceEntry e { e with state := .waitingEnergy } n.motion.list)).unit u with
          dir := actionDir e.action (n.unit u).pos }
    else startMove u (actionDir e.action (((fileClaim (slotUnit u) 4 (unitUnits c) none n).setList (replaceEntry e
        { e with state := .active } (fileClaim (slotUnit u) 4 (unitUnits c) none n).motion.list)).unit u).pos)
        ((fileClaim (slotUnit u) 4 (unitUnits c) none n).setList (replaceEntry e { e with state := .active }
          (fileClaim (slotUnit u) 4 (unitUnits c) none n).motion.list)) := by
  have found : n.motion.list.find? (fun e => e.unit == u) = some e := by
    rw [list]
    exact find_mine (u := u) (fun x hit => by simpa using hit) before (by simpa using unit)
  simp only [fileHead, found] <;> rfl

theorem fileHead_still (list : n.motion.list = front ++ e :: behind) (before : ∀ x ∈ front, x.unit ≠ u)
    (unit : e.unit = u) (filed : e.state ≠ .queued) : fileHead c u n = n := by
  rw [fileHead_unfold list before unit, if_pos (.inl filed)]

theorem fileNext_still (list : n.motion.list = front ++ e :: behind) (before : ∀ x ∈ front, x.unit ≠ u)
    (unit : e.unit = u) (filed : e.state ≠ .queued) : fileNext c u n = n := by
  simp only [fileNext, fileHead_still list before unit filed]

/-- A command entry whose end is where the unit stands ends DONE. -/
theorem fileNext_stands {p : MovePart} {station tag : Nat} (list : p.list = front ++ e :: behind)
    (before : ∀ x ∈ front, x.unit ≠ u) (after : ∀ x ∈ behind, x.unit ≠ u) (unit : e.unit = u)
    (queued : e.state = .queued) (origin : e.origin = .command station tag) (active : n.isActive = true)
    (sound : p.unit.state ≠ .fault) (stands : standsThere c e.action u (n.putMove u p) = true) :
    fileNext c u (n.putMove u p) = n.putMove u { p with list := front ++ behind, unit := p.unit.reports tag .done } := by
  have idle : isBusy u (n.putMove u p) = false := isBusy_of (by rw [list_putMove, list]) before after queued
  have first : fileHead c u (n.putMove u p) =
      n.putMove u { p with list := front ++ behind, unit := p.unit.reports tag .done } := by
    rw [fileHead_unfold (by rw [list_putMove, list]) before unit, if_neg (by simp [queued, idle, sound, active]),
      if_pos stands, endEntry_putMove unit origin list before]
  have gone : ∀ x ∈ (n.putMove u { p with list := front ++ behind, unit := p.unit.reports tag .done }).motion.list,
      x.unit ≠ u := by
    intro x mem
    rw [list_putMove] at mem
    exact (List.mem_append.mp mem).elim (before x) (after x)
  simp only [fileNext, first, fileHead_of_none gone]

/-- A command entry files its claim, with the direction decided (R140). -/
theorem fileNext_files {p : MovePart} {station tag : Nat} (list : p.list = front ++ e :: behind)
    (before : ∀ x ∈ front, x.unit ≠ u) (after : ∀ x ∈ behind, x.unit ≠ u) (unit : e.unit = u)
    (queued : e.state = .queued) (origin : e.origin = .command station tag) (active : n.isActive = true)
    (sound : p.unit.state ≠ .fault) (stands : standsThere c e.action u (n.putMove u p) = false) : ∃ q v,
    fileNext c u (n.putMove u p) = n.putMove u { p with
      list := front ++ { e with state := .waitingEnergy } :: behind
      unit := { p.unit with dir := actionDir e.action p.unit.pos }, claim := q, wait := v } ∧
    (p.claim.state = .idle → q = { state := .waiting, cls := 2, wanted := unitUnits c, stamp := n.now
                                   deadline := some (n.now + 10000) }) ∧
    (p.claim.state ≠ .idle → q = p.claim) := by
  have idle : isBusy u (n.putMove u p) = false := isBusy_of (by rw [list_putMove, list]) before after queued
  have command : isCommand e = true := by simp [isCommand, origin]
  obtain ⟨q, v, files, fresh, kept⟩ := fileClaim_putMove u n p 2 (unitUnits c) (some motionWait)
  refine ⟨q, v, ?_, fun free => ?_, kept⟩
  · have first : fileHead c u (n.putMove u p) = n.putMove u { p with
        list := front ++ { e with state := .waitingEnergy } :: behind
        unit := { p.unit with dir := actionDir e.action p.unit.pos }, claim := q, wait := v } := by
      rw [fileHead_unfold (by rw [list_putMove, list]) before unit, if_neg (by simp [queued, idle, sound, active]),
        if_neg (by simp [stands]), if_pos command, files]
      simp only [list_putMove, list, putMove_setList, unit_putMove, putMove_setUnit]
      rw [replaceEntry_mid (by rwa [unit])]
    have again : fileHead c u (fileHead c u (n.putMove u p)) = fileHead c u (n.putMove u p) := by
      rw [first]
      exact fileHead_still (e := { e with state := .waitingEnergy }) (list_putMove ..) before unit (by simp)
    unfold fileNext
    rw [again, again, again, first]
  · have degradable : decide ((slotUnit u).val < 2) = false := by cases u <;> rfl
    rw [(fresh free).2 (by decide), degradable]
    rfl

/-- A safety entry holds its class-4 claim at once, and the unit moves (R139, R140). -/
theorem fileNext_drives {p : MovePart} (list : p.list = front ++ e :: behind)
    (before : ∀ x ∈ front, x.unit ≠ u) (after : ∀ x ∈ behind, x.unit ≠ u) (unit : e.unit = u)
    (queued : e.state = .queued) (safety : isCommand e = false)
    (sound : p.unit.state ≠ .fault) (stands : standsThere c e.action u (n.putMove u p) = false) : ∃ m b q v,
    fileNext c u (n.putMove u p) = n.putMove u ⟨front ++ { e with state := .active } :: behind, m, b, q, v⟩ ∧
    m.dir = actionDir e.action p.unit.pos ∧ isMoving m = true ∧ m.outcome = p.unit.outcome ∧ m.tag = p.unit.tag ∧
    b.state ≠ .fault ∧
    (p.claim.state = .idle → q = { state := .holding, cls := 4, held := unitUnits c, wanted := unitUnits c,
                                   stamp := n.now }) := by
  have idle : isBusy u (n.putMove u p) = false := isBusy_of (by rw [list_putMove, list]) before after queued
  obtain ⟨q, v, files, fresh, -⟩ := fileClaim_putMove u n p 4 (unitUnits c) none
  obtain ⟨m, b, moves, dir, moving, outcome, tag, cleared⟩ := startMove_putMove u (actionDir e.action p.unit.pos) n
    { p with list := front ++ { e with state := .active } :: behind, claim := q, wait := v }
  refine ⟨m, b, q, v, ?_, dir, moving, outcome, tag, cleared, fun free => (fresh free).1 rfl⟩
  have first : fileHead c u (n.putMove u p) =
      n.putMove u ⟨front ++ { e with state := .active } :: behind, m, b, q, v⟩ := by
    rw [fileHead_unfold (by rw [list_putMove, list]) before unit, if_neg (by simp [queued, idle, sound, safety]),
      if_neg (by simp [stands]), if_neg (by simp [safety]), files]
    simp only [list_putMove, list, putMove_setList, unit_putMove]
    rw [replaceEntry_mid (by rwa [unit]), moves]
  have again : fileHead c u (fileHead c u (n.putMove u p)) = fileHead c u (n.putMove u p) := by
    rw [first]
    exact fileHead_still (e := { e with state := .active }) (list_putMove ..) before unit (by simp)
  unfold fileNext
  rw [again, again, again, first]

end

/-! ## A command's answer -/

/-- The node with a move's part written and a REPLY owed. -/
def Node.replied (n : Node) (u : MotionUnit) (p : MovePart) (r : Option ReplyBody) : Node :=
  { n.putMove u p with ev := { (n.putMove u p).ev with reply := r } }

theorem carry_moves {k : Node} {u : MotionUnit} {p : MovePart} {x : RxFrame} {b : CommandBody} {o : Outcome}
    (h : o.node = k.putMove u p) : k.carry x b o = k.replied u p (k.owing x b o.result o.detail) := by
  rw [carry_frame (by rw [h, putMove_reply]), h]
  rfl

section
variable (n : Node) (u : MotionUnit) (p : MovePart) (r : Option ReplyBody)

@[simp] theorem unit_replied : (n.replied u p r).unit u = p.unit := unit_putMove n u p

@[simp] theorem bridge_replied : (n.replied u p r).bridge u = p.bridge := bridge_putMove n u p

@[simp] theorem list_replied : (n.replied u p r).motion.list = p.list := list_putMove n u p

@[simp] theorem claim_replied : (n.replied u p r).claim (slotUnit u) = p.claim := claim_putMove n u p

@[simp] theorem reply_replied : (n.replied u p r).ev.reply = r := rfl

theorem replied_frame : let m := n.replied u p r
    m = { n with motion := m.motion, claims := m.claims, bank := m.bank, ev := m.ev } :=
  congrArg (fun m : Node => { m with ev := { (n.putMove u p).ev with reply := r } }) (putMove_frame n u p)

theorem replied_bank (h : p.bridge = n.bridge u) : (n.replied u p r).bank = n.bank := putMove_bank n u p h

theorem replied_claims (h : p.claim = n.claim (slotUnit u)) : (n.replied u p r).claims = n.claims :=
  putMove_claims n u p h

end

end Sys2Proof.Machine
end

section
/-!
# Proofs: stops, faults and the moments of a move (chapter 7)

A STOP and a fault end entries of one unit: the list keeps the entries of the other (`endAll_putMove`). A fault then sets
flags and counts; the moments of a move and the bridges' events follow.
-/
namespace Sys2Proof.Machine

/-! ## The ending of every entry of a unit (R144) -/

theorem removeEntry_eq_erase (e : Entry) (l : List Entry) : removeEntry e l = l.erase e := by
  induction l with
  | nil => rfl
  | cons x l ih =>
    by_cases same : x = e
    · rw [same, List.erase_cons_head]
      exact if_pos rfl
    · rw [List.erase_cons_tail (by simpa using same), ← ih]
      exact if_neg same

/-- An ending writes the list and, for a command entry, the report. -/
theorem endEntry_mine {u : MotionUnit} {e : Entry} (unit : e.unit = u) (o : MoveOutcome) (n : Node) (p : MovePart) :
    ∃ tag out, endEntry e o (n.putMove u p) =
      n.putMove u { p with list := removeEntry e p.list, unit := p.unit.reports tag out } := by
  unfold endEntry
  rw [list_putMove, putMove_setList]
  cases origin : e.origin with
  | command station tag => exact ⟨tag, o, report_putMove unit origin o n _⟩
  | travel => exact ⟨p.unit.tag, p.unit.outcome, by simp only [report, origin]; rfl⟩
  | wind => exact ⟨p.unit.tag, p.unit.outcome, by simp only [report, origin]; rfl⟩

/-- The endings of all entries of a unit, in any order, leave the entries of the other. -/
theorem endings_putMove {u : MotionUnit} (o : MoveOutcome) (n : Node) (order : List Entry) : ∀ p : MovePart,
    (p.list.filter fun e => e.unit == u).Perm order →
    ∃ tag out, order.foldl (fun n e => endEntry e o n) (n.putMove u p) = n.putMove u
      { p with list := p.list.filter fun e => e.unit != u, unit := p.unit.reports tag out } := by
  induction order with
  | nil =>
    intro p none
    have others : p.list.filter (fun e => e.unit != u) = p.list := by
      refine List.filter_eq_self.mpr fun x mem => ?_
      have other := List.filter_eq_nil_iff.mp none.eq_nil x mem
      simpa using other
    refine ⟨p.unit.tag, p.unit.outcome, ?_⟩
    rw [others]
    rfl
  | cons e order ih =>
    intro p perm
    have unit : e.unit = u := by
      have mem := perm.mem_iff.mpr (List.mem_cons_self ..)
      simpa using (List.mem_filter.mp mem).2
    obtain ⟨tag, out, ends⟩ := endEntry_mine unit o n p
    have rest : ((removeEntry e p.list).filter fun e => e.unit == u).Perm order := by
      have less := perm.erase e
      rw [List.erase_cons_head, List.erase_filter] at less
      rwa [removeEntry_eq_erase]
    have others : (removeEntry e p.list).filter (fun e => e.unit != u) = p.list.filter fun e => e.unit != u := by
      rw [removeEntry_eq_erase, ← List.erase_filter]
      refine List.erase_of_not_mem fun mem => ?_
      have other := (List.mem_filter.mp mem).2
      simp [unit] at other
    obtain ⟨tag', out', folds⟩ := ih { p with list := removeEntry e p.list, unit := p.unit.reports tag out } rest
    refine ⟨tag', out', ?_⟩
    rw [List.foldl_cons, ends, folds, others]
    rfl

theorem endAll_putMove (u : MotionUnit) (o : MoveOutcome) (n : Node) (p : MovePart) : ∃ tag out,
    endAll u o (n.putMove u p) = n.putMove u
      { p with list := p.list.filter fun e => e.unit != u, unit := p.unit.reports tag out } := by
  refine endings_putMove o n _ p ?_
  rw [list_putMove]
  refine (List.filter_append_perm (fun e : Entry => e.state != .active) _).symm.trans (List.Perm.of_eq ?_)
  simp [bne]

/-- A single command entry under way ends with its outcome. -/
theorem endAll_single {u : MotionUnit} {a : Action} {station tag : Nat} {o : MoveOutcome} {n : Node} {p : MovePart}
    (list : p.list = [⟨u, a, .command station tag, .active⟩]) : endAll u o (n.putMove u p) =
      n.putMove u { p with list := [], unit := p.unit.reports tag o } := by
  have ends := endEntry_putMove (u := u) (e := ⟨u, a, .command station tag, .active⟩) (front := []) (behind := [])
    rfl rfl (by rw [list]; rfl) nofun o n (p := p)
  simpa [endAll, list] using ends

/-! ## Coming to rest -/

section
variable (u : MotionUnit) (c : UnitCfg) (n : Node) (p : MovePart)

@[simp] theorem restByStop_putMove (m : MoveUnit) : restByStop c (n.putMove u p) m = restByStop c n m := by
  simp only [restByStop, extStop_putMove, retStop_putMove]

theorem upToDate_putMove : upToDate c u (n.putMove u p) =
    n.putMove u { p with unit := { p.unit with pos := estimate c p.unit n.now } } := by
  simp only [upToDate, unit_putMove, now_putMove, putMove_setUnit]

end

/-- At rest by a STOP or a target (R142, R143), by the end stops. -/
theorem restByStop_cases (c : UnitCfg) (n : Node) (m : MoveUnit) :
    (extStop c n = true → retStop c n = true → restByStop c n m = atRest .fault .endStopConflict m.pos m) ∧
    (extStop c n = false → retStop c n = true → restByStop c n m = atRest .retracted .none (some 0) m) ∧
    (extStop c n = true → retStop c n = false → restByStop c n m = atRest .extended .none (some 1000) m) ∧
    (extStop c n = false → retStop c n = false →
      restByStop c n m = atRest (if m.pos.isSome then .partway else .unknown) .none m.pos m) := by
  unfold restByStop
  refine ⟨fun e r => by rw [e, r], fun e r => by rw [e, r], fun e r => by rw [e, r], fun e r => ?_⟩
  rw [e, r]
  cases h : m.pos <;> simp

/-- Whatever rest it is, the clocks stop. -/
theorem restByStop_clocks (c : UnitCfg) (n : Node) (m : MoveUnit) :
    (restByStop c n m).run = none ∧ (restByStop c n m).jam = none := by
  unfold restByStop
  repeat' split
  all_goals exact ⟨rfl, rfl⟩

/-! ## STOP (R138) -/

/-- A STOP of a move under way: BRAKE, and the entry ends STOPPED. -/
theorem stopUnit_moving {c : UnitCfg} {u : MotionUnit} {n : Node} {p : MovePart} {a : Action} {station tag : Nat}
    {front behind : List Entry} (list : p.list = front ++ ⟨u, a, .command station tag, .active⟩ :: behind)
    (before : ∀ e ∈ front, e.unit ≠ u) (after : ∀ e ∈ behind, e.unit ≠ u) :
    stopUnit c u (n.putMove u p) = some (n.putMove u (MovePart.released { p with
      list := front ++ behind, bridge := braking p.bridge
      unit := (restByStop c n { p.unit with pos := estimate c p.unit n.now }).reports tag .stopped })) := by
  have entry : findEntry u .active true (n.putMove u p) = some ⟨u, a, .command station tag, .active⟩ :=
    findEntry_hit (by rw [list_putMove, list]) before rfl rfl rfl
  have alone : p.list.filter (fun x => x.unit == u && x.state != .active) = [] := by
    refine List.filter_eq_nil_iff.mpr fun x mem hit => ?_
    simp only [Bool.and_eq_true, beq_iff_eq, bne_iff_ne] at hit
    rw [list] at mem
    rcases List.mem_append.mp mem with mem | mem
    · exact before x mem hit.1
    · rcases List.mem_cons.mp mem with rfl | mem
      · exact hit.2 rfl
      · exact after x mem hit.1
  unfold stopUnit
  simp only [entry, bridgeBrake_eq, bridge_putMove, putMove_setBridge, upToDate_putMove, unit_putMove, putMove_setUnit,
    restByStop_putMove, list_putMove, alone, List.foldl_nil]
  rw [endEntry_putMove (u := u) (e := ⟨u, a, .command station tag, .active⟩) (p := { p with
    bridge := braking p.bridge, unit := restByStop c n { p.unit with pos := estimate c p.unit n.now } })
    rfl rfl list before, releaseClaim_putMove]

/-- A STOP of a waiting entry: it ends STOPPED and its claim is released. -/
theorem stopUnit_waiting {c : UnitCfg} {u : MotionUnit} {n : Node} {p : MovePart} {a : Action} {station tag : Nat}
    {front behind : List Entry} (list : p.list = front ++ ⟨u, a, .command station tag, .waitingEnergy⟩ :: behind)
    (before : ∀ e ∈ front, e.unit ≠ u) (after : ∀ e ∈ behind, e.unit ≠ u) :
    stopUnit c u (n.putMove u p) = some (n.putMove u (MovePart.released { p with
      list := front ++ behind, unit := p.unit.reports tag .stopped })) := by
  have entry : findEntry u .waitingEnergy true (n.putMove u p) = some ⟨u, a, .command station tag, .waitingEnergy⟩ :=
    findEntry_hit (by rw [list_putMove, list]) before rfl rfl rfl
  have still : findEntry u .active true (n.putMove u p) = none :=
    findEntry_miss (by rw [list_putMove, list]) before after (.inl (by simp))
  unfold stopUnit
  simp only [still, entry]
  rw [endEntry_putMove (u := u) (e := ⟨u, a, .command station tag, .waitingEnergy⟩) rfl rfl list before, releaseClaim_putMove,
    fileNext_of_none]
  intro x mem
  rw [list_putMove, released_list] at mem
  exact (List.mem_append.mp mem).elim (before x) (after x)

/-- A safety move refuses the STOP. -/
theorem stopUnit_safety {c : UnitCfg} {u : MotionUnit} {n : Node} {a : Action} {o : Origin}
    (safety : o = .travel ∨ o = .wind) (mem : ⟨u, a, o, .active⟩ ∈ n.motion.list)
    (queued : ∀ e ∈ n.motion.list, e.unit = u → isCommand e = true → e.state = .queued) : stopUnit c u n = none := by
  have none_of (s : EntryState) (h : s ≠ .queued) : findEntry u s true n = none := by
    refine List.find?_eq_none.mpr fun x mem hit => ?_
    simp only [Bool.and_eq_true, beq_iff_eq] at hit
    obtain ⟨⟨unit, state⟩, command⟩ := hit
    exact h (state.symm.trans (queued x mem unit command))
  have some_safety : (findEntry u .active false n).isSome = true := by
    refine List.find?_isSome.mpr ⟨_, mem, ?_⟩
    rcases safety with rfl | rfl <;> simp [isCommand]
  unfold stopUnit
  simp only [none_of .active (by decide), none_of .waitingEnergy (by decide), some_safety, if_true]

/-- A STOP with no entry of the unit in the list. -/
theorem stopUnit_alone {c : UnitCfg} {u : MotionUnit} {n : Node} (others : ∀ e ∈ n.motion.list, e.unit ≠ u) :
    stopUnit c u n = if (n.unit u).state = .fault then
      some (if ((n.setUnit u (restByStop c n (n.unit u))).unit u).state = .fault
        then n.setUnit u (restByStop c n (n.unit u)) else safetyCheck u (n.setUnit u (restByStop c n (n.unit u))))
      else some n := by
  unfold stopUnit
  simp only [findEntry_absent others, Option.isSome_none, Bool.false_eq_true, if_false]

/-- A safety request with no entry of the unit in the list: the unit retracts at once (R139). -/
theorem safetyRequest_alone {u : MotionUnit} {c : UnitCfg} {n : Node} {p : MovePart} {o : Origin}
    (cfg : n.unitCfg u = some c) (safety : o = .travel ∨ o = .wind) (others : ∀ e ∈ p.list, e.unit ≠ u)
    (sound : p.unit.state ≠ .fault) (open_ : retStop c n = false) : ∃ l r m b q v,
    safetyRequest u o (n.putMove u p) = n.putMove u ⟨l ++ ⟨u, .retract, o, .active⟩ :: r, m, b, q, v⟩ ∧
    p.list = l ++ r ∧ (∀ e ∈ l, isCommand e = false) ∧ (∀ e ∈ r.head?, isCommand e = true) ∧
    m.dir = .retract ∧ isMoving m = true ∧ m.outcome = p.unit.outcome ∧ m.tag = p.unit.tag ∧ b.state ≠ .fault ∧
    (p.claim.state = .idle → q = { state := .holding, cls := 4, held := unitUnits c, wanted := unitUnits c,
                                   stamp := n.now }) := by
  obtain ⟨l, r, whole, inserted, safe, next⟩ := insertSafety_splits ⟨u, .retract, o, .queued⟩ p.list
  have before : ∀ e ∈ l, e.unit ≠ u := fun e mem => others e (whole ▸ List.mem_append_left r mem)
  have after : ∀ e ∈ r, e.unit ≠ u := fun e mem => others e (whole ▸ List.mem_append_right l mem)
  have origin : isCommand ⟨u, .retract, o, .queued⟩ = false := by rcases safety with rfl | rfl <;> rfl
  obtain ⟨m, b, q, v, files, facts⟩ := fileNext_drives (c := c) (n := n) (e := ⟨u, .retract, o, .queued⟩)
    (p := { p with list := insertSafety ⟨u, .retract, o, .queued⟩ p.list }) inserted before after rfl rfl origin sound
    (by simp [standsThere, open_])
  refine ⟨l, r, m, b, q, v, ?_, whole, safe, next, facts⟩
  have unheard : (p.list.any fun e => e.unit == u && !isCommand e) = false := by
    refine List.any_eq_false.mpr fun x mem hit => ?_
    simp only [Bool.and_eq_true, beq_iff_eq] at hit
    exact others x mem hit.1
  have absent (s : EntryState) : findEntry u s true (n.putMove u p) = none :=
    findEntry_absent (by rw [list_putMove]; exact others)
  unfold safetyRequest
  simp only [unitCfg_putMove, cfg, unit_putMove, if_neg sound, unheard, absent, list_putMove, putMove_setList,
    Bool.false_eq_true, if_false]
  exact files

/-- A STOP of a FAULT: the unit takes its state from its end stops, and retracts when a view asks for it. -/
theorem stopUnit_fault {u : MotionUnit} {c : UnitCfg} {n : Node} {p : MovePart} (cfg : n.unitCfg u = some c)
    (others : ∀ e ∈ p.list, e.unit ≠ u) (fault : p.unit.state = .fault) :
    let m := restByStop c n p.unit
    ((extStop c n = true ∧ retStop c n = true) ∨ retStop c n = true ∨
      (n.view.travel = false ∧ (u = .step ∨ n.view.wind = false)) →
      stopUnit c u (n.putMove u p) = some (n.putMove u { p with unit := m })) ∧
    ∀ o, retStop c n = false →
      ((o = .travel ∧ n.view.travel = true) ∨ (o = .wind ∧ n.view.travel = false ∧ u = .awning ∧ n.view.wind = true)) →
      stopUnit c u (n.putMove u p) = some (safetyRequest u o (n.putMove u { p with unit := m })) ∧ m.state ≠ .fault := by
  have alone : stopUnit c u (n.putMove u p) = some (if (restByStop c n p.unit).state = .fault
      then n.putMove u { p with unit := restByStop c n p.unit }
      else safetyCheck u (n.putMove u { p with unit := restByStop c n p.unit })) := by
    rw [stopUnit_alone (by rw [list_putMove]; exact others)]
    simp only [unit_putMove, restByStop_putMove, putMove_setUnit, if_pos fault]
  obtain ⟨both, ret, ext, neither⟩ := restByStop_cases c n p.unit
  dsimp only
  rw [alone]
  refine ⟨fun rests => ?_, fun o open_ asks => ?_⟩
  · by_cases retracted : retStop c n = true
    · cases extended : extStop c n
      · rw [ret extended retracted]
        simp [safetyCheck, atRest]
      · rw [both extended retracted]
        simp [atRest]
    · have clear : n.view.travel = false ∧ (u = .step ∨ n.view.wind = false) :=
        (rests.resolve_left fun h => retracted h.2).resolve_left retracted
      obtain ⟨travel, wind⟩ := clear
      have calm : ¬ (u = .awning ∧ n.view.wind = true) := by
        rintro ⟨rfl, windy⟩
        rcases wind with wrong | wind
        · nomatch wrong
        · rw [wind] at windy
          nomatch windy
      unfold safetyCheck
      simp only [view_putMove, travel, unit_putMove, Bool.false_eq_true, if_false, if_neg calm, ite_self]
  · have rest : (restByStop c n p.unit).state ≠ .fault ∧ (restByStop c n p.unit).state ≠ .retracted := by
      cases extended : extStop c n
      · rw [neither extended open_]
        simp only [atRest]
        split_ifs <;> decide
      · rw [ext extended open_]
        simp [atRest]
    obtain ⟨sound, away⟩ := rest
    refine ⟨?_, sound⟩
    rw [if_neg sound]
    unfold safetyCheck
    rw [unit_putMove, if_neg away, view_putMove]
    rcases asks with ⟨rfl, travel⟩ | ⟨rfl, travel, awning, wind⟩
    · rw [if_pos travel]
    · rw [if_neg (by simp [travel]), if_pos ⟨awning, wind⟩]

/-- A STOP heard is acted on. -/
theorem stopRow_acts {s : State} {dt : Nat} {x : RxFrame} {rest : List RxFrame} {b : CommandBody} {u : MotionUnit}
    (h : Heard s dt (unitCode u) x rest b) (held : (s.admitted dt x).has (unitDuty u) = true) (args : b.args = [3]) :
    exec (stopRow dt u) s = .next (s.ended dt (s.rx.without rest)
      ((s.admitted dt x).carry x b (stopAct u x.source b (s.admitted dt x)))) := by
  have row : exec (stopRow dt u) s = motionCommand dt u (· == 3) (stopAct u) s := by cases u <;> rfl
  rw [row]
  exact commandEvent_carries h (by rw [args]; rfl) (by rw [args]; rfl) held

theorem stopAct_stops {u : MotionUnit} {c : UnitCfg} {k m : Node} (cfg : k.unitCfg u = some c)
    (stops : stopUnit c u k = some m) (source : Nat) (b : CommandBody) : stopAct u source b k = give .done m := by
  simp only [stopAct, cfg, stops]

theorem stopAct_refuses {u : MotionUnit} {c : UnitCfg} {k : Node} (cfg : k.unitCfg u = some c)
    (stops : stopUnit c u k = none) (source : Nat) (b : CommandBody) :
    stopAct u source b k = give .refusedInterlock k := by
  simp only [stopAct, cfg, stops]

/-- A node replied at the part as it stands is the node with the REPLY owed. -/
theorem replied_self (k : Node) (u : MotionUnit) (r : Option ReplyBody) :
    k.replied u (k.movePart u) r = { k with ev := { k.ev with reply := r } } := by
  unfold Node.replied
  rw [putMove_self]

/-- Settles O44: a STOP by what the list holds of the unit. -/
theorem stopRequests : Obligations.StopRequests := by
  unfold Obligations.StopRequests
  rintro s dt x rest b k u c front behind rfl h held cfg args before after
  dsimp only
  refine ⟨_, stopRow_acts h held args, ?_⟩
  generalize s.admitted dt x = k at held cfg ⊢
  have whole : k.putMove u (k.movePart u) = k := putMove_self k u
  have stops {p : MovePart} (h : stopUnit c u (k.putMove u (k.movePart u)) = some (k.putMove u p)) :
      k.carry x b (stopAct u x.source b k) = k.replied u p (k.owing x b .done 0) := by
    rw [whole] at h
    rw [stopAct_stops cfg h, carry_moves (u := u) (p := p) rfl]
    rfl
  refine ⟨fun a st tag list sound => ?_, fun a st tag list => ?_, fun a o safety mem queued => ?_, fun list sound => ?_,
    fun list fault => ?_⟩
  · rw [stops (stopUnit_moving list before after)]
    obtain ⟨-, ret, ext, neither⟩ := restByStop_cases c k { k.unit u with pos := estimate c (k.unit u) k.now }
    dsimp only at ret ext neither
    obtain ⟨run, jam⟩ := restByStop_clocks c k { k.unit u with pos := estimate c (k.unit u) k.now }
    simp only [reply_replied, bridge_replied, list_replied, claim_replied, unit_replied, released_list, released_unit,
      released_bridge, released_idle, movePart_unit]
    refine ⟨trivial, braking_state sound, trivial, trivial, rfl, rfl, run, jam, replied_frame .., fun e r => ?_,
      fun e r => ?_, fun e r => ?_⟩
    · rw [neither e r]
      exact ⟨rfl, rfl⟩
    · rw [ret e r]
      exact ⟨rfl, rfl⟩
    · rw [ext e r]
      exact ⟨rfl, rfl⟩
  · rw [stops (stopUnit_waiting list before after)]
    have frame := replied_frame k u (MovePart.released { k.movePart u with
      list := front ++ behind, unit := (k.unit u).reports tag .stopped }) (k.owing x b .done 0)
    dsimp only at frame
    rw [replied_bank _ _ _ _ (by rw [released_bridge]; rfl)] at frame
    simp only [reply_replied, list_replied, claim_replied, unit_replied, released_list, released_unit, released_idle]
    exact ⟨trivial, trivial, trivial, rfl, rfl, rfl, frame⟩
  · rw [stopAct_refuses cfg (stopUnit_safety safety mem queued), carry_frame (by rfl)]
    rfl
  · have others : ∀ e ∈ k.motion.list, e.unit ≠ u := fun e mem =>
      (List.mem_append.mp (list ▸ mem)).elim (before e) (after e)
    have stays : stopUnit c u (k.putMove u (k.movePart u)) = some (k.putMove u (k.movePart u)) := by
      rw [whole, stopUnit_alone others, if_neg sound]
    rw [stops stays, replied_self]
  · have others : ∀ e ∈ (k.movePart u).list, e.unit ≠ u := fun e mem =>
      (List.mem_append.mp ((show k.motion.list = _ from list) ▸ mem)).elim (before e) (after e)
    obtain ⟨rests, withdraws⟩ := stopUnit_fault (p := k.movePart u) cfg others fault
    have retracts (o : Origin) (safety : o = .travel ∨ o = .wind) (open_ : retStop c k = false)
        (asks : (o = .travel ∧ k.view.travel = true) ∨
          (o = .wind ∧ k.view.travel = false ∧ u = .awning ∧ k.view.wind = true)) :
        let m := k.carry x b (stopAct u x.source b k)
        m.ev.reply = k.owing x b .done 0 ∧
        (∃ l r, front ++ behind = l ++ r ∧ m.motion.list = l ++ ⟨u, .retract, o, .active⟩ :: r) ∧
        (m.unit u).dir = .retract ∧ isMoving (m.unit u) = true ∧ ((k.claim (slotUnit u)).state = .idle →
          (m.claim (slotUnit u)).cls = 4 ∧ (m.claim (slotUnit u)).held = unitUnits c) ∧
        (m.bridge u).state ≠ .fault := by
      obtain ⟨asked, sound⟩ := withdraws o open_ asks
      obtain ⟨l, r, m, b', q, v, requests, split, -, -, dir, moving, -, -, cleared, filed⟩ :=
        safetyRequest_alone (p := { k.movePart u with unit := restByStop c k (k.unit u) }) cfg safety others sound open_
      dsimp only
      rw [stops (asked.trans (congrArg some requests))]
      simp only [reply_replied, list_replied, unit_replied, claim_replied, bridge_replied]
      refine ⟨trivial, ⟨l, r, list.symm.trans split, rfl⟩, dir, moving, fun free => ?_, cleared⟩
      rw [filed free]
      exact ⟨rfl, rfl⟩
    have reply : (k.carry x b (stopAct u x.source b k)).ev.reply = k.owing x b .done 0 := by
      cases ret : retStop c k
      · cases travel : k.view.travel
        · by_cases windy : u = .awning ∧ k.view.wind = true
          · exact (retracts .wind (.inr rfl) ret (.inr ⟨rfl, travel, windy⟩)).1
          · have calm : u = .step ∨ k.view.wind = false := by
              cases u
              · exact .inr (by simpa using windy)
              · exact .inl rfl
            rw [stops (rests (.inr (.inr ⟨travel, calm⟩))), reply_replied]
        · exact (retracts .travel (.inl rfl) ret (.inl ⟨rfl, travel⟩)).1
      · rw [stops (rests (.inr (.inl ret))), reply_replied]
    refine ⟨reply, fun rest => ?_, fun open_ free => ⟨fun travel => ?_, fun travel awning wind => ?_⟩⟩
    · rw [stops (rests rest)]
      have frame := replied_frame k u { k.movePart u with unit := restByStop c k (k.unit u) } (k.owing x b .done 0)
      dsimp only at frame
      rw [replied_bank _ _ _ _ (by rfl), replied_claims _ _ _ _ (by rfl)] at frame
      obtain ⟨both, ret, ext, neither⟩ := restByStop_cases c k (k.unit u)
      obtain ⟨run, -⟩ := restByStop_clocks c k (k.unit u)
      simp only [list_replied, unit_replied, movePart_unit]
      refine ⟨frame, rfl, run, fun e r => ?_, fun one => ?_⟩
      · rw [both e r]
        exact ⟨rfl, rfl, rfl⟩
      · cases e : extStop c k
        · cases r : retStop c k
          · rw [neither e r]
            exact ⟨rfl, rfl, rfl⟩
          · rw [ret e r]
            exact ⟨rfl, rfl, rfl⟩
        · cases r : retStop c k
          · rw [ext e r]
            exact ⟨rfl, rfl, rfl⟩
          · exact absurd ⟨e, r⟩ one
    · obtain ⟨-, place, dir, moving, held, cleared⟩ := retracts .travel (.inl rfl) open_ (.inl ⟨rfl, travel⟩)
      exact ⟨place, dir, moving, (held free).1, (held free).2, cleared⟩
    · obtain ⟨-, place, dir, moving, held, cleared⟩ :=
        retracts .wind (.inr rfl) open_ (.inr ⟨rfl, travel, awning, wind⟩)
      exact ⟨place, dir, moving, (held free).1, (held free).2, cleared⟩

end Sys2Proof.Machine
end

section
/-!
# Proofs: faults of a move and the bridges' events (chapter 7, section 9.5)

A fault ends every entry of its unit, sets the flags of its cause and counts a jam (`faultUnit_putMove`,
`faultMarks_spec`).
-/
namespace Sys2Proof.Machine

/-! ## Faults (R144) -/

/-- The flags and the count of a fault. -/
def faultMarks (u : MotionUnit) (cause : FaultCause) (safety : Bool) (n : Node) : Node :=
  let n := if cause = .jam then bump .jams (setFlag .motionJam n) else n
  let n := if cause = .timeout then setFlag .motionTimeout n else n
  if safety ∧ u = .step then setFlag .stepNotStowed n else n

/-- What stands after `faultMarks` of the command unit, flags kept and those of the cause set. -/
theorem faultMarks_spec (u : MotionUnit) (cause : FaultCause) (safety : Bool) (n : Node) :
    (∃ d, faultMarks u cause safety n = n.setCmd d) ∧
    (∀ f, hasFlag f n = true → hasFlag f (faultMarks u cause safety n) = true) ∧
    (cause = .jam → hasFlag .motionJam (faultMarks u cause safety n) = true ∧
      counter .jams (faultMarks u cause safety n) = min (counter .jams n + 1) 65535) ∧
    (cause = .timeout → hasFlag .motionTimeout (faultMarks u cause safety n) = true ∧
      counter .jams (faultMarks u cause safety n) = counter .jams n) := by
  let last (n : Node) : Node := if safety ∧ u = .step then setFlag .stepNotStowed n else n
  have sets (n : Node) : ∃ d, last n = n.setCmd d := by
    simp only [last]
    split
    · exact ⟨_, rfl⟩
    · exact ⟨n.cmd, rfl⟩
  have keeps (n : Node) (f : Flag) (h : hasFlag f n = true) : hasFlag f (last n) = true := by
    simp only [last]
    split
    · exact hasFlag_setFlag (.inr h)
    · exact h
  have counts (n : Node) : counter .jams (last n) = counter .jams n := by
    simp only [last]
    split <;> rfl
  by_cases jam : cause = .jam
  · have e : faultMarks u cause safety n = last (bump .jams (setFlag .motionJam n)) := by
      simp only [faultMarks, jam, reduceCtorEq, if_true, if_false, last]
    obtain ⟨d, set⟩ := sets (bump .jams (setFlag .motionJam n))
    have bumped (f : Flag) (h : hasFlag f (setFlag .motionJam n) = true) :
        hasFlag f (last (bump .jams (setFlag .motionJam n))) = true := keeps _ f h
    rw [e]
    refine ⟨⟨d, by rw [set]; rfl⟩, fun f h => bumped f (hasFlag_setFlag (.inr h)),
      fun _ => ⟨bumped _ (hasFlag_setFlag (.inl rfl)), ?_⟩, fun other => absurd (jam.symm.trans other) (by decide)⟩
    rw [counts, counter_bump]
    rfl
  · by_cases timeout : cause = .timeout
    · have e : faultMarks u cause safety n = last (setFlag .motionTimeout n) := by
        simp only [faultMarks, timeout, reduceCtorEq, if_true, if_false, last]
      obtain ⟨d, set⟩ := sets (setFlag .motionTimeout n)
      rw [e]
      refine ⟨⟨d, by rw [set]; rfl⟩, fun f h => keeps _ f (hasFlag_setFlag (.inr h)), fun h => absurd h jam,
        fun _ => ⟨keeps _ _ (hasFlag_setFlag (.inl rfl)), ?_⟩⟩
      rw [counts]
      rfl
    · have e : faultMarks u cause safety n = last n := by
        simp only [faultMarks, jam, timeout, if_false, last]
      rw [e]
      exact ⟨sets n, keeps n, fun h => absurd h jam, fun h => absurd h timeout⟩

/-- The part of a unit that has faulted, its entries not yet ended. -/
def MovePart.faulted (c : UnitCfg) (cause : FaultCause) (now : Nat) (p : MovePart) : MovePart :=
  MovePart.released { p with
    bridge := coasting now p.bridge
    unit := atRest .fault cause (estimate c p.unit now) { p.unit with pos := estimate c p.unit now } }

theorem faultUnit_eq (c : UnitCfg) (u : MotionUnit) (cause : FaultCause) (o : MoveOutcome) (n : Node) (p : MovePart) :
    ∃ safety, faultUnit c u cause o (n.putMove u p) =
      faultMarks u cause safety (endAll u o (n.putMove u (p.faulted c cause n.now))) := by
  refine ⟨(findEntry u .active false (n.putMove u p)).isSome, ?_⟩
  have rests : releaseClaim (slotUnit u) ((upToDate c u (bridgeCoast u (n.putMove u p))).setUnit u
      (atRest .fault cause ((upToDate c u (bridgeCoast u (n.putMove u p))).unit u).pos
        ((upToDate c u (bridgeCoast u (n.putMove u p))).unit u))) = n.putMove u (p.faulted c cause n.now) := by
    simp only [bridgeCoast_eq, bridge_putMove, now_putMove, putMove_setBridge, upToDate_putMove, unit_putMove,
      putMove_setUnit, releaseClaim_putMove]
    rfl
  unfold faultUnit faultMarks
  dsimp only
  rw [rests]

theorem faultUnit_putMove (c : UnitCfg) (u : MotionUnit) (cause : FaultCause) (o : MoveOutcome) (n : Node)
    (p : MovePart) : ∃ safety tag out, faultUnit c u cause o (n.putMove u p) = faultMarks u cause safety (n.putMove u
      { p.faulted c cause n.now with
        list := p.list.filter fun e => e.unit != u
        unit := (p.faulted c cause n.now).unit.reports tag out }) := by
  obtain ⟨safety, e⟩ := faultUnit_eq c u cause o n p
  obtain ⟨tag, out, ends⟩ := endAll_putMove u o n (p.faulted c cause n.now)
  refine ⟨safety, tag, out, ?_⟩
  rw [e, ends]
  simp only [MovePart.faulted, released_list]

/-- A fault of a unit with a single command entry under way. -/
theorem faultUnit_single {c : UnitCfg} {u : MotionUnit} {cause : FaultCause} {o : MoveOutcome} {n : Node}
    {p : MovePart} {a : Action} {station tag : Nat} (list : p.list = [⟨u, a, .command station tag, .active⟩]) :
    ∃ safety, faultUnit c u cause o (n.putMove u p) = faultMarks u cause safety (n.putMove u
      { p.faulted c cause n.now with list := [], unit := (p.faulted c cause n.now).unit.reports tag o }) := by
  obtain ⟨safety, e⟩ := faultUnit_eq c u cause o n p
  have single : (p.faulted c cause n.now).list = [⟨u, a, .command station tag, .active⟩] := by
    simp only [MovePart.faulted, released_list, list]
  exact ⟨safety, by rw [e, endAll_single single]⟩

/-- What O45 says of a faulted unit, from a node with the flags alone written before. -/
theorem faultUnit_faults (c : UnitCfg) (u : MotionUnit) (cause : FaultCause) (o : MoveOutcome) (n : Node) :
    let m := faultUnit c u cause o n
    (m.unit u).state = .fault ∧ (m.unit u).cause = cause ∧ (m.unit u).pos = estimate c (n.unit u) n.now ∧
    (m.unit u).run = none ∧ (m.unit u).jam = none ∧ (m.claim (slotUnit u)).state = .idle ∧
    (∀ e ∈ m.motion.list, e.unit ≠ u) ∧ (∀ e ∈ n.motion.list, e.unit ≠ u → e ∈ m.motion.list) ∧
    m.bridge u = coasting n.now (n.bridge u) ∧
    m = { n with motion := m.motion, claims := m.claims, bank := m.bank, ev := m.ev, cmd := m.cmd } ∧
    (∀ f, hasFlag f n = true → hasFlag f m = true) ∧
    (cause = .jam → hasFlag .motionJam m = true ∧ counter .jams m = min (counter .jams n + 1) 65535) ∧
    (cause = .timeout → hasFlag .motionTimeout m = true ∧ counter .jams m = counter .jams n) := by
  obtain ⟨safety, tag, out, e⟩ := faultUnit_putMove c u cause o n (n.movePart u)
  rw [putMove_self] at e
  obtain ⟨⟨d, set⟩, keeps, jams, times⟩ := faultMarks_spec u cause safety (n.putMove u
    { (n.movePart u).faulted c cause n.now with
      list := (n.movePart u).list.filter fun e => e.unit != u
      unit := ((n.movePart u).faulted c cause n.now).unit.reports tag out })
  rw [← e] at set keeps jams times
  have parts (q : MovePart) : ((n.putMove u q).setCmd d).unit u = q.unit ∧
      ((n.putMove u q).setCmd d).bridge u = q.bridge ∧ ((n.putMove u q).setCmd d).motion.list = q.list ∧
      ((n.putMove u q).setCmd d).claim (slotUnit u) = q.claim :=
    ⟨unit_putMove .., bridge_putMove .., list_putMove .., claim_putMove ..⟩
  have same (q : MovePart) (f : Flag) (k : Counter) :
      hasFlag f (n.putMove u q) = hasFlag f n ∧ counter k (n.putMove u q) = counter k n := by
    cases u <;> exact ⟨rfl, rfl⟩
  dsimp only
  obtain ⟨unit, bridge, list, claim⟩ := parts { (n.movePart u).faulted c cause n.now with
      list := (n.movePart u).list.filter fun e => e.unit != u
      unit := ((n.movePart u).faulted c cause n.now).unit.reports tag out }
  rw [← set] at unit bridge list claim
  rw [unit, bridge, list, claim]
  have record : ((n.movePart u).faulted c cause n.now).unit = atRest .fault cause (estimate c (n.unit u) n.now)
      { n.unit u with pos := estimate c (n.unit u) n.now } := by
    simp only [MovePart.faulted, released_unit, movePart_unit]
  have coasts : ((n.movePart u).faulted c cause n.now).bridge = coasting n.now (n.bridge u) := by
    simp only [MovePart.faulted, released_bridge, movePart_bridge]
  dsimp only
  rw [record, coasts]
  refine ⟨rfl, rfl, rfl, rfl, rfl, released_idle _, fun e mem => ?_, fun e mem other => ?_, rfl, ?_, fun f h => ?_,
    fun h => ?_, fun h => ?_⟩
  · simpa using (List.mem_filter.mp mem).2
  · exact List.mem_filter.mpr ⟨mem, by simpa using other⟩
  · rw [set]
    exact congrArg (fun m : Node => { m with cmd := d }) (putMove_frame n u _)
  · exact keeps f ((same _ f .jams).1.trans h)
  · obtain ⟨flag, count⟩ := jams h
    exact ⟨flag, by rw [count, (same _ .motionJam .jams).2]⟩
  · obtain ⟨flag, count⟩ := times h
    exact ⟨flag, by rw [count, (same _ .motionJam .jams).2]⟩

/-! ## The moments of a move (R141, R143, R144) -/

/-- Keeping the temperature reading writes the frost monitor's record alone. -/
theorem keepTemp_sets (n : Node) : ∃ f, keepTemp n = n.setFrost f := by
  unfold keepTemp
  split
  · exact ⟨n.frost, rfl⟩
  · split
    · exact ⟨_, rfl⟩
    · exact ⟨n.frost, rfl⟩

theorem onUnit_some {u : MotionUnit} {f : UnitCfg → Node → Node} {n : Node} {c : UnitCfg} (cfg : n.unitCfg u = some c) :
    onUnit u f n = f c n := by simp only [onUnit, cfg]

theorem testUnit_some {u : MotionUnit} {p : UnitCfg → Bool} {n : Node} {c : UnitCfg} (cfg : n.unitCfg u = some c) :
    testUnit u p n = p c := by simp only [testUnit, cfg, Option.any_some]

/-- The end of the coast dwell starts the drive (R141). -/
theorem dwellEnd_acts {s : State} {dt : Nat} {u : MotionUnit} {c : UnitCfg} {p : Nat} (up : (s.found dt).up = true)
    (cfg : (s.found dt).unitCfg u = some c) (state : ((s.found dt).unit u).state = .reversing)
    (at_ : ((s.found dt).unit u).dwellEnd = some p) (due : p ≤ (s.found dt).now) :
    exec (.dwellEnd dt u) s = .next (s.ended dt s.rx (beginDrive u ((s.found dt).unit u).dir (s.found dt))) := by
  change execDwellEnd dt u s = _
  unfold execDwellEnd
  refine nodeEvent_found (fun n => ?_) up ?_
  · obtain ⟨f, e⟩ := keepTemp_sets n
    rw [e]
    cases u <;> rfl
  · rw [testUnit_some cfg]
    simp [state, at_, Node.reached, due]

/-- A drive begun, on the node itself. -/
theorem beginDrive_parts (u : MotionUnit) (d : Dir) (n : Node) : let m := beginDrive u d n
    m = { n with motion := m.motion, bank := m.bank } ∧ m.motion.list = n.motion.list ∧
    m.unit u = driveUnit d n.now (n.unit u) ∧
    ((n.bridge u).state ≠ .fault → dwellComplete n.now (n.bridge u) d = true →
      m.bridge u = driving n.now (n.bridge u) d) := by
  obtain ⟨b, e, -, drives⟩ := beginDrive_putMove u d n (n.movePart u)
  rw [putMove_self] at e
  dsimp only
  rw [e]
  refine ⟨putMove_unclaimed n u _ rfl rfl, by rw [list_putMove]; rfl, by rw [unit_putMove]; rfl, fun sound done => ?_⟩
  rw [bridge_putMove]
  exact drives sound done

/-- A move that ends at its target (R143). -/
theorem targetEnd_single {u : MotionUnit} {c : UnitCfg} {n : Node} {t station tag : Nat}
    (list : n.motion.list = [⟨u, .extendTo t, .command station tag, .active⟩]) (low : 1 ≤ t) (high : t ≤ 999) :
    targetEnd u c n = n.putMove u { MovePart.released { n.movePart u with
      bridge := braking (n.bridge u), unit := atRest .partway .none (some t) (n.unit u) } with
        list := [], unit := (atRest .partway .none (some t) (n.unit u)).reports tag .done } := by
  have entry : (n.movePart u).list.find? (fun e => e.unit == u && e.state == .active) =
      some ⟨u, .extendTo t, .command station tag, .active⟩ := by simp [list]
  have target : activeTarget u n = some t := by
    unfold activeTarget
    rw [show n.motion.list = (n.movePart u).list from rfl, entry]
    simp [low, high]
  have ends := endEntry_putMove (u := u) (e := ⟨u, .extendTo t, .command station tag, .active⟩) (front := [])
    (behind := []) (p := MovePart.released { n.movePart u with
      bridge := braking (n.bridge u), unit := atRest .partway .none (some t) (n.unit u) })
    rfl rfl (by rw [released_list]; exact list) nofun .done n
  unfold targetEnd
  rw [target]
  have whole : bridgeBrake u n = n.putMove u { n.movePart u with bridge := braking (n.bridge u) } := by
    have e := putMove_setBridge n u (n.movePart u) (braking (n.bridge u))
    rw [putMove_self] at e
    rw [bridgeBrake_eq, e]
  unfold finishMove
  simp only [whole, unit_putMove, putMove_setUnit, releaseClaim_putMove, list_putMove, released_list, entry,
    movePart_unit, ends]
  rw [fileNext_of_none (by simp)]
  simp only [List.nil_append, released_unit]

/-- O45's clause on a target reached. -/
theorem targetReached_ends {s : State} {dt : Nat} {u : MotionUnit} {c : UnitCfg} {t q station tag : Nat}
    (up : (s.found dt).up = true) (cfg : (s.found dt).unitCfg u = some c)
    (list : (s.found dt).motion.list = [⟨u, .extendTo t, .command station tag, .active⟩]) (low : 1 ≤ t) (high : t ≤ 999)
    (driven : isDriving ((s.found dt).unit u) = true)
    (where_ : estimate c ((s.found dt).unit u) (s.found dt).now = some q)
    (extend : ((s.found dt).unit u).dir = .extend → t ≤ q) (retract : ((s.found dt).unit u).dir = .retract → q ≤ t) :
    exec (.targetReached dt u) s = .next (s.ended dt s.rx (targetEnd u c (s.found dt))) := by
  rw [← onUnit_some (f := targetEnd u) cfg]
  change execTargetReached dt u s = _
  unfold execTargetReached
  refine nodeEvent_found (fun n => ?_) up ?_
  · obtain ⟨f, e⟩ := keepTemp_sets n
    rw [e]
    cases u <;> rfl
  · rw [testUnit_some cfg]
    have target : activeTarget u (s.found dt) = some t := by simp [activeTarget, list, low, high]
    simp only [targetReached, target, where_, driven, Bool.true_and]
    cases dir : ((s.found dt).unit u).dir
    · simpa using extend dir
    · simpa using retract dir

theorem jam_faults {s : State} {dt : Nat} {u : MotionUnit} {c : UnitCfg} {p : Nat} (up : (s.found dt).up = true)
    (cfg : (s.found dt).unitCfg u = some c) (driven : isDriving ((s.found dt).unit u) = true)
    (at_ : ((s.found dt).unit u).jam = some p) (due : p + 300 ≤ (s.found dt).now) :
    exec (.jam dt u) s = .next (s.ended dt s.rx (faultUnit c u .jam .jam (s.found dt))) := by
  rw [← onUnit_some (f := fun c n => faultUnit c u .jam .jam n) cfg]
  change execJam dt u s = _
  unfold execJam
  refine nodeEvent_found (fun n => ?_) up ?_
  · obtain ⟨f, e⟩ := keepTemp_sets n
    rw [e]
    cases u <;> rfl
  · rw [testUnit_some cfg]
    simp [driven, at_, later, Node.reached, jamTime, due]

theorem timeout_faults {s : State} {dt : Nat} {u : MotionUnit} {c : UnitCfg} {p : Nat} (up : (s.found dt).up = true)
    (cfg : (s.found dt).unitCfg u = some c) (driven : isDriving ((s.found dt).unit u) = true)
    (at_ : ((s.found dt).unit u).run = some p) (due : p + c.travel * 3 / 2 ≤ (s.found dt).now) :
    exec (.motionTimeout dt u) s = .next (s.ended dt s.rx (faultUnit c u .timeout .timeout (s.found dt))) := by
  rw [← onUnit_some (f := fun c n => faultUnit c u .timeout .timeout n) cfg]
  change execMotionTimeout dt u s = _
  unfold execMotionTimeout
  refine nodeEvent_found (fun n => ?_) up ?_
  · obtain ⟨f, e⟩ := keepTemp_sets n
    rw [e]
    cases u <;> rfl
  · rw [testUnit_some cfg]
    simp [driven, at_, later, Node.reached, unitTimeout, due]

/-! ## The bridges (R179, R180) -/

/-- A bridge with its hard fault, and the flag of it. -/
def bridgeDown (u : MotionUnit) (n : Node) : Node := setFlag .bridgeFault
  (n.setBridge u { state := .fault, last := (n.bridge u).last, coastSince := some n.now })

theorem bridgeFault_eq (u : MotionUnit) (c : UnitCfg) (n : Node) : bridgeFault u c n =
    if isMoving (n.unit u) || bridgeDrives u n then faultUnit c u .jam .bridgeFault (bridgeDown u n)
    else bridgeDown u n := rfl

/-- What the hard fault leaves of the node's parts. -/
theorem bridgeDown_parts (u : MotionUnit) (n : Node) : let m := bridgeDown u n
    m.bridge u = { state := .fault, last := (n.bridge u).last, coastSince := some n.now } ∧ m.unit u = n.unit u ∧
    m.motion = n.motion ∧ m.claims = n.claims ∧ m.now = n.now ∧ counter .jams m = counter .jams n ∧
    m = { n with bank := m.bank, cmd := m.cmd } ∧ hasFlag .bridgeFault m = true := by
  have flag : hasFlag .bridgeFault (bridgeDown u n) = true :=
    hasFlag_setFlag (f := .bridgeFault) (g := .bridgeFault) (.inl rfl)
  cases u <;> exact ⟨rfl, rfl, rfl, rfl, rfl, rfl, rfl, flag⟩

theorem overcurrent_acts {s : State} {dt : Nat} {u : MotionUnit} {c : UnitCfg} {mA : Nat} (up : (s.found dt).up = true)
    (cfg : (s.found dt).unitCfg u = some c) (sound : ((s.found dt).bridge u).state ≠ .fault) (high : 30000 < mA) :
    exec (.bridgeOvercurrent dt u mA) s = .next (s.ended dt s.rx (bridgeFault u c (s.found dt))) := by
  rw [← onUnit_some (f := bridgeFault u) cfg]
  change execBridgeOvercurrent dt u mA s = _
  unfold execBridgeOvercurrent
  refine nodeEvent_found (fun n => ?_) up ?_
  · obtain ⟨f, e⟩ := keepTemp_sets n
    rw [e]
    cases u <;> rfl
  · simp [sound, bridgeLimit, high]

/-- O45's clause on a hard fault. -/
theorem bridgeFault_spec {u : MotionUnit} {c : UnitCfg} (n : Node) : let m := bridgeFault u c n
    m.bridge u = { state := .fault, last := (n.bridge u).last, coastSince := some n.now } ∧
    hasFlag .bridgeFault m = true ∧
    m = { n with motion := m.motion, claims := m.claims, bank := m.bank, ev := m.ev, cmd := m.cmd } ∧
    (isMoving (n.unit u) = true ∨ (n.bridge u).state = .forward ∨ (n.bridge u).state = .reverse →
      (m.unit u).state = .fault ∧ (m.unit u).cause = .jam ∧ (m.claim (slotUnit u)).state = .idle ∧
      (∀ e ∈ m.motion.list, e.unit ≠ u) ∧ hasFlag .motionJam m = true ∧
      counter .jams m = min (counter .jams n + 1) 65535) ∧
    (isMoving (n.unit u) = false → (n.bridge u).state = .brake ∨ (n.bridge u).state = .coast →
      m.motion = n.motion ∧ m.claims = n.claims ∧ counter .jams m = counter .jams n) ∧
    (∀ a st tag, isMoving (n.unit u) = true → n.motion.list = [⟨u, a, .command st tag, .active⟩] →
      (m.unit u).outcome = .bridgeFault ∧ (m.unit u).tag = tag) := by
  obtain ⟨bridge, unit, motion, claims, now, jams, frame, flag⟩ := bridgeDown_parts u n
  dsimp only
  rw [bridgeFault_eq]
  by_cases moves : (isMoving (n.unit u) || bridgeDrives u n) = true
  · rw [if_pos moves]
    obtain ⟨state, cause, -, -, -, idle, gone, -, still, whole, keeps, jam, -⟩ :=
      faultUnit_faults c u .jam .bridgeFault (bridgeDown u n)
    obtain ⟨jamFlag, count⟩ := jam rfl
    refine ⟨?_, keeps _ flag, ?_, fun _ => ⟨state, cause, idle, gone, jamFlag, ?_⟩, fun rest halted => ?_,
      fun a st tag _ list => ?_⟩
    · rw [still, coasting_fault (by rw [bridge]), bridge]
    · generalize faultUnit c u .jam .bridgeFault (bridgeDown u n) = m at whole ⊢
      rw [frame] at whole
      exact whole
    · rw [count, jams]
    · rcases halted with h | h <;> simp [rest, bridgeDrives, h] at moves
    · obtain ⟨safety, e⟩ := faultUnit_single (c := c) (u := u) (cause := .jam) (o := .bridgeFault) (n := bridgeDown u n)
        (p := (bridgeDown u n).movePart u) (a := a) (station := st) (tag := tag) (by rw [movePart_list, motion, list])
      obtain ⟨⟨d, set⟩, -⟩ := faultMarks_spec u .jam safety ((bridgeDown u n).putMove u
        { ((bridgeDown u n).movePart u).faulted c .jam (bridgeDown u n).now with
          list := [], unit := (((bridgeDown u n).movePart u).faulted c .jam (bridgeDown u n).now).unit.reports tag
            .bridgeFault })
      rw [putMove_self] at e
      rw [e, set]
      have record (q : MovePart) : (((bridgeDown u n).putMove u q).setCmd d).unit u = q.unit := unit_putMove ..
      rw [record]
      exact ⟨rfl, rfl⟩
  · rw [if_neg moves]
    simp only [Bool.not_eq_true, Bool.or_eq_false_iff] at moves
    refine ⟨bridge, flag, ?_, fun h => ?_, fun _ _ => ⟨motion, claims, jams⟩, fun a st tag moving => ?_⟩
    · rw [frame]
    · obtain ⟨rest, drives⟩ := moves
      rcases h with h | h | h
      · rw [rest] at h
        nomatch h
      · simp [bridgeDrives, h] at drives
      · simp [bridgeDrives, h] at drives
    · rw [moves.1] at moving
      nomatch moving

/-- Settles O45: the moments of a move, then the bridges' events. -/
theorem motionEvents : Obligations.MotionEvents := by
  unfold Obligations.MotionEvents
  constructor
  · rintro s dt n u c p rfl up cfg
    dsimp only
    refine ⟨fun state at_ due => ?_, fun t q st tag list low high driven where_ extend retract sound => ?_,
      fun driven at_ due => ?_, fun driven at_ due => ?_⟩
    · refine ⟨_, dwellEnd_acts up cfg state at_ due, ?_⟩
      obtain ⟨frame, list, unit, drives⟩ := beginDrive_parts u ((s.found dt).unit u).dir (s.found dt)
      refine ⟨frame, list, by rw [unit]; rfl, by rw [unit]; rfl, by rw [unit]; rfl, by rw [unit]; rfl,
        fun t coast since done => ?_⟩
      have complete : dwellComplete (s.found dt).now ((s.found dt).bridge u) ((s.found dt).unit u).dir = true := by
        simp [dwellComplete, since, coastDwell, done]
      rw [drives (by rw [coast]; decide) complete]
      exact ⟨rfl, rfl⟩
    · refine ⟨_, targetReached_ends up cfg list low high driven where_ extend retract, ?_⟩
      rw [targetEnd_single list low high]
      simp only [bridge_putMove, unit_putMove, claim_putMove, list_putMove, released_bridge, released_idle]
      exact ⟨braking_state sound, rfl, rfl, rfl, rfl, trivial, trivial, putMove_frame ..⟩
    · refine ⟨_, jam_faults up cfg driven at_ due, ?_⟩
      obtain ⟨state, cause, pos, run, jam, idle, gone, others, bridge, frame, -, jams, -⟩ :=
        faultUnit_faults c u .jam .jam (s.found dt)
      obtain ⟨flag, count⟩ := jams rfl
      exact ⟨⟨state, cause, pos, run, jam, idle, gone, others, fun sound => by rw [bridge]; exact coasting_state sound,
        frame⟩, flag, count⟩
    · refine ⟨_, timeout_faults up cfg driven at_ due, ?_⟩
      obtain ⟨state, cause, pos, run, jam, idle, gone, others, bridge, frame, -, -, times⟩ :=
        faultUnit_faults c u .timeout .timeout (s.found dt)
      obtain ⟨flag, count⟩ := times rfl
      exact ⟨⟨state, cause, pos, run, jam, idle, gone, others, fun sound => by rw [bridge]; exact coasting_state sound,
        frame⟩, flag, count⟩
  · rintro s dt n u mA rfl up
    refine ⟨fun c d cfg drives at_ => ?_, fun c cfg sound high => ?_, fun d t coast pending since done => ?_⟩
    · have reads (n : Node) : (bridgeDrives u (keepTemp n) && (keepTemp n).reached ((keepTemp n).bridge u).due) =
          (bridgeDrives u n && n.reached (n.bridge u).due) := by
        obtain ⟨f, e⟩ := keepTemp_sets n
        rw [e]
        cases u <;> rfl
      have moving : bridgeDrives u (s.found dt) = true := by simpa [bridgeDrives] using drives
      refine ⟨fun due => ?_, fun early => ?_⟩
      · change execBridgeCurrentReading dt u mA s = _
        unfold execBridgeCurrentReading
        refine (nodeEvent_found reads up ?_).trans ?_
        · rw [moving, at_]
          exact reached_iff.mpr due
        · rw [onUnit_some cfg]
          unfold currentReading jamReading
          dsimp only
          rw [at_]
          cases u <;> rfl
      · change execBridgeCurrentReading dt u mA s = _
        unfold execBridgeCurrentReading
        refine nodeEvent_waits reads ?_
        rw [moving, at_]
        simpa [Node.reached] using early
    · exact ⟨_, overcurrent_acts up cfg sound high, bridgeFault_spec _⟩
    · have body : (fun n : Node => match (n.bridge u).pending with
          | some d => n.setBridge u (driving n.now (n.bridge u) d)
          | none => n) (s.found dt) = (s.found dt).setBridge u
          { state := driveState d, last := some d, coastSince := none, pending := none
            due := some ((s.found dt).now + 10) } := by
        have still : ¬ BridgeState.coast = driveState d := by cases d <;> decide
        simp only [pending, driving, coast, if_neg still]
        rfl
      rw [← body]
      change execBridgeDwellComplete dt u s = _
      unfold execBridgeDwellComplete
      refine nodeEvent_found (fun n => ?_) up ?_
      · obtain ⟨f, e⟩ := keepTemp_sets n
        rw [e]
        cases u <;> rfl
      · simp [dwellDone, pending, coast, since, later, coastDwell, Node.reached, done]

end Sys2Proof.Machine
end

section
/-!
# Proofs: pulses and wind (section 7.7, R172)
-/
namespace Sys2Proof.Machine

/-! ## The counts (R149, R172) -/

theorem chan_setWind (n : Node) (w : Wind) (i : Fin 16) : (n.setWind w).chan i = n.chan i := rfl

/-- The count of the wind's own channel enters its record. -/
theorem handCount_wind {n : Node} {c : WindCfg} (cfg : n.windCfg = some c) : handCount c.channel n =
    (n.setChan c.channel { n.chan c.channel with count := 0, due := later (n.chan c.channel).due quarter }).setWind
      { n.wind with counts := keepCount (n.chan c.channel).count n.wind.counts } := by
  have mine : (n.setChan c.channel { n.chan c.channel with count := 0, due := later (n.chan c.channel).due quarter }).windCfg
      = some c := cfg
  unfold handCount
  dsimp only
  rw [mine]
  exact if_pos (by simp)

theorem handCount_other {n : Node} {c : WindCfg} {ch : Fin 16} (cfg : n.windCfg = some c) (other : ch ≠ c.channel) :
    handCount ch n = n.setChan ch { n.chan ch with count := 0, due := later (n.chan ch).due quarter } := by
  have mine : (n.setChan ch { n.chan ch with count := 0, due := later (n.chan ch).due quarter }).windCfg = some c := cfg
  unfold handCount
  dsimp only
  rw [mine]
  exact if_neg (by simpa using Ne.symm other)

theorem pulsePeriod_acts {s : State} {dt : Nat} {ch : Fin 16} {d : Nat} (up : (s.found dt).up = true)
    (role : (s.found dt).role ch = .pulse) (at_ : ((s.found dt).chan ch).due = some d) (due : d ≤ (s.found dt).now) :
    exec (.pulseCountPeriod dt ch) s = .next (s.ended dt s.rx (handCount ch (s.found dt))) := by
  change execPulseCountPeriod dt ch s = _
  unfold execPulseCountPeriod
  refine nodeEvent_found (fun n => ?_) up ?_
  · obtain ⟨f, e⟩ := keepTemp_sets n
    rw [e]
    rfl
  · simp [role, at_, Node.reached, due]

/-! ## The evaluation (R149, R150) -/

/-- The wind's record after an evaluation. -/
def windTaken (c : WindCfg) (w : Wind) (now : Nat) : Wind :=
  { w with
    speed := windSpeed c.factor w.counts
    gust := if c.limit ≤ windSpeed c.factor w.counts then w.gust + 1 else 0
    lockoutEnd := if gustRun ≤ (if c.limit ≤ windSpeed c.factor w.counts then w.gust + 1 else 0)
      then some (now + lockoutTime) else w.lockoutEnd
    due := later w.due quarter }

theorem evaluateWind_eq (c : WindCfg) (n : Node) :
    evaluateWind c n = refreshWind (n.setWind (windTaken c n.wind n.now)) := rfl

/-- With the view as it should be, deriving it anew changes nothing. -/
theorem refreshWind_same {n : Node} (h : (n.ownWind || n.view.peers.any (·.wind)) = n.view.wind) : refreshWind n = n :=
  if_pos h

/-- The end of a wind view tells nobody. -/
theorem refreshWind_ends {n : Node} (off : (n.ownWind || n.view.peers.any (·.wind)) = false) (on : n.view.wind = true) :
    refreshWind n = n.setView { n.view with wind := false } := by
  unfold refreshWind
  simp [off, on]

/-- Settles O46: the count handed over, the evaluation of the eight counts, and the end of the lockout. -/
theorem windRows : Obligations.WindRows := by
  unfold Obligations.WindRows
  rintro s dt n c d rfl up cfg due
  refine ⟨fun role at_ => ?_, fun ch other role at_ => ?_, fun at_ duty => ?_, fun at_ => ?_⟩
  · refine ⟨_, pulsePeriod_acts up role at_ due, ?_⟩
    rw [handCount_wind cfg, at_]
    refine ⟨rfl, Node.chan_setChan_self .., fun ch other => ?_, fun short => ?_, fun full => ?_⟩
    · rw [chan_setWind, Node.chan_setChan, if_neg (Ne.symm other)]
    · simp [keepCount, show ¬ 8 ≤ (s.found dt).wind.counts.length by omega]
    · simp [keepCount, full]
  · rw [pulsePeriod_acts up role at_ due, handCount_other cfg other, at_]
    rfl
  · have acts : exec (.windEvaluation dt) s = .next (s.ended dt s.rx (evaluateWind c (s.found dt))) := by
      have body : (fun n : Node => match n.windCfg with
          | some c => evaluateWind c n
          | none => n) (s.found dt) = evaluateWind c (s.found dt) := by simp only [cfg]
      rw [← body]
      change execWindEvaluation dt s = _
      unfold execWindEvaluation
      exact nodeEvent_found (fun n => by simp) up (by rw [at_]; exact reached_iff.mpr due)
    generalize s.found dt = n at at_ duty acts ⊢
    dsimp only
    refine ⟨_, acts, ?_⟩
    have taken : windTaken c n.wind n.now =
        { counts := n.wind.counts, speed := min (n.wind.counts.sum * c.factor / 20) 65535
          gust := if c.limit ≤ min (n.wind.counts.sum * c.factor / 20) 65535 then n.wind.gust + 1 else 0
          due := some (d + 250)
          lockoutEnd := if 13 ≤ (if c.limit ≤ min (n.wind.counts.sum * c.factor / 20) 65535 then n.wind.gust + 1 else 0)
            then some (n.now + 600000) else n.wind.lockoutEnd } := by
      unfold windTaken
      rw [at_]
      rfl
    have keeps := refreshWind_keeps (n.setWind (windTaken c n.wind n.now))
    have own : (n.setWind (windTaken c n.wind n.now)).ownWind = (windTaken c n.wind n.now).lockoutEnd.isSome := by
      have held : (n.setWind (windTaken c n.wind n.now)).has .wind = true := duty
      unfold Node.ownWind
      rw [held]
      rfl
    have record : (evaluateWind c n).wind = windTaken c n.wind n.now := keeps.wind
    have view : (evaluateWind c n).view = { n.view with
        wind := (windTaken c n.wind n.now).lockoutEnd.isSome || n.view.peers.any (·.wind) } := by
      rw [← own]
      exact keeps.view
    rw [record, view]
    refine ⟨taken, rfl, rfl, keeps.tx, keeps.battery, fun calm same => ?_⟩
    have still : (windTaken c n.wind n.now).lockoutEnd = n.wind.lockoutEnd := by
      rw [taken]
      exact if_neg (not_le.mpr calm)
    rw [evaluateWind_eq]
    refine refreshWind_same ?_
    rw [own, still]
    exact same.symm
  · have acts : exec (.windLockoutEnd dt) s = .next (s.ended dt s.rx
        (refreshWind ((s.found dt).setWind { (s.found dt).wind with lockoutEnd := none }))) := by
      change execWindLockoutEnd dt s = _
      unfold execWindLockoutEnd
      exact nodeEvent_found (fun n => by simp) up (by rw [at_]; exact reached_iff.mpr due)
    generalize s.found dt = n at acts ⊢
    refine ⟨_, acts, ?_⟩
    have keeps := refreshWind_keeps (n.setWind { n.wind with lockoutEnd := none })
    have own : (n.setWind { n.wind with lockoutEnd := none }).ownWind = false := Bool.and_false _
    have view : (refreshWind (n.setWind { n.wind with lockoutEnd := none })).view =
        { n.view with wind := n.view.peers.any (·.wind) } := by
      have v := keeps.view
      rw [own] at v
      exact v
    have record := keeps.wind
    rw [view, record]
    refine ⟨rfl, rfl, fun on => ?_⟩
    cases peers : n.view.peers.any (·.wind)
    · have off : ((n.setWind { n.wind with lockoutEnd := none }).ownWind || n.view.peers.any (·.wind)) = false := by
        rw [own, peers]
        rfl
      rw [refreshWind_ends (n := n.setWind { n.wind with lockoutEnd := none }) off on]
      rfl
    · rw [refreshWind_same (n := n.setWind { n.wind with lockoutEnd := none })]
      · rw [← on]
        rfl
      · rw [own]
        exact (congrArg (false || ·) peers).trans on.symm

end Sys2Proof.Machine
end

section
/-!
# Proofs: move requests (section 7.3)

A request writes motion, claims and bank alone (`MoveActs`). `placeRequest` and `safetyRequest` by what the list holds of
the unit, each an equation on the part that the unit's operations write (`MovePart`).
-/
namespace Sys2Proof.Machine

/-! ## What a request leaves -/

/-- `m` comes from `n` by operations of the motion controller. -/
def MoveActs (n m : Node) : Prop :=
  ∃ v k x y w, m = { n with
    motion := v, claims := k, bank := { n.bank with bridgeA := x, bridgeB := y }, ev := { n.ev with wait := w } }

namespace MoveActs

variable {a n : Node}

theorem refl (n : Node) : MoveActs n n := ⟨n.motion, n.claims, n.bank.bridgeA, n.bank.bridgeB, n.ev.wait, rfl⟩

theorem frame {m : Node} (h : MoveActs n m) :
    m = { n with motion := m.motion, claims := m.claims, bank := m.bank, ev := m.ev } := by
  obtain ⟨v, k, x, y, w, rfl⟩ := h
  rfl

theorem reply {m : Node} (h : MoveActs n m) : m.ev.reply = n.ev.reply := by
  obtain ⟨v, k, x, y, w, rfl⟩ := h
  rfl

theorem setUnit {u m} (h : MoveActs a n) : MoveActs a (n.setUnit u m) := by
  obtain ⟨v, k, x, y, w, rfl⟩ := h
  cases u <;> exact ⟨_, k, x, y, w, rfl⟩

theorem setBridge {u m} (h : MoveActs a n) : MoveActs a (n.setBridge u m) := by
  obtain ⟨v, k, x, y, w, rfl⟩ := h
  cases u <;> exact ⟨v, k, _, _, w, rfl⟩

theorem setList {l} (h : MoveActs a n) : MoveActs a (n.setList l) := by
  obtain ⟨v, k, x, y, w, rfl⟩ := h
  exact ⟨_, k, x, y, w, rfl⟩

theorem putClaim {i c w} (h : MoveActs a n) : MoveActs a (n.putClaim i c w) := by
  obtain ⟨v, k, x, y, w', rfl⟩ := h
  exact ⟨v, k.set i c, x, y, w, rfl⟩

theorem fileClaim {i k w d} (h : MoveActs a n) : MoveActs a (fileClaim i k w d n) := by
  obtain ⟨c, b, e⟩ := fileClaim_puts i k w d n
  rw [e]
  exact h.putClaim

theorem releaseClaim {i} (h : MoveActs a n) : MoveActs a (releaseClaim i n) := by
  obtain ⟨c, b, e⟩ := releaseClaim_puts i n
  rw [e]
  exact h.putClaim

theorem bridgeBrake {u} (h : MoveActs a n) : MoveActs a (bridgeBrake u n) := by
  rw [bridgeBrake_eq]
  exact h.setBridge

theorem startMove {u d} (h : MoveActs a n) : MoveActs a (startMove u d n) := by
  obtain ⟨m, b, e, -⟩ := startMove_puts u d n
  rw [e]
  exact h.setUnit.setBridge

theorem beginDrive {u d} (h : MoveActs a n) : MoveActs a (beginDrive u d n) := by
  obtain ⟨b, e⟩ := bridgeDrive_puts u d n
  unfold Machine.beginDrive
  rw [e]
  exact MoveActs.setUnit (n := n.putUnit u _ b) h.setUnit.setBridge

theorem beginDwell {u d} (h : MoveActs a n) : MoveActs a (beginDwell u d n) := by
  unfold Machine.beginDwell
  rw [bridgeCoast_eq]
  exact h.setBridge.setUnit

theorem report {e o} (h : MoveActs a n) : MoveActs a (report e o n) := by
  unfold Machine.report
  split
  · exact h.setUnit
  · exact h

theorem endEntry {e o} (h : MoveActs a n) : MoveActs a (endEntry e o n) := h.setList.report

theorem fileHead {c u} (h : MoveActs a n) : MoveActs a (fileHead c u n) := by
  unfold Machine.fileHead
  dsimp only
  split
  · exact h
  · split_ifs
    · exact h
    · exact h.endEntry
    · exact h.fileClaim.setList.setUnit
    · exact h.fileClaim.setList.startMove

theorem fileNext {c u} (h : MoveActs a n) : MoveActs a (fileNext c u n) := h.fileHead.fileHead.fileHead.fileHead

theorem finishMove {c u r} (h : MoveActs a n) : MoveActs a (finishMove c u r n) := by
  have released : MoveActs a (Machine.releaseClaim (slotUnit u) (n.setUnit u (r (n.unit u)))) := h.setUnit.releaseClaim
  unfold Machine.finishMove
  refine fileNext ?_
  split
  · exact released.endEntry
  · exact released

theorem redirect {c u k} (h : MoveActs a n) : MoveActs a (redirect c u k n) := by
  have dated : MoveActs a (Machine.upToDate c u n) := h.setUnit
  unfold Machine.redirect
  dsimp only
  split_ifs
  · exact dated.bridgeBrake.finishMove
  · exact dated
  · exact dated.beginDwell
  · exact dated.beginDrive
  · exact dated.setUnit

theorem placeRequest {c u k o} (h : MoveActs a n) : MoveActs a (placeRequest c u k o n) := by
  unfold Machine.placeRequest
  dsimp only
  repeat' split
  · exact h.report.releaseClaim.setList.fileNext
  · exact h.report.setList.fileNext
  · exact h.report.setList.redirect
  · exact h.setList.fileNext

end MoveActs

/-! ## A takeover of a drive (R142) -/

section
variable {c : UnitCfg} {u : MotionUnit} {n : Node} {p : MovePart}

/-- The part with the position brought up to date. -/
def MovePart.dated (c : UnitCfg) (now : Nat) (p : MovePart) : MovePart :=
  { p with unit := { p.unit with pos := estimate c p.unit now } }

/-- The new action's target is where the unit is. -/
def targetStands (a : Action) (pos : Option Nat) : Bool :=
  match a with
  | .extendTo t => pos == some t
  | _ => false

theorem redirect_eq (a : Action) : redirect c u a (n.putMove u p) =
    if targetStands a (estimate c p.unit n.now) = true then
      finishMove c u (restByStop c (n.putMove u (p.dated c n.now))) (bridgeBrake u (n.putMove u (p.dated c n.now)))
    else if actionDir a (estimate c p.unit n.now) = p.unit.dir then n.putMove u (p.dated c n.now)
    else if isDriving p.unit then
      beginDwell u (actionDir a (estimate c p.unit n.now)) (n.putMove u (p.dated c n.now))
    else if p.bridge.last = some (actionDir a (estimate c p.unit n.now)) then
      beginDrive u (actionDir a (estimate c p.unit n.now)) (n.putMove u (p.dated c n.now))
    else n.putMove u { p.dated c n.now with
      unit := { (p.dated c n.now).unit with dir := actionDir a (estimate c p.unit n.now) } } := by
  unfold redirect
  simp only [upToDate_putMove, unit_putMove, bridge_putMove, putMove_setUnit]
  cases a <;> rfl

/-- What a takeover does that is not at its target already. -/
theorem redirect_turns {a : Action} (away : ∀ t, a = .extendTo t → estimate c p.unit n.now ≠ some t) : ∃ m b,
    redirect c u a (n.putMove u p) = n.putMove u { p with unit := m, bridge := b } ∧
    m.outcome = p.unit.outcome ∧ m.tag = p.unit.tag ∧ m.dir = actionDir a (estimate c p.unit n.now) ∧
    (isMoving p.unit = true → isMoving m = true) ∧
    (actionDir a (estimate c p.unit n.now) = p.unit.dir → b = p.bridge ∧ m.state = p.unit.state) ∧
    (actionDir a (estimate c p.unit n.now) ≠ p.unit.dir → isDriving p.unit = true →
      p.bridge.state = driveState p.unit.dir →
      b.state = .coast ∧ m.state = .reversing ∧ m.dwellEnd = some (n.now + 500)) := by
  have still : ¬ targetStands a (estimate c p.unit n.now) = true := by
    cases a with
    | extendTo t => simpa [targetStands] using away t rfl
    | extend => exact Bool.false_ne_true
    | retract => exact Bool.false_ne_true
  rw [redirect_eq, if_neg still]
  split_ifs with same driven last
  · exact ⟨_, _, rfl, rfl, rfl, same.symm, id, fun _ => ⟨rfl, rfl⟩, fun turn => absurd same turn⟩
  · refine ⟨_, _, beginDwell_putMove .., rfl, rfl, rfl, fun _ => rfl, fun h => absurd h same, fun _ _ drives => ?_⟩
    obtain ⟨coast, since⟩ := coasting_driving (now := n.now) drives
    refine ⟨coast, rfl, ?_⟩
    simp only [dwellUnit, MovePart.dated, since, Option.getD_some]
  · obtain ⟨b, drives, -⟩ := beginDrive_putMove u (actionDir a (estimate c p.unit n.now)) n (p.dated c n.now)
    refine ⟨_, b, drives, rfl, rfl, rfl, fun _ => ?_, fun h => absurd h same, fun _ h => absurd h driven⟩
    cases actionDir a (estimate c p.unit n.now) <;> rfl
  · exact ⟨_, _, rfl, rfl, rfl, rfl, id, fun h => absurd h same, fun _ h => absurd h driven⟩

/-- A takeover at its target already: the move ends there by BRAKE (R143). -/
theorem redirect_arrives {a : Action} {t station tag : Nat} {front behind : List Entry}
    (list : p.list = front ++ ⟨u, .extendTo t, .command station tag, .active⟩ :: behind)
    (before : ∀ e ∈ front, e.unit ≠ u) (after : ∀ e ∈ behind, e.unit ≠ u) (at_ : a = .extendTo t)
    (arrived : estimate c p.unit n.now = some t) : redirect c u a (n.putMove u p) =
      n.putMove u { MovePart.released ⟨p.list, restByStop c n (p.dated c n.now).unit, braking p.bridge, p.claim, p.wait⟩
        with list := front ++ behind, unit := (restByStop c n (p.dated c n.now).unit).reports tag .done } := by
  have entry : p.list.find? (fun e => e.unit == u && e.state == .active) =
      some ⟨u, .extendTo t, .command station tag, .active⟩ := by
    rw [list]
    refine find_mine (u := u) (fun x hit => ?_) before (by simp)
    simp only [Bool.and_eq_true, beq_iff_eq] at hit
    exact hit.1
  have ends := endEntry_putMove (u := u) (e := ⟨u, .extendTo t, .command station tag, .active⟩)
    (p := MovePart.released ⟨p.list, restByStop c n (p.dated c n.now).unit, braking p.bridge, p.claim, p.wait⟩)
    rfl rfl (by rw [released_list]; exact list) before .done n
  have still : targetStands a (estimate c p.unit n.now) = true := by simp [targetStands, at_, arrived]
  rw [redirect_eq, if_pos still]
  unfold finishMove
  have stops : restByStop c (n.putMove u (p.dated c n.now)) = restByStop c n := funext fun m => restByStop_putMove ..
  have braked : (p.dated c n.now).bridge = p.bridge := rfl
  have listed : (p.dated c n.now).list = p.list := rfl
  have claimed : (p.dated c n.now).claim = p.claim := rfl
  have waits : (p.dated c n.now).wait = p.wait := rfl
  simp only [bridgeBrake_eq, bridge_putMove, putMove_setBridge, unit_putMove, putMove_setUnit, releaseClaim_putMove,
    list_putMove, released_list, stops, braked, listed, claimed, waits, entry]
  rw [ends, fileNext_of_none]
  · simp only [released_unit]
  · intro x mem
    rw [list_putMove] at mem
    exact (List.mem_append.mp mem).elim (before x) (after x)

end

end Sys2Proof.Machine
end

section
/-!
# Proofs: the move commands (R136, R137, R140, R142)
-/
namespace Sys2Proof.Machine

section
variable {c : UnitCfg} {u : MotionUnit} {n : Node} {p : MovePart} {a a' : Action} {o : Origin} {station tag : Nat}
  {front behind : List Entry}

/-! ## Where a request is placed (R137) -/

/-- With no entry of the unit in the list the request is appended. -/
theorem placeRequest_free (others : ∀ e ∈ p.list, e.unit ≠ u) : placeRequest c u a o (n.putMove u p) =
    fileNext c u (n.putMove u { p with list := p.list ++ [⟨u, a, o, .queued⟩] }) := by
  have absent (s : EntryState) : findEntry u s true (n.putMove u p) = Option.none :=
    findEntry_absent (by rw [list_putMove]; exact others)
  unfold placeRequest
  simp only [absent, list_putMove, putMove_setList]

/-- A waiting entry is replaced in its place, and its claim released. -/
theorem placeRequest_waiting (list : p.list = front ++ ⟨u, a', .command station tag, .waitingEnergy⟩ :: behind)
    (before : ∀ e ∈ front, e.unit ≠ u) : placeRequest c u a o (n.putMove u p) = fileNext c u (n.putMove u
      { MovePart.released { p with unit := p.unit.reports tag .replaced } with
        list := front ++ ⟨u, a, o, .queued⟩ :: behind }) := by
  have entry : findEntry u .waitingEnergy true (n.putMove u p) = some ⟨u, a', .command station tag, .waitingEnergy⟩ :=
    findEntry_hit (by rw [list_putMove, list]) before rfl rfl rfl
  unfold placeRequest
  simp only [entry]
  rw [report_putMove (u := u) (e := ⟨u, a', .command station tag, .waitingEnergy⟩) rfl rfl, releaseClaim_putMove,
    list_putMove, released_list, list, replaceEntry_mid before, putMove_setList]

/-- An entry under way is taken over in its place (R142). -/
theorem placeRequest_active (list : p.list = front ++ ⟨u, a', .command station tag, .active⟩ :: behind)
    (before : ∀ e ∈ front, e.unit ≠ u) (after : ∀ e ∈ behind, e.unit ≠ u) :
    placeRequest c u a o (n.putMove u p) = redirect c u a (n.putMove u
      { p with list := front ++ ⟨u, a, o, .active⟩ :: behind, unit := p.unit.reports tag .replaced }) := by
  have entry : findEntry u .active true (n.putMove u p) = some ⟨u, a', .command station tag, .active⟩ :=
    findEntry_hit (by rw [list_putMove, list]) before rfl rfl rfl
  have miss (s : EntryState) (h : s ≠ .active) : findEntry u s true (n.putMove u p) = Option.none :=
    findEntry_miss (by rw [list_putMove, list]) before after (.inl (Ne.symm h))
  unfold placeRequest
  simp only [entry, miss .waitingEnergy (by decide), miss .queued (by decide)]
  rw [report_putMove (u := u) (e := ⟨u, a', .command station tag, .active⟩) rfl rfl, list_putMove, list,
    replaceEntry_mid before, putMove_setList]

/-- An entry that waits behind a safety move is replaced in its place. -/
theorem placeRequest_behind {middle : List Entry} (safety : o = .travel ∨ o = .wind) {o' : Origin}
    (list : p.list = front ++ ⟨u, .retract, o, .active⟩ :: middle ++ ⟨u, a', .command station tag, .queued⟩ :: behind)
    (before : ∀ e ∈ front, e.unit ≠ u) (between : ∀ e ∈ middle, e.unit ≠ u) (after : ∀ e ∈ behind, e.unit ≠ u) :
    placeRequest c u a o' (n.putMove u p) = n.putMove u { p with
      list := front ++ ⟨u, .retract, o, .active⟩ :: middle ++ ⟨u, a, o', .queued⟩ :: behind
      unit := p.unit.reports tag .replaced } := by
  have origin : isCommand ⟨u, .retract, o, .active⟩ = false := by rcases safety with rfl | rfl <;> rfl
  have misses (s : EntryState) : ∀ x ∈ front ++ ⟨u, .retract, o, .active⟩ :: middle,
      ¬ (x.unit == u && x.state == s && isCommand x == true) = true := by
    intro x mem hit
    simp only [Bool.and_eq_true, beq_iff_eq] at hit
    rcases List.mem_append.mp mem with mem | mem
    · exact before x mem hit.1.1
    · rcases List.mem_cons.mp mem with rfl | mem
      · rw [origin] at hit
        exact Bool.false_ne_true hit.2
      · exact between x mem hit.1.1
  have entry : findEntry u .queued true (n.putMove u p) = some ⟨u, a', .command station tag, .queued⟩ := by
    unfold findEntry
    rw [list_putMove, list, List.find?_append, List.find?_eq_none.mpr (misses .queued)]
    simp [isCommand]
  have waits : findEntry u .waitingEnergy true (n.putMove u p) = Option.none := by
    unfold findEntry
    rw [list_putMove, list]
    refine List.find?_eq_none.mpr fun x mem hit => ?_
    rcases List.mem_append.mp mem with mem | mem
    · exact misses _ x mem hit
    · simp only [Bool.and_eq_true, beq_iff_eq] at hit
      rcases List.mem_cons.mp mem with rfl | mem
      · nomatch hit.1.2
      · exact after x mem hit.1.1
  have replaced : replaceEntry ⟨u, a', .command station tag, .queued⟩ ⟨u, a, o', .queued⟩ p.list =
      front ++ ⟨u, .retract, o, .active⟩ :: middle ++ ⟨u, a, o', .queued⟩ :: behind := by
    rw [list]
    have other : ∀ x ∈ front ++ ⟨u, .retract, o, .active⟩ :: middle,
        x ≠ (⟨u, a', .command station tag, .queued⟩ : Entry) := by
      rintro x mem rfl
      exact misses .queued _ mem (by simp [isCommand])
    generalize front ++ ⟨u, .retract, o, .active⟩ :: middle = l at other ⊢
    induction l with
    | nil => exact if_pos rfl
    | cons x l ih =>
      exact (if_neg (other x (List.mem_cons_self ..))).trans
        (congrArg (x :: ·) (ih fun y mem => other y (List.mem_cons_of_mem x mem)))
  unfold placeRequest
  simp only [waits, entry]
  rw [report_putMove (u := u) (e := ⟨u, a', .command station tag, .queued⟩) rfl rfl, list_putMove, putMove_setList]
  rw [fileNext_still (front := front) (e := ⟨u, .retract, o, .active⟩)
    (behind := middle ++ ⟨u, a, o', .queued⟩ :: behind) ?_ before rfl (by simp)]
  · rw [replaced]
  · rw [list_putMove, replaced, List.append_assoc]
    rfl

/-- Behind a safety move the request waits at the end of the list. -/
theorem placeRequest_after (safety : o = .travel ∨ o = .wind) {o' : Origin}
    (list : p.list = front ++ ⟨u, .retract, o, .active⟩ :: behind)
    (before : ∀ e ∈ front, e.unit ≠ u) (after : ∀ e ∈ behind, e.unit ≠ u) :
    placeRequest c u a o' (n.putMove u p) = n.putMove u { p with list := p.list ++ [⟨u, a, o', .queued⟩] } := by
  have origin : isCommand ⟨u, .retract, o, .active⟩ = false := by rcases safety with rfl | rfl <;> rfl
  have absent (s : EntryState) : findEntry u s true (n.putMove u p) = Option.none :=
    findEntry_miss (by rw [list_putMove, list]) before after (.inr (by rw [origin]; decide))
  unfold placeRequest
  simp only [absent, list_putMove, putMove_setList]
  refine fileNext_still (front := front) (e := ⟨u, .retract, o, .active⟩) (behind := behind ++ [⟨u, a, o', .queued⟩])
    ?_ before rfl (by simp)
  rw [list_putMove, list, List.append_assoc]
  rfl

/-! ## Where the unit stands (R140) -/

theorem standsThere_putMove (pos : p.unit.pos = (n.unit u).pos) :
    standsThere c a u (n.putMove u p) = standsThere c a u n := by
  cases a
  · exact extStop_putMove ..
  · exact retStop_putMove ..
  · simp only [standsThere, unit_putMove, pos]

end

/-! ## The commands heard -/

/-- What a move command's first argument names. -/
theorem actionOf_byte {u : MotionUnit} {args : List Byte} {a : Action} (h : actionOf u args = some a) :
    (a = .extend ∧ byteAt args 0 = 1) ∨ (a = .retract ∧ byteAt args 0 = 2) ∨
      ∃ t, a = .extendTo t ∧ byteAt args 0 = 4 ∧ u = .awning := by
  unfold actionOf at h
  split_ifs at h with one two four
  · exact .inl ⟨(Option.some.inj h).symm, one⟩
  · exact .inr (.inl ⟨(Option.some.inj h).symm, two⟩)
  · exact .inr (.inr ⟨_, (Option.some.inj h).symm, four.1, four.2.1⟩)

/-- A move command heard is acted on. -/
theorem moveRow_acts {s : State} {dt : Nat} {x : RxFrame} {rest : List RxFrame} {b : CommandBody} {u : MotionUnit}
    {a : Action} {row : Instr} (h : Heard s dt (unitCode u) x rest b) (held : (s.admitted dt x).has (unitDuty u) = true)
    (length : motionLength b.args = true) (action : actionOf u b.args = some a) (is : moveRow dt u a = some row) :
    exec row s = .next (s.ended dt (s.rx.without rest)
      ((s.admitted dt x).carry x b (moveAct u x.source b (s.admitted dt x)))) := by
  have runs : ∃ mine : Nat → Bool, exec row s = motionCommand dt u mine (moveAct u) s ∧
      mine (byteAt b.args 0) = true := by
    rcases actionOf_byte action with ⟨rfl, byte⟩ | ⟨rfl, byte⟩ | ⟨t, rfl, byte, rfl⟩
    · cases u <;> cases is
      · exact ⟨fun k => k != 2 && k != 3 && k != 4, rfl, by rw [byte]; rfl⟩
      · exact ⟨fun k => k != 2 && k != 3, rfl, by rw [byte]; rfl⟩
    · cases u <;> cases is
      · exact ⟨(· == 2), rfl, by rw [byte]; rfl⟩
      · exact ⟨(· == 2), rfl, by rw [byte]; rfl⟩
    · cases is
      exact ⟨(· == 4), rfl, by rw [byte]; rfl⟩
  obtain ⟨mine, e, hit⟩ := runs
  rw [e]
  exact commandEvent_carries h hit length held

/-- A move command by the checks of R136. -/
theorem moveAct_cases {u : MotionUnit} {c : UnitCfg} {a : Action} {b : CommandBody} {k : Node}
    (cfg : k.unitCfg u = some c) (action : actionOf u b.args = some a) (source : Nat) :
    let unable : Prop := k.isActive = false ∨ (k.unit u).state = .fault ∨ (needsPosition a = true ∧ (k.unit u).pos = none)
    let blocked : Prop := isExtend a = true ∧ (k.view.travel = true ∨ (u = .awning ∧ k.view.wind = true))
    (unable → moveAct u source b k = give .refusedState k) ∧
    (¬ unable → blocked → moveAct u source b k = give .refusedInterlock k) ∧
    (¬ unable → ¬ blocked → moveAct u source b k = give .accepted (placeRequest c u a (.command source b.tag) k)) := by
  dsimp only
  have unable : (k.isActive = false ∨ (k.unit u).state = .fault ∨ (needsPosition a = true ∧ (k.unit u).pos = none)) ↔
      (!k.isActive || (k.unit u).state == .fault || (needsPosition a && (k.unit u).pos.isNone)) = true := by
    simp [or_assoc]
  have blocked : (isExtend a = true ∧ (k.view.travel = true ∨ (u = .awning ∧ k.view.wind = true))) ↔
      (isExtend a && interlocked u k) = true := by simp [interlocked]
  rw [unable, blocked]
  have acts : moveAct u source b k =
      if !k.isActive || (k.unit u).state == .fault || (needsPosition a && (k.unit u).pos.isNone) then give .refusedState k
      else if isExtend a && interlocked u k then give .refusedInterlock k
      else give .accepted (placeRequest c u a (.command source b.tag) k) := by simp only [moveAct, cfg, action]
  rw [acts]
  exact ⟨fun h => if_pos h, fun h i => (if_neg h).trans (if_pos i), fun h i => (if_neg h).trans (if_neg i)⟩

end Sys2Proof.Machine
end

section
/-!
# Proofs: accepted move requests (R137, R140, R142)

Each clause on an accepted request by what the list holds of the unit.
-/
namespace Sys2Proof.Machine

section
variable {c : UnitCfg} {u : MotionUnit} {k : Node} {a : Action} {source tag : Nat}

/-- With no entry of the unit in the list. -/
theorem accepted_free (active : k.isActive = true) (sound : (k.unit u).state ≠ .fault)
    (others : ∀ e ∈ k.motion.list, e.unit ≠ u) : let m := placeRequest c u a (.command source tag) k
    (standsThere c a u k = true → m.motion.list = k.motion.list ∧ (m.unit u).outcome = .done ∧ (m.unit u).tag = tag ∧
      m.claims = k.claims) ∧
    (standsThere c a u k = false → m.motion.list = k.motion.list ++ [⟨u, a, .command source tag, .waitingEnergy⟩] ∧
      ((m.unit u).dir = actionDir a (k.unit u).pos ∧ (m.unit u).state = (k.unit u).state ∧
        (m.unit u).pos = (k.unit u).pos ∧ m.bank = k.bank) ∧
      ((k.claim (slotUnit u)).state = .idle → m.claim (slotUnit u) =
        { state := .waiting, cls := 2, wanted := unitUnits c, stamp := k.now, deadline := some (k.now + 10000) })) := by
  have placed := placeRequest_free (c := c) (a := a) (o := .command source tag) (n := k) (p := k.movePart u) others
  rw [putMove_self] at placed
  have stands := standsThere_putMove (c := c) (u := u) (n := k) (a := a)
    (p := { k.movePart u with list := k.motion.list ++ [⟨u, a, .command source tag, .queued⟩] }) rfl
  dsimp only
  refine ⟨fun there => ?_, fun away => ?_⟩
  · have whole := placed.trans (fileNext_stands (front := k.motion.list) (behind := [])
      (e := ⟨u, a, .command source tag, .queued⟩) rfl others (by simp) rfl rfl rfl active sound (stands.trans there))
    rw [whole]
    simp only [list_putMove, unit_putMove]
    exact ⟨List.append_nil _, rfl, rfl, putMove_claims _ _ _ rfl⟩
  · obtain ⟨q, v, files, filed, -⟩ := fileNext_files (front := k.motion.list) (behind := [])
      (e := ⟨u, a, .command source tag, .queued⟩)
      (p := { k.movePart u with list := k.motion.list ++ [⟨u, a, .command source tag, .queued⟩] })
      rfl others (by simp) rfl rfl rfl active sound (stands.trans away)
    have whole := placed.trans files
    rw [whole]
    simp only [list_putMove, unit_putMove, claim_putMove]
    exact ⟨trivial, ⟨rfl, rfl, rfl, putMove_bank _ _ _ rfl⟩, filed⟩

variable {front behind : List Entry} (before : ∀ e ∈ front, e.unit ≠ u) (after : ∀ e ∈ behind, e.unit ≠ u)
include before after

/-- With an entry of the unit that waits for energy. -/
theorem accepted_waiting (active : k.isActive = true) (sound : (k.unit u).state ≠ .fault) {a' : Action}
    {station tag' : Nat} (list : k.motion.list = front ++ ⟨u, a', .command station tag', .waitingEnergy⟩ :: behind) :
    let m := placeRequest c u a (.command source tag) k
    (standsThere c a u k = false →
      m.motion.list = front ++ ⟨u, a, .command source tag, .waitingEnergy⟩ :: behind ∧
      (m.unit u).outcome = .replaced ∧ (m.unit u).tag = tag' ∧
      ((m.unit u).dir = actionDir a (k.unit u).pos ∧ (m.unit u).state = (k.unit u).state ∧
        (m.unit u).pos = (k.unit u).pos ∧ m.bank = k.bank) ∧
      (m.claim (slotUnit u)).stamp = k.now ∧ (m.claim (slotUnit u)).held = 0) ∧
    (standsThere c a u k = true → m.motion.list = front ++ behind ∧ (m.unit u).outcome = .done ∧
      (m.unit u).tag = tag ∧ (m.claim (slotUnit u)).state = .idle) := by
  obtain ⟨p, part⟩ : ∃ p : MovePart,
      { MovePart.released { k.movePart u with unit := (k.unit u).reports tag' .replaced } with
        list := front ++ ⟨u, a, .command source tag, .queued⟩ :: behind } = p := ⟨_, rfl⟩
  have placed : placeRequest c u a (.command source tag) k = fileNext c u (k.putMove u p) := by
    have placed := placeRequest_waiting (c := c) (a := a) (o := .command source tag) (n := k) (p := k.movePart u) list
      before
    rw [putMove_self] at placed
    rw [← part]
    exact placed
  have listed : p.list = front ++ ⟨u, a, .command source tag, .queued⟩ :: behind := by rw [← part]
  have record : p.unit = (k.unit u).reports tag' .replaced := by rw [← part]; simp only [released_unit]
  have bridge : p.bridge = k.bridge u := by rw [← part]; simp only [released_bridge]; rfl
  have free : p.claim.state = .idle := by rw [← part]; exact released_idle _
  have stands := standsThere_putMove (c := c) (u := u) (n := k) (a := a) (p := p) (by rw [record]; rfl)
  have sound' : p.unit.state ≠ .fault := by rw [record]; exact sound
  dsimp only
  refine ⟨fun away => ?_, fun there => ?_⟩
  · obtain ⟨q, v, files, filed, -⟩ := fileNext_files (e := ⟨u, a, .command source tag, .queued⟩) listed before after rfl
      rfl rfl active sound' (stands.trans away)
    have whole := placed.trans files
    rw [whole]
    simp only [list_putMove, unit_putMove, claim_putMove, record, filed free]
    exact ⟨trivial, rfl, rfl, ⟨rfl, rfl, rfl, putMove_bank _ _ _ bridge⟩, trivial, trivial⟩
  · rw [placed, fileNext_stands (e := ⟨u, a, .command source tag, .queued⟩) listed before after rfl rfl rfl active sound'
      (stands.trans there)]
    simp only [list_putMove, unit_putMove, claim_putMove]
    exact ⟨trivial, rfl, rfl, free⟩

/-- With an entry of the unit under way, taken over by EXTEND or RETRACT. -/
theorem accepted_turns {a' : Action} {station tag' : Nat}
    (list : k.motion.list = front ++ ⟨u, a', .command station tag', .active⟩ :: behind)
    (plain : needsPosition a = false) : let m := placeRequest c u a (.command source tag) k
    m.motion.list = front ++ ⟨u, a, .command source tag, .active⟩ :: behind ∧ (m.unit u).outcome = .replaced ∧
    (m.unit u).tag = tag' ∧ m.claims = k.claims ∧
    (isDriving (k.unit u) = true → (k.bridge u).state = driveState (k.unit u).dir →
      (actionDir a none = (k.unit u).dir → m.bank = k.bank ∧ (m.unit u).state = (k.unit u).state) ∧
      (actionDir a none ≠ (k.unit u).dir → (m.bridge u).state = .coast ∧ (m.unit u).state = .reversing ∧
        (m.unit u).dir = actionDir a none ∧ (m.unit u).dwellEnd = some (k.now + 500))) := by
  have placed := placeRequest_active (c := c) (a := a) (o := .command source tag) (n := k) (p := k.movePart u) list before
    after
  rw [putMove_self] at placed
  obtain ⟨m, b, turns, outcome, tagged, dir, -, same, other⟩ := redirect_turns (c := c) (u := u) (n := k) (a := a)
    (p := { k.movePart u with
      list := front ++ ⟨u, a, .command source tag, .active⟩ :: behind, unit := (k.unit u).reports tag' .replaced })
    (fun t h => by rw [h] at plain; nomatch plain)
  have plainDir (pos : Option Nat) : actionDir a pos = actionDir a none := by
    cases a
    · rfl
    · rfl
    · nomatch plain
  rw [plainDir] at dir same other
  have whole := placed.trans turns
  dsimp only
  rw [whole]
  simp only [list_putMove, unit_putMove, bridge_putMove]
  refine ⟨trivial, outcome, tagged, putMove_claims _ _ _ rfl, fun driven drives => ⟨fun h => ?_, fun h => ?_⟩⟩
  · obtain ⟨bridge, state⟩ := same h
    exact ⟨putMove_bank _ _ _ bridge, state⟩
  · obtain ⟨coast, state, dwell⟩ := other h driven drives
    exact ⟨coast, state, dir, dwell⟩

/-- With an entry of the unit under way, taken over by EXTEND_TO. -/
theorem accepted_aims {a' : Action} {station tag' t q : Nat}
    (list : k.motion.list = front ++ ⟨u, a', .command station tag', .active⟩ :: behind) (aims : a = .extendTo t)
    (driven : isDriving (k.unit u) = true) (drives : (k.bridge u).state = driveState (k.unit u).dir)
    (where_ : estimate c (k.unit u) k.now = some q) : let m := placeRequest c u a (.command source tag) k
    (q = t → extStop c k = false → retStop c k = false → m.motion.list = front ++ behind ∧
      (m.unit u).outcome = .done ∧ (m.unit u).tag = tag ∧ (m.unit u).state = .partway ∧
      (m.unit u).pos = some t ∧ (m.bridge u).state = .brake ∧ (m.claim (slotUnit u)).state = .idle) ∧
    (q ≠ t → m.motion.list = front ++ ⟨u, a, .command source tag, .active⟩ :: behind ∧ (m.unit u).outcome = .replaced ∧
      (m.unit u).tag = tag' ∧ m.claims = k.claims ∧ (m.unit u).dir = (if t < q then .retract else .extend) ∧
      ((m.unit u).dir = (k.unit u).dir → m.bank = k.bank ∧ (m.unit u).state = (k.unit u).state) ∧
      ((m.unit u).dir ≠ (k.unit u).dir → (m.bridge u).state = .coast ∧ (m.unit u).state = .reversing ∧
        (m.unit u).dwellEnd = some (k.now + 500))) := by
  have placed := placeRequest_active (c := c) (a := a) (o := .command source tag) (n := k) (p := k.movePart u) list before
    after
  rw [putMove_self] at placed
  have where' : estimate c ((k.unit u).reports tag' .replaced) k.now = some q := where_
  have sound : (k.bridge u).state ≠ .fault := by
    rw [drives]
    cases (k.unit u).dir <;> decide
  dsimp only
  refine ⟨fun same ext ret => ?_, fun away => ?_⟩
  · have arrives := redirect_arrives (c := c) (u := u) (n := k) (a := a) (t := t) (station := source) (tag := tag)
      (p := { k.movePart u with
        list := front ++ ⟨u, a, .command source tag, .active⟩ :: behind, unit := (k.unit u).reports tag' .replaced })
      (by rw [aims]) before after aims (by rw [← same]; exact where_)
    have whole := placed.trans arrives
    obtain ⟨-, -, -, neither⟩ := restByStop_cases c k { (k.unit u).reports tag' .replaced with pos := some q }
    have rests : restByStop c k (MovePart.dated c k.now { k.movePart u with
        list := front ++ ⟨u, a, .command source tag, .active⟩ :: behind
        unit := (k.unit u).reports tag' .replaced }).unit =
        atRest .partway .none (some q) { (k.unit u).reports tag' .replaced with pos := some q } := by
      simp only [MovePart.dated, where']
      exact neither ext ret
    rw [whole]
    simp only [list_putMove, unit_putMove, bridge_putMove, claim_putMove, released_bridge, released_idle, rests]
    exact ⟨trivial, rfl, rfl, rfl, congrArg some same, braking_state sound, trivial⟩
  · obtain ⟨m, b, turns, outcome, tagged, dir, -, same, other⟩ := redirect_turns (c := c) (u := u) (n := k) (a := a)
      (p := { k.movePart u with
        list := front ++ ⟨u, a, .command source tag, .active⟩ :: behind, unit := (k.unit u).reports tag' .replaced })
      (fun t' h => by
        rw [aims] at h
        injection h with h
        rw [where', ← h]
        simpa using away)
    dsimp only at dir same other
    rw [where', aims] at dir same other
    have whole := placed.trans turns
    rw [whole]
    simp only [list_putMove, unit_putMove, bridge_putMove]
    refine ⟨trivial, outcome, tagged, putMove_claims _ _ _ rfl, dir, fun h => ?_, fun h => ?_⟩
    · obtain ⟨bridge, state⟩ := same (dir.symm.trans h)
      exact ⟨putMove_bank _ _ _ bridge, state⟩
    · exact other (fun h' => h (dir.trans h')) driven drives

/-- With an entry that waits behind a safety move of the unit. -/
theorem accepted_behind {middle : List Entry} {o : Origin} {a' : Action} {station tag' : Nat}
    (safety : o = .travel ∨ o = .wind) (between : ∀ e ∈ middle, e.unit ≠ u)
    (list : k.motion.list = front ++ ⟨u, .retract, o, .active⟩ :: middle ++
      ⟨u, a', .command station tag', .queued⟩ :: behind) : let m := placeRequest c u a (.command source tag) k
    m.motion.list = front ++ ⟨u, .retract, o, .active⟩ :: middle ++ ⟨u, a, .command source tag, .queued⟩ :: behind ∧
    (m.unit u).outcome = .replaced ∧ (m.unit u).tag = tag' ∧ m.claims = k.claims ∧ m.bank = k.bank := by
  have placed := placeRequest_behind (c := c) (a := a) (o' := .command source tag) (n := k) (p := k.movePart u) safety list
    before between after
  rw [putMove_self] at placed
  dsimp only
  rw [placed]
  simp only [list_putMove, unit_putMove]
  exact ⟨trivial, rfl, rfl, putMove_claims _ _ _ rfl, putMove_bank _ _ _ rfl⟩

/-- With a safety move of the unit alone. -/
theorem accepted_after {o : Origin} (safety : o = .travel ∨ o = .wind)
    (list : k.motion.list = front ++ ⟨u, .retract, o, .active⟩ :: behind) :
    let m := placeRequest c u a (.command source tag) k
    m.motion = { k.motion with list := k.motion.list ++ [⟨u, a, .command source tag, .queued⟩] } ∧
    m.claims = k.claims ∧ m.bank = k.bank := by
  have placed := placeRequest_after (c := c) (a := a) (o' := .command source tag) (n := k) (p := k.movePart u) safety list
    before after
  rw [putMove_self] at placed
  dsimp only
  rw [placed]
  refine ⟨?_, putMove_claims _ _ _ rfl, putMove_bank _ _ _ rfl⟩
  cases u <;> rfl

end

end Sys2Proof.Machine
end

section
/-!
# Proofs: safety requests and interlocks (R139, R147, R148, R153)
-/
namespace Sys2Proof.Machine

section
variable {c : UnitCfg} {u : MotionUnit} {n : Node} {p : MovePart} {a : Action} {o : Origin} {station tag : Nat}
  {front behind : List Entry}

/-! ## Safety requests (R139) -/

theorem safety_entry (safety : o = .travel ∨ o = .wind) (s : EntryState) : isCommand ⟨u, .retract, o, s⟩ = false := by
  rcases safety with rfl | rfl <;> rfl

/-- A unit in FAULT takes no safety request; a step is then known not to be stowed. -/
theorem safetyRequest_fault (cfg : n.unitCfg u = some c) (fault : (n.unit u).state = .fault) :
    safetyRequest u o n = if u = .step then setFlag .stepNotStowed n else n := by
  unfold safetyRequest
  simp only [cfg, fault, if_true]

/-- A safety move under way absorbs the request. -/
theorem safetyRequest_absorbed (cfg : n.unitCfg u = some c) (sound : (n.unit u).state ≠ .fault)
    (under : ∃ e ∈ n.motion.list, e.unit = u ∧ isCommand e = false) : safetyRequest u o n = n := by
  have way : (n.motion.list.any fun e => e.unit == u && !isCommand e) = true := by
    obtain ⟨e, mem, unit, safety⟩ := under
    exact List.any_eq_true.mpr ⟨e, mem, by simp [unit, safety]⟩
  unfold safetyRequest
  simp only [cfg, if_neg sound, way, if_true]

/-- The list with the unit's only entry, a command's, taken over by a safety entry. -/
theorem safetyRequest_unfold (cfg : n.unitCfg u = some c) (sound : p.unit.state ≠ .fault) {s : EntryState}
    (list : p.list = front ++ ⟨u, a, .command station tag, s⟩ :: behind) (before : ∀ e ∈ front, e.unit ≠ u)
    (after : ∀ e ∈ behind, e.unit ≠ u) :
    (s = .active → safetyRequest u o (n.putMove u p) = redirect c u .retract (convertClaim (slotUnit u) (unitUnits c)
      (n.putMove u { p with
        list := insertSafety ⟨u, .retract, o, .active⟩ (front ++ behind), unit := p.unit.reports tag .replaced }))) ∧
    (s = .waitingEnergy → safetyRequest u o (n.putMove u p) = startMove u .retract (convertClaim (slotUnit u)
      (unitUnits c) (n.putMove u { p with
        list := insertSafety ⟨u, .retract, o, .active⟩ (front ++ behind), unit := p.unit.reports tag .replaced }))) := by
  have unheard : (p.list.any fun e => e.unit == u && !isCommand e) = false := by
    refine List.any_eq_false.mpr fun x mem hit => ?_
    simp only [Bool.and_eq_true, beq_iff_eq] at hit
    rw [list] at mem
    rcases List.mem_append.mp mem with mem | mem
    · exact before x mem hit.1
    · rcases List.mem_cons.mp mem with rfl | mem
      · nomatch hit.2
      · exact after x mem hit.1
  have removed : removeEntry ⟨u, a, .command station tag, s⟩ p.list = front ++ behind := by
    rw [list, removeEntry_mid before]
  constructor
  · rintro rfl
    have entry : findEntry u .active true (n.putMove u p) = some ⟨u, a, .command station tag, .active⟩ :=
      findEntry_hit (by rw [list_putMove, list]) before rfl rfl rfl
    unfold safetyRequest
    simp only [unitCfg_putMove, cfg, unit_putMove, if_neg sound, list_putMove, unheard, Bool.false_eq_true, if_false,
      entry]
    rw [report_putMove (u := u) (e := ⟨u, a, .command station tag, .active⟩) rfl rfl, list_putMove, removed,
      putMove_setList]
  · rintro rfl
    have entry : findEntry u .waitingEnergy true (n.putMove u p) = some ⟨u, a, .command station tag, .waitingEnergy⟩ :=
      findEntry_hit (by rw [list_putMove, list]) before rfl rfl rfl
    have still : findEntry u .active true (n.putMove u p) = none :=
      findEntry_miss (by rw [list_putMove, list]) before after (.inl (by simp))
    unfold safetyRequest
    simp only [unitCfg_putMove, cfg, unit_putMove, if_neg sound, list_putMove, unheard, Bool.false_eq_true, if_false,
      entry, still]
    rw [report_putMove (u := u) (e := ⟨u, a, .command station tag, .waitingEnergy⟩) rfl rfl, list_putMove, removed,
      putMove_setList]

/-! ## A unit that withdraws -/

/-- What O43 says of a unit that a safety request sets in motion: the words of its clause. -/
def withdrawing (c : UnitCfg) (u : MotionUnit) (o : Origin) (front behind : List Entry) (m : Node) : Prop :=
  (∃ l r, front ++ behind = l ++ r ∧ m.motion.list = l ++ ⟨u, .retract, o, .active⟩ :: r ∧
    (∀ e ∈ l, isCommand e = false) ∧ ∀ e ∈ r.head?, isCommand e = true) ∧
  (m.unit u).dir = .retract ∧ (m.claim (slotUnit u)).state = .holding ∧ (m.claim (slotUnit u)).cls = 4 ∧
  (m.claim (slotUnit u)).held = unitUnits c

/-- With no entry of the unit in the list. -/
theorem safetyRequest_withdraws (cfg : n.unitCfg u = some c) (safety : o = .travel ∨ o = .wind)
    (list : p.list = front ++ behind) (before : ∀ e ∈ front, e.unit ≠ u) (after : ∀ e ∈ behind, e.unit ≠ u)
    (sound : p.unit.state ≠ .fault) (open_ : retStop c n = false) (free : p.claim.state = .idle) :
    let m := safetyRequest u o (n.putMove u p)
    withdrawing c u o front behind m ∧ isMoving (m.unit u) = true ∧ (m.unit u).outcome = p.unit.outcome ∧
      (m.unit u).tag = p.unit.tag := by
  have others : ∀ e ∈ p.list, e.unit ≠ u := fun e mem => (List.mem_append.mp (list ▸ mem)).elim (before e) (after e)
  obtain ⟨l, r, m, b, q, v, requests, split, safe, next, dir, moving, outcome, tagged, -, filed⟩ :=
    safetyRequest_alone (p := p) cfg safety others sound open_
  dsimp only
  rw [requests]
  unfold withdrawing
  simp only [list_putMove, unit_putMove, claim_putMove, filed free]
  exact ⟨⟨⟨l, r, list.symm.trans split, rfl, safe, next⟩, dir, trivial, trivial, trivial⟩, moving, outcome, tagged⟩

/-- A safety request of a unit that stands retracted ends at once. -/
theorem safetyRequest_stowed (cfg : n.unitCfg u = some c) (safety : o = .travel ∨ o = .wind)
    (others : ∀ e ∈ p.list, e.unit ≠ u) (sound : p.unit.state ≠ .fault) (stowed : retStop c n = true) :
    safetyRequest u o (n.putMove u p) = n.putMove u p := by
  obtain ⟨l, r, whole, inserted, -, -⟩ := insertSafety_splits ⟨u, .retract, o, .queued⟩ p.list
  have before : ∀ e ∈ l, e.unit ≠ u := fun e mem => others e (whole ▸ List.mem_append_left r mem)
  have after : ∀ e ∈ r, e.unit ≠ u := fun e mem => others e (whole ▸ List.mem_append_right l mem)
  have unheard : (p.list.any fun e => e.unit == u && !isCommand e) = false := by
    refine List.any_eq_false.mpr fun x mem hit => ?_
    simp only [Bool.and_eq_true, beq_iff_eq] at hit
    exact others x mem hit.1
  have absent (s : EntryState) : findEntry u s true (n.putMove u p) = none :=
    findEntry_absent (by rw [list_putMove]; exact others)
  have idle : isBusy u (n.putMove u { p with list := insertSafety ⟨u, .retract, o, .queued⟩ p.list }) = false :=
    isBusy_of (by rw [list_putMove, inserted]) before after rfl
  have silent (m : Node) : report ⟨u, .retract, o, .queued⟩ .done m = m := by rcases safety with rfl | rfl <;> rfl
  have first : fileHead c u (n.putMove u { p with list := insertSafety ⟨u, .retract, o, .queued⟩ p.list }) =
      n.putMove u p := by
    rw [fileHead_unfold (e := ⟨u, .retract, o, .queued⟩) (by rw [list_putMove, inserted]) before rfl,
      if_neg (by simp [idle, sound, safety_entry safety]), if_pos (by simp [standsThere, stowed])]
    unfold endEntry
    rw [list_putMove, inserted, removeEntry_mid before, ← whole, putMove_setList, silent]
  have next : fileHead c u (n.putMove u p) = n.putMove u p := fileHead_of_none (by rw [list_putMove]; exact others)
  unfold safetyRequest
  simp only [unitCfg_putMove, cfg, unit_putMove, if_neg sound, unheard, absent, list_putMove, putMove_setList,
    Bool.false_eq_true, if_false]
  unfold fileNext
  rw [first, next, next, next]

/-- With a command entry of the unit that waits for energy. -/
theorem safetyRequest_waiting (cfg : n.unitCfg u = some c) (before : ∀ e ∈ front, e.unit ≠ u)
    (after : ∀ e ∈ behind, e.unit ≠ u) (sound : (n.unit u).state ≠ .fault)
    (list : n.motion.list = front ++ ⟨u, a, .command station tag, .waitingEnergy⟩ :: behind) :
    let m := safetyRequest u o n
    withdrawing c u o front behind m ∧ isMoving (m.unit u) = true ∧ (m.unit u).outcome = .replaced ∧
      (m.unit u).tag = tag := by
  have requests := (safetyRequest_unfold (o := o) (p := n.movePart u) cfg sound list before after).2 rfl
  rw [putMove_self] at requests
  obtain ⟨l, r, whole, inserted, safe, next⟩ := insertSafety_splits ⟨u, .retract, o, .active⟩ (front ++ behind)
  obtain ⟨q, v, converts, holding, cls, held⟩ := convertClaim_putMove u n { n.movePart u with
    list := insertSafety ⟨u, .retract, o, .active⟩ (front ++ behind), unit := (n.unit u).reports tag .replaced }
    (unitUnits c)
  obtain ⟨m, b, moves, dir, moving, outcome, tagged, -⟩ := startMove_putMove u .retract n ⟨insertSafety
    ⟨u, .retract, o, .active⟩ (front ++ behind), (n.unit u).reports tag .replaced, n.bridge u, q, v⟩
  have e := requests.trans ((congrArg (startMove u .retract) converts).trans moves)
  dsimp only
  rw [e]
  unfold withdrawing
  simp only [list_putMove, unit_putMove, claim_putMove]
  exact ⟨⟨⟨l, r, whole, inserted, safe, next⟩, dir, holding, cls, held⟩, moving, outcome, tagged⟩

/-- With a command entry of the unit under way: its drive is taken over. -/
theorem safetyRequest_active (cfg : n.unitCfg u = some c) (before : ∀ e ∈ front, e.unit ≠ u)
    (after : ∀ e ∈ behind, e.unit ≠ u) (sound : (n.unit u).state ≠ .fault)
    (list : n.motion.list = front ++ ⟨u, a, .command station tag, .active⟩ :: behind) :
    let m := safetyRequest u o n
    withdrawing c u o front behind m ∧ (m.unit u).outcome = .replaced ∧ (m.unit u).tag = tag ∧
    (isMoving (n.unit u) = true → isMoving (m.unit u) = true) ∧
    (isDriving (n.unit u) = true → (n.bridge u).state = driveState (n.unit u).dir →
      ((n.unit u).dir = .retract → m.bank = n.bank ∧ (m.unit u).state = (n.unit u).state) ∧
      ((n.unit u).dir = .extend → (m.bridge u).state = .coast ∧ (m.unit u).state = .reversing ∧
        (m.unit u).dwellEnd = some (n.now + 500))) := by
  have requests := (safetyRequest_unfold (o := o) (p := n.movePart u) cfg sound list before after).1 rfl
  rw [putMove_self] at requests
  obtain ⟨l, r, whole, inserted, safe, next⟩ := insertSafety_splits ⟨u, .retract, o, .active⟩ (front ++ behind)
  obtain ⟨q, v, converts, holding, cls, held⟩ := convertClaim_putMove u n { n.movePart u with
    list := insertSafety ⟨u, .retract, o, .active⟩ (front ++ behind), unit := (n.unit u).reports tag .replaced }
    (unitUnits c)
  obtain ⟨m, b, turns, outcome, tagged, dir, moving, same, other⟩ := redirect_turns (c := c) (u := u) (n := n)
    (a := .retract) (p := ⟨insertSafety ⟨u, .retract, o, .active⟩ (front ++ behind),
      (n.unit u).reports tag .replaced, n.bridge u, q, v⟩) nofun
  have e := requests.trans ((congrArg (redirect c u .retract) converts).trans turns)
  dsimp only
  rw [e]
  unfold withdrawing
  simp only [list_putMove, unit_putMove, claim_putMove, bridge_putMove]
  refine ⟨⟨⟨l, r, whole, inserted, safe, next⟩, dir, holding, cls, held⟩, outcome, tagged, moving,
    fun driven drives => ⟨fun back => ?_, fun out => ?_⟩⟩
  · obtain ⟨bridge, state⟩ := same back.symm
    exact ⟨putMove_bank _ _ _ bridge, state⟩
  · exact other (fun h => nomatch h.trans out) driven drives

/-! ## Interlocks (R147, R148) -/

/-- With nothing of the unit waiting, its entries stay. -/
theorem interlockEntries_none (none : ∀ e ∈ n.motion.list, e.unit = u → e.state = .active)
    (files : fileNext c u n = n) : interlockEntries c u n = n := by
  have mine : n.motion.list.filter (fun e => e.unit == u && e.state != .active && isCommand e && isExtend e.action) = [] := by
    refine List.filter_eq_nil_iff.mpr fun x mem hit => ?_
    simp only [Bool.and_eq_true, beq_iff_eq, bne_iff_ne] at hit
    exact hit.1.1.2 (none x mem hit.1.1.1)
  unfold interlockEntries
  simp only [mine, List.foldl_nil, files]

/-- A waiting extend ends INTERLOCK, its claim released. -/
theorem interlockEntries_ends {s : EntryState} (waits : s = .queued ∨ s = .waitingEnergy) (extends_ : isExtend a = true)
    (list : p.list = front ++ ⟨u, a, .command station tag, s⟩ :: behind) (before : ∀ e ∈ front, e.unit ≠ u)
    (after : ∀ e ∈ behind, e.unit ≠ u) (free : s = .queued → p.claim.state = .idle) :
    interlockEntries c u (n.putMove u p) = n.putMove u { p.released with
      list := front ++ behind, unit := p.unit.reports tag .interlock } := by
  have notActive : s ≠ .active := by rcases waits with rfl | rfl <;> decide
  have mine : p.list.filter (fun e => e.unit == u && e.state != .active && isCommand e && isExtend e.action) =
      [⟨u, a, .command station tag, s⟩] := by
    have none {l : List Entry} (others : ∀ e ∈ l, e.unit ≠ u) :
        l.filter (fun e => e.unit == u && e.state != .active && isCommand e && isExtend e.action) = [] := by
      refine List.filter_eq_nil_iff.mpr fun x mem hit => ?_
      simp only [Bool.and_eq_true, beq_iff_eq] at hit
      exact others x mem hit.1.1.1
    rw [list, List.filter_append, none before, List.filter_cons_of_pos (by simp [notActive, isCommand, extends_]),
      none after]
    rfl
  have freed : (if s = .waitingEnergy then releaseClaim (slotUnit u) (n.putMove u p) else n.putMove u p) =
      n.putMove u p.released := by
    rcases waits with rfl | rfl
    · rw [if_neg (by decide), released_of_idle p (free rfl)]
    · rw [if_pos rfl, releaseClaim_putMove]
  unfold interlockEntries
  simp only [list_putMove, mine, List.foldl_cons, List.foldl_nil, freed]
  rw [endEntry_putMove (u := u) (e := ⟨u, a, .command station tag, s⟩) (p := p.released) rfl rfl
    (by rw [released_list]; exact list) before, fileNext_of_none]
  · simp only [released_unit]
  · intro x mem
    rw [list_putMove] at mem
    exact (List.mem_append.mp mem).elim (before x) (after x)

theorem interlockUnit_eq (cfg : n.unitCfg u = some c) : interlockUnit o u n =
    if ((interlockEntries c u n).unit u).state = .retracted ∨ !stopsKnown c (interlockEntries c u n)
    then interlockEntries c u n else safetyRequest u o (interlockEntries c u n) := by
  unfold interlockUnit
  simp only [cfg]

/-- A waiting extend at an interlock view that turns true. -/
theorem interlockUnit_ends {s : EntryState} (cfg : n.unitCfg u = some c) (safety : o = .travel ∨ o = .wind)
    (waits : s = .queued ∨ s = .waitingEnergy) (extends_ : isExtend a = true)
    (list : n.motion.list = front ++ ⟨u, a, .command station tag, s⟩ :: behind) (before : ∀ e ∈ front, e.unit ≠ u)
    (after : ∀ e ∈ behind, e.unit ≠ u) (free : s = .queued → (n.claim (slotUnit u)).state = .idle)
    (sound : (n.unit u).state ≠ .fault) : let i := interlockUnit o u n
    (i.unit u).outcome = .interlock ∧ (i.unit u).tag = tag ∧
    ((n.unit u).state = .retracted ∨ stopsKnown c n = false →
      i.motion.list = front ++ behind ∧ (i.claim (slotUnit u)).state = .idle ∧ i.bank = n.bank ∧
      (i.unit u).state = (n.unit u).state) ∧
    ((n.unit u).state ≠ .retracted → stopsKnown c n = true → retStop c n = false →
      withdrawing c u o front behind i ∧ isMoving (i.unit u) = true) := by
  have ended := interlockEntries_ends (c := c) (n := n) (p := n.movePart u) waits extends_ list before after free
  rw [putMove_self] at ended
  have unfolds := interlockUnit_eq (o := o) cfg
  rw [ended, unit_putMove, stopsKnown_putMove] at unfolds
  dsimp only at unfolds ⊢
  rw [unfolds]
  by_cases stays : (n.unit u).state = .retracted ∨ stopsKnown c n = false
  · have keeps : (n.unit u).state = .retracted ∨ (!stopsKnown c n) = true := stays.imp id fun h => by rw [h]; rfl
    rw [if_pos (by exact keeps)]
    simp only [unit_putMove, list_putMove, claim_putMove]
    refine ⟨rfl, rfl, fun _ => ⟨trivial, released_idle _, putMove_bank _ _ _ (released_bridge _), rfl⟩,
      fun away known => absurd stays ?_⟩
    rintro (h | h)
    · exact away h
    · rw [known] at h
      nomatch h
  · have goes : ¬ ((n.unit u).state = .retracted ∨ (!stopsKnown c n) = true) :=
      fun h => stays (h.imp id fun h => by simpa using h)
    rw [if_neg (by exact goes)]
    cases out : retStop c n
    · obtain ⟨withdraws, moving, outcome, tagged⟩ := safetyRequest_withdraws (o := o)
        (p := { (n.movePart u).released with
          list := front ++ behind, unit := (n.unit u).reports tag .interlock }) cfg safety rfl before after sound out
        (released_idle _)
      exact ⟨outcome, tagged, fun h => absurd h stays, fun _ _ _ => ⟨withdraws, moving⟩⟩
    · have stowed := safetyRequest_stowed (o := o) (n := n) (p := { (n.movePart u).released with
          list := front ++ behind, unit := (n.unit u).reports tag .interlock }) cfg safety
        (fun e mem => (List.mem_append.mp mem).elim (before e) (after e)) sound out
      refine ⟨?_, ?_, fun h => absurd h stays, fun _ _ h => by nomatch h⟩
      · exact (congrArg (fun m : Node => (m.unit u).outcome) stowed).trans (by rw [unit_putMove]; rfl)
      · exact (congrArg (fun m : Node => (m.unit u).tag) stowed).trans (by rw [unit_putMove]; rfl)

end

end Sys2Proof.Machine
end

section
/-!
# Proofs: the first delivery of the stops, and the requests together (R133, R139, R153)
-/
namespace Sys2Proof.Machine

section
variable {c : UnitCfg} {u : MotionUnit} {n : Node} {front behind : List Entry}

/-- Away from RETRACTED under the travel view a unit is asked to retract (R133, R153). -/
theorem safetyCheck_travel (travel : n.view.travel = true) (away : (n.unit u).state ≠ .retracted) :
    safetyCheck u n = safetyRequest u .travel n := by
  unfold safetyCheck
  rw [if_neg away, if_pos travel]

/-- A unit at rest that leaves RETRACTED by hand has no position (R133). -/
theorem stopAtRest_leaves (known : stopsKnown c n = true) (ext : extStop c n = false) (ret : retStop c n = false)
    (travel : n.view.travel = true) (state : (n.unit u).state = .retracted) :
    stopAtRest c u n = safetyRequest u .travel (n.putMove u { n.movePart u with
      unit := atRest .partway .none none (n.unit u) }) := by
  have rests : restFromStops c n (n.unit u) = atRest .partway .none none (n.unit u) := by
    simp [restFromStops, ext, ret, state]
  have puts : n.setUnit u (atRest .partway .none none (n.unit u)) =
      n.putMove u { n.movePart u with unit := atRest .partway .none none (n.unit u) } := by
    have e := putMove_setUnit n u (n.movePart u) (atRest .partway .none none (n.unit u))
    rwa [putMove_self] at e
  have partway : ¬ (atRest .partway .none none (n.unit u)).state = .fault := fun h => nomatch h
  unfold stopAtRest
  simp only [rests, puts, unit_putMove, state, known, Bool.not_true, Bool.false_eq_true, or_false, reduceCtorEq, if_false,
    if_true, if_neg partway]
  exact safetyCheck_travel (by rw [view_putMove]; exact travel) (by rw [unit_putMove]; exact fun h => nomatch h)

/-- A unit at rest away from its ends stays as it is. -/
theorem stopAtRest_stays (ext : extStop c n = false) (ret : retStop c n = false)
    (state : (n.unit u).state = .unknown ∨ (n.unit u).state = .partway) : stopAtRest c u n = n := by
  have away : ¬ ((n.unit u).state = .retracted ∨ (n.unit u).state = .extended) := by
    rcases state with h | h <;> simp [h]
  have sound : ¬ (n.unit u).state = .fault := by rcases state with h | h <;> simp [h]
  have notRetracted : ¬ (n.unit u).state = .retracted := fun h => away (.inl h)
  have rests : restFromStops c n (n.unit u) = n.unit u := by
    simp only [restFromStops, ext, ret, if_neg away]
  have self : n.setUnit u (n.unit u) = n := by cases u <;> rfl
  unfold stopAtRest
  simp only [rests, self, if_neg sound, if_neg notRetracted, ite_self]

/-- The first delivery of the stops, and the leaving of RETRACTED by hand, under the travel view (R133, R153). -/
theorem endStopChange_withdraws (cfg : n.unitCfg u = some c) (before : ∀ e ∈ front, e.unit ≠ u)
    (after : ∀ e ∈ behind, e.unit ≠ u) (list : n.motion.list = front ++ behind) (travel : n.view.travel = true)
    (known : stopsKnown c n = true) (ext : extStop c n = false) (ret : retStop c n = false)
    (free : (n.claim (slotUnit u)).state = .idle) :
    ((n.unit u).state = .retracted → ∀ first, withdrawing c u .travel front behind (endStopChange u first n)) ∧
    ((n.unit u).state = .unknown ∨ (n.unit u).state = .partway →
      withdrawing c u .travel front behind (endStopChange u true n)) := by
  have unfolds (first : Bool) (still : isMoving (n.unit u) = false) : endStopChange u first n =
      if first ∧ stopsKnown c (stopAtRest c u n) then safetyCheck u (stopAtRest c u n) else stopAtRest c u n := by
    simp only [endStopChange, cfg, still, Bool.false_eq_true, if_false]
  refine ⟨fun state first => ?_, fun state => ?_⟩
  · have still : isMoving (n.unit u) = false := by simp [isMoving, isDriving, state]
    obtain ⟨withdraws, moving, -, -⟩ := safetyRequest_withdraws (o := .travel) (p := { n.movePart u with
      unit := atRest .partway .none none (n.unit u) }) cfg (.inl rfl) list before after (fun h => nomatch h) ret free
    have others : ∀ e ∈ n.motion.list, e.unit ≠ u := fun e mem =>
      (List.mem_append.mp (list ▸ mem)).elim (before e) (after e)
    obtain ⟨l, r, m, b, q, v, requests, -, -, -, -, -, -, -, -, -⟩ := safetyRequest_alone (p := { n.movePart u with
      unit := atRest .partway .none none (n.unit u) }) cfg (.inl rfl : Origin.travel = .travel ∨ _) others
      (fun h => nomatch h) ret
    rw [unfolds first still, stopAtRest_leaves known ext ret travel state]
    rw [requests] at withdraws moving ⊢
    rw [unit_putMove] at moving
    split_ifs
    · have away : ¬ m.state = .retracted ∧ m.state ≠ .fault := by
        constructor <;> intro h <;> simp [isMoving, isDriving, h] at moving
      rw [safetyCheck_travel (by rw [view_putMove]; exact travel) (by rw [unit_putMove]; exact away.1),
        safetyRequest_absorbed (c := c) (by rw [unitCfg_putMove]; exact cfg) (by rw [unit_putMove]; exact away.2)]
      · exact withdraws
      · refine ⟨⟨u, .retract, .travel, .active⟩, ?_, rfl, rfl⟩
        rw [list_putMove]
        exact List.mem_append_right _ (List.mem_cons_self ..)
    · exact withdraws
  · have still : isMoving (n.unit u) = false := by rcases state with h | h <;> simp [isMoving, isDriving, h]
    have sound : (n.unit u).state ≠ .fault := by rcases state with h | h <;> simp [h]
    have away : (n.unit u).state ≠ .retracted := by rcases state with h | h <;> simp [h]
    rw [unfolds true still, stopAtRest_stays ext ret state, if_pos ⟨rfl, known⟩, safetyCheck_travel travel away]
    obtain ⟨withdraws, -⟩ := safetyRequest_withdraws (o := .travel) (p := n.movePart u) cfg (.inl rfl) list before after
      sound ret free
    rwa [putMove_self] at withdraws

end

/-! ## The requests together -/

theorem actionDir_cases (t : Nat) (p : Option Nat) : actionDir .extend p = .extend ∧ actionDir .retract p = .retract ∧
    ∀ q, p = some q → actionDir (.extendTo t) p = if t < q then .retract else .extend := by
  refine ⟨rfl, rfl, ?_⟩
  rintro q rfl
  rfl

/-- The views that turn true and false (R147, R148). -/
theorem views_tell (n : Node) :
    (n.view.travel = false → n.ownTravel = true ∨ (∃ p ∈ n.view.peers, p.travel = true) → refreshTravel n =
      interlockUnit .travel .step (interlockUnit .travel .awning
        (tanksTravel true { n with view := { n.view with travel := true } }))) ∧
    (n.view.wind = false → n.ownWind = true ∨ (∃ p ∈ n.view.peers, p.wind = true) → refreshWind n =
      interlockUnit .wind .awning { n with view := { n.view with wind := true } }) ∧
    (n.view.travel = true → n.ownTravel = false → (∀ p ∈ n.view.peers, p.travel = false) → refreshTravel n =
      tanksTravel false { n with view := { n.view with travel := false } }) ∧
    (n.view.wind = true → n.ownWind = false → (∀ p ∈ n.view.peers, p.wind = false) → refreshWind n =
      { n with view := { n.view with wind := false } }) := by
  refine ⟨fun off on => ?_, fun off on => ?_, fun on own peers => ?_, fun on own peers => ?_⟩
  · have now_ : (n.ownTravel || n.view.peers.any (·.travel)) = true := by simpa using on
    simp only [refreshTravel, now_, off, Bool.true_eq_false, if_false, if_true]
    rfl
  · have now_ : (n.ownWind || n.view.peers.any (·.wind)) = true := by simpa using on
    simp only [refreshWind, now_, off, Bool.true_eq_false, if_false, if_true]
    rfl
  · have now_ : (n.ownTravel || n.view.peers.any (·.travel)) = false := by simpa [own] using peers
    simp only [refreshTravel, now_, on, Bool.false_eq_true, if_false]
    rfl
  · have now_ : (n.ownWind || n.view.peers.any (·.wind)) = false := by simpa [own] using peers
    exact refreshWind_ends now_ on

/-- The safety requests and the interlocks by what the list holds of the unit (R139, R147, R148). -/
theorem safetyRequests {n : Node} {u : MotionUnit} {c : UnitCfg} {o : Origin} {front behind : List Entry}
    (cfg : n.unitCfg u = some c) (safety : o = .travel ∨ o = .wind) (before : ∀ e ∈ front, e.unit ≠ u)
    (after : ∀ e ∈ behind, e.unit ≠ u) : let m := safetyRequest u o n
    ((n.unit u).state = .fault → n.motion.list = front ++ behind →
      (u = .awning → m = n) ∧
      (u = .step → hasFlag .stepNotStowed m = true ∧ m = { n with cmd := { n.cmd with flags := m.cmd.flags } }) ∧
      interlockUnit o u n = (if stopsKnown c n = true then m else n)) ∧
    ((n.unit u).state ≠ .fault →
      (∀ o', o' = .travel ∨ o' = .wind → n.motion.list = front ++ ⟨u, .retract, o', .active⟩ :: behind → m = n) ∧
      (n.motion.list = front ++ behind → retStop c n = false → (n.claim (slotUnit u)).state = .idle →
        withdrawing c u o front behind m ∧ isMoving (m.unit u) = true) ∧
      (∀ a st tag, n.motion.list = front ++ ⟨u, a, .command st tag, .waitingEnergy⟩ :: behind →
        withdrawing c u o front behind m ∧ isMoving (m.unit u) = true ∧ (m.unit u).outcome = .replaced ∧
        (m.unit u).tag = tag) ∧
      (∀ a st tag, n.motion.list = front ++ ⟨u, a, .command st tag, .active⟩ :: behind →
        withdrawing c u o front behind m ∧ (m.unit u).outcome = .replaced ∧ (m.unit u).tag = tag ∧
        (isMoving (n.unit u) = true → isMoving (m.unit u) = true) ∧
        (isDriving (n.unit u) = true → (n.bridge u).state = driveState (n.unit u).dir →
          ((n.unit u).dir = .retract → m.bank = n.bank ∧ (m.unit u).state = (n.unit u).state) ∧
          ((n.unit u).dir = .extend → (m.bridge u).state = .coast ∧ (m.unit u).state = .reversing ∧
            (m.unit u).dwellEnd = some (n.now + 500))) ∧
        ((n.unit u).state ≠ .retracted → stopsKnown c n = true → interlockUnit o u n = m))) := by
  dsimp only
  refine ⟨fun fault list => ?_, fun sound => ⟨fun o' safety' list => ?_, fun list open_ free => ?_, fun a st tag list => ?_,
    fun a st tag list => ?_⟩⟩
  · have requests := safetyRequest_fault (o := o) cfg fault
    have others : ∀ e ∈ n.motion.list, e.unit ≠ u := fun e mem =>
      (List.mem_append.mp (list ▸ mem)).elim (before e) (after e)
    have entries : interlockEntries c u n = n :=
      interlockEntries_none (fun e mem unit => absurd unit (others e mem)) (fileNext_of_none others)
    have locks := interlockUnit_eq (o := o) cfg
    rw [entries] at locks
    refine ⟨?_, ?_, ?_⟩
    · rintro rfl
      rw [requests]
      exact if_neg (by decide)
    · rintro rfl
      rw [requests, if_pos rfl]
      exact ⟨hasFlag_setFlag (f := .stepNotStowed) (g := .stepNotStowed) (.inl rfl), rfl⟩
    · rw [locks]
      cases stopsKnown c n <;> simp [fault]
  · refine safetyRequest_absorbed cfg sound ⟨⟨u, .retract, o', .active⟩, ?_, rfl, safety_entry safety' _⟩
    rw [list]
    exact List.mem_append_right _ (List.mem_cons_self ..)
  · obtain ⟨withdraws, moving, -⟩ :=
      safetyRequest_withdraws (p := n.movePart u) cfg safety list before after sound open_ free
    rw [putMove_self] at withdraws moving
    exact ⟨withdraws, moving⟩
  · exact safetyRequest_waiting cfg before after sound list
  · obtain ⟨withdraws, outcome, tagged, moving, drives⟩ := safetyRequest_active (o := o) cfg before after sound list
    refine ⟨withdraws, outcome, tagged, moving, drives, fun away known => ?_⟩
    have entries : interlockEntries c u n = n := by
      refine interlockEntries_none (fun e mem unit => ?_) (fileNext_still list before rfl (by simp))
      rw [list] at mem
      rcases List.mem_append.mp mem with mem | mem
      · exact absurd unit (before e mem)
      · rcases List.mem_cons.mp mem with rfl | mem
        · rfl
        · exact absurd unit (after e mem)
    rw [interlockUnit_eq (o := o) cfg, entries, known]
    exact if_neg (by simp [away])

/-- Settles O43: the commands by the list, the directions, the safety requests and interlocks, and the views. -/
theorem moveRequests : Obligations.MoveRequests := by
  unfold Obligations.MoveRequests
  refine ⟨?_, actionDir_cases, ?_, views_tell⟩
  · rintro s dt x rest b k u c a row rfl h held cfg length action is
    dsimp only
    refine ⟨_, moveRow_acts h held length action is, ?_⟩
    generalize s.admitted dt x = k at held cfg ⊢
    obtain ⟨refused, blocked, placed⟩ := moveAct_cases cfg action x.source
    refine ⟨fun unable => ?_, fun able block => ?_, fun able free => ?_⟩
    · rw [refused unable, carry_frame (by rfl)]
      rfl
    · rw [blocked able block, carry_frame (by rfl)]
      rfl
    · have active : k.isActive = true := by
        cases active : k.isActive
        · exact absurd (.inl active) able
        · rfl
      have sound : (k.unit u).state ≠ .fault := fun h => able (.inr (.inl h))
      have moves : MoveActs k (placeRequest c u a (.command x.source b.tag) k) := (MoveActs.refl k).placeRequest
      rw [placed able free, carry_frame (o := give .accepted (placeRequest c u a (.command x.source b.tag) k)) moves.reply]
      have alone := accepted_free (c := c) (u := u) (k := k) (a := a) (source := x.source) (tag := b.tag) active sound
      have clauses {front behind : List Entry} (before : ∀ e ∈ front, e.unit ≠ u) (after : ∀ e ∈ behind, e.unit ≠ u) :=
        And.intro (fun a' st tag => accepted_waiting (c := c) (k := k) (a := a) (source := x.source) (tag := b.tag) (a' := a')
            (station := st) (tag' := tag) before after active sound)
          (And.intro (fun a' st tag => accepted_turns (c := c) (k := k) (a := a) (source := x.source) (tag := b.tag) (a' := a')
            (station := st) (tag' := tag) before after)
          (And.intro (fun a' st tag t q => accepted_aims (c := c) (k := k) (a := a) (source := x.source) (tag := b.tag) (a' := a')
            (station := st) (tag' := tag) (t := t) (q := q) before after)
          (And.intro (fun o middle a' st tag => accepted_behind (c := c) (k := k) (a := a) (source := x.source) (tag := b.tag)
            (middle := middle) (o := o) (a' := a') (station := st) (tag' := tag) before after)
          (fun o => accepted_after (c := c) (k := k) (a := a) (source := x.source) (tag := b.tag) (o := o) before after))))
      have frame := moves.frame
      dsimp only at alone clauses
      generalize placeRequest c u a (.command x.source b.tag) k = m at frame alone clauses ⊢
      refine ⟨rfl, congrArg (fun m' : Node => { m' with ev := { m.ev with reply := k.owing x b .accepted 0 } }) frame,
        fun others => (alone others).1, fun others => (alone others).2, fun front behind before after => ?_⟩
      obtain ⟨waiting, turns, aims, queued, stowing⟩ := clauses before after
      refine ⟨fun a' st tag list => waiting a' st tag list, fun a' st tag list => ⟨turns a' st tag list,
        fun t q aim driven drives where_ => aims a' st tag t q list aim driven drives where_⟩,
        fun o middle a' st tag safety between list => queued o middle a' st tag safety between list,
        fun o safety list => stowing o safety list⟩
  · rintro n u c o front behind cfg safety before after
    dsimp only
    obtain ⟨faulted, moving⟩ := safetyRequests (o := o) cfg safety before after
    refine ⟨faulted, fun sound => ?_⟩
    obtain ⟨absorbed, alone, waiting, active⟩ := moving sound
    refine ⟨absorbed, alone, waiting, active, fun a st tag w waits extends_ list free => ?_,
      fun list travels travel known ext ret free => ?_⟩
    · exact interlockUnit_ends cfg safety waits extends_ list before after free sound
    · rw [travels]
      exact endStopChange_withdraws cfg before after list travel known ext ret free

end Sys2Proof.Machine
end

section
/-!
# Proofs: the shares of the lights (R155 to R159)

The light channels with their settings are rows; a share runs through the rows of one class with the charge so far
(`shareRows`). A sum over one class (`classSum`) is what the claim, the charge and the present draw are.
-/
namespace Sys2Proof.Machine

/-- A light channel with its settings. -/
abbrev LightRow := LightCfg × Light

/-- The sum of an amount over the channels of a class, each times its current. -/
def classSum (main : Bool) (f : Light → Nat) (rows : List LightRow) : Nat :=
  (rows.map fun x => if x.1.main = main then f x.2 * x.1.current else 0).sum

theorem classSum_cons (main : Bool) (f : Light → Nat) (x : LightRow) (rows : List LightRow) :
    classSum main f (x :: rows) = (if x.1.main = main then f x.2 * x.1.current else 0) + classSum main f rows := rfl

/-! ## What the model sums -/

/-- A steady or falling channel counts with its level, a rising one with an amount of its own. -/
def steady (l : Light) : Nat := if l.aim ≤ l.level then l.level else 0

def rising (f : Light → Nat) (l : Light) : Nat := if l.level < l.aim then f l else 0

/-- A condition beside the class is one on the amount. -/
theorem class_and (p q : Prop) [Decidable p] [Decidable q] (a k : Nat) :
    (if p ∧ q then a * k else 0) = if p then (if q then a else 0) * k else 0 := by
  by_cases hp : p <;> by_cases hq : q <;> simp [hp, hq]

theorem lightCharge_eq (main : Bool) (rows : List LightRow) : lightCharge main rows = classSum main steady rows := by
  simp only [lightCharge, classSum, steady, class_and]

theorem risenSum_eq (main : Bool) (f : Light → Nat) (rows : List LightRow) :
    (rows.map fun x => if x.1.main = main ∧ x.2.level < x.2.aim then f x.2 * x.1.current else 0).sum =
      classSum main (rising f) rows := by
  simp only [classSum, rising, class_and]

theorem risingCharge_eq (main : Bool) (rows : List LightRow) :
    risingCharge main rows = classSum main (rising (·.level)) rows := risenSum_eq main (·.level) rows

theorem lightWant_eq (main : Bool) (rows : List LightRow) :
    lightWant main rows = (classSum main (fun l => max l.level l.aim) rows + 9999) / 10000 := rfl

/-- The level of every channel of a class is what the steady and what the rising ones draw. -/
theorem classSum_level (main : Bool) (rows : List LightRow) : classSum main (·.level) rows =
    classSum main steady rows + classSum main (rising (·.level)) rows := by
  induction rows with
  | nil => rfl
  | cons x rows ih =>
    have head : x.2.level = steady x.2 + rising (·.level) x.2 := by
      unfold steady rising
      dsimp only
      split <;> split <;> omega
    rw [classSum_cons, classSum_cons, classSum_cons, ih]
    split
    · change x.2.level * _ + _ = _
      rw [head]
      ring
    · ring

/-! ## One share -/

/-- What a new goal leaves of a channel. -/
theorem takeGoal_keeps (now limit goal : Nat) (l : Light) : let m := takeGoal now limit goal l
    m.target = l.target ∧ m.last = l.last ∧ m.level = l.level ∧ m.aim = l.aim ∧ m.press = l.press ∧
    m.heldOff = l.heldOff ∧ m.capped = l.capped ∧ m.shed = l.shed ∧ m.limit = limit ∧ m.goal = goal ∧
    m.degraded = (decide (goal < l.aim) || l.heldOff) ∧
    (goal = l.goal → m.fadeStart = l.fadeStart ∧ m.fadeSteps = l.fadeSteps) ∧
    (goal ≠ l.goal → l.level ≠ goal → m.fadeStart = now ∧ m.fadeSteps = 0) := by
  unfold takeGoal
  dsimp only
  split_ifs with same there
  · exact ⟨rfl, rfl, rfl, rfl, rfl, rfl, rfl, rfl, rfl, same.symm, rfl, fun _ => ⟨rfl, rfl⟩, fun h => absurd same h⟩
  · exact ⟨rfl, rfl, rfl, rfl, rfl, rfl, rfl, rfl, rfl, rfl, rfl, fun h => absurd h same, fun _ h => absurd there.symm h⟩
  · exact ⟨rfl, rfl, rfl, rfl, rfl, rfl, rfl, rfl, rfl, rfl, rfl, fun h => absurd h same, fun _ _ => ⟨rfl, rfl⟩⟩

@[simp] theorem takeGoal_level (now limit goal : Nat) (l : Light) : (takeGoal now limit goal l).level = l.level := by
  obtain ⟨-, -, level, -⟩ := takeGoal_keeps now limit goal l
  exact level

@[simp] theorem takeGoal_aim (now limit goal : Nat) (l : Light) : (takeGoal now limit goal l).aim = l.aim := by
  obtain ⟨-, -, -, aim, -⟩ := takeGoal_keeps now limit goal l
  exact aim

@[simp] theorem takeGoal_limit (now limit goal : Nat) (l : Light) : (takeGoal now limit goal l).limit = limit := by
  obtain ⟨-, -, -, -, -, -, -, -, limit, -⟩ := takeGoal_keeps now limit goal l
  exact limit

/-- The limit of a rising channel when `used` of the budget is spoken for (R157). -/
def shareLimit (budget used : Nat) (c : LightCfg) (l : Light) : Nat :=
  max l.level (min l.aim ((budget - used) / c.current))

/-- A channel of the class with its share, and the charge after it. -/
def shareOne (main : Bool) (now budget charge : Nat) (c : LightCfg) (l : Light) (rest : List LightRow) : Light × Nat :=
  if c.main ≠ main then (l, charge)
  else if l.aim ≤ l.level then (takeGoal now l.level l.aim l, charge)
  else (takeGoal now (shareLimit budget (charge + risingCharge main rest) c l)
    (shareLimit budget (charge + risingCharge main rest) c l) l,
    charge + shareLimit budget (charge + risingCharge main rest) c l * c.current)

/-- The rows after the share of a class (R157). -/
def shareRows (main : Bool) (now budget : Nat) : Nat → List LightRow → List LightRow
  | _, [] => []
  | charge, (c, l) :: rest => (c, (shareOne main now budget charge c l rest).1) ::
      shareRows main now budget (shareOne main now budget charge c l rest).2 rest

section
variable {main : Bool} {now budget : Nat}

theorem shareOut_cons (charge : Nat) (c : LightCfg) (l : Light) (rest : List LightRow) :
    shareOut main now budget charge ((c, l) :: rest) = (shareOne main now budget charge c l rest).1 ::
      shareOut main now budget (shareOne main now budget charge c l rest).2 rest := by
  rw [shareOut, Nat.sub_sub]
  unfold shareOne shareLimit
  split
  · rfl
  · split <;> rfl

theorem shareRows_eq_zip (rows : List LightRow) : ∀ charge,
    (rows.map Prod.fst).zip (shareOut main now budget charge rows) = shareRows main now budget charge rows := by
  induction rows with
  | nil => exact fun _ => rfl
  | cons x rows ih =>
    intro charge
    rw [shareOut_cons, List.map_cons, List.zip_cons_cons, ih]
    rfl

theorem shareOut_length (rows : List LightRow) : ∀ charge, (shareOut main now budget charge rows).length = rows.length := by
  induction rows with
  | nil => exact fun _ => rfl
  | cons x rows ih =>
    intro charge
    rw [shareOut_cons, List.length_cons, List.length_cons, ih]

/-- A share leaves a sum that no goal or limit enters. -/
theorem classSum_shareRows {f : Light → Nat} (hf : ∀ limit goal l, f (takeGoal now limit goal l) = f l) (class_ : Bool)
    (rows : List LightRow) : ∀ charge, classSum class_ f (shareRows main now budget charge rows) = classSum class_ f rows := by
  induction rows with
  | nil => exact fun _ => rfl
  | cons x rows ih =>
    intro charge
    have head : f (shareOne main now budget charge x.1 x.2 rows).1 = f x.2 := by
      unfold shareOne
      split_ifs
      · rfl
      · exact hf ..
      · exact hf ..
    rw [shareRows, classSum_cons, classSum_cons, ih, head]

/-- A share leaves the channels of the other class. -/
theorem shareRows_other (rows : List LightRow) : ∀ (charge i : Nat) (c : LightCfg) (l : Light), c.main ≠ main →
    ((shareRows main now budget charge rows)[i]? = some (c, l) ↔ rows[i]? = some (c, l)) := by
  induction rows with
  | nil => simp [shareRows]
  | cons x rows ih =>
    intro charge i c l other
    cases i with
    | zero =>
      simp only [shareRows, List.getElem?_cons_zero, Option.some.injEq]
      constructor
      · intro h
        have cfg : x.1 = c := congrArg Prod.fst h
        rw [← h]
        have still : (shareOne main now budget charge x.1 x.2 rows).1 = x.2 := by
          unfold shareOne
          rw [if_pos (by rw [cfg]; exact other)]
        rw [still]
      · intro h
        have still : (shareOne main now budget charge x.1 x.2 rows).1 = x.2 := by
          unfold shareOne
          rw [if_pos (by rw [h]; exact other)]
        rw [still]
        exact h
    | succ i =>
      simp only [shareRows, List.getElem?_cons_succ]
      exact ih _ i c l other

/-- What the share gives a channel of its class: the charge of the steady channels, the shares before it and the
present draw behind it are spoken for. -/
theorem shareRows_at (rows : List LightRow) : ∀ (charge i : Nat) (c : LightCfg) (l' : Light),
    (shareRows main now budget charge rows)[i]? = some (c, l') → c.main = main → ∃ l, rows[i]? = some (c, l) ∧
      (l.aim ≤ l.level → l' = takeGoal now l.level l.aim l) ∧
      (l.level < l.aim → ∃ k, k = shareLimit budget (charge +
          classSum main (rising (·.limit)) ((shareRows main now budget charge rows).take i) +
          classSum main (rising (·.level)) (rows.drop (i + 1))) c l ∧ l' = takeGoal now k k l) := by
  induction rows with
  | nil => simp [shareRows]
  | cons x rows ih =>
    intro charge i c l' at_ mine
    cases i with
    | zero =>
      simp only [shareRows, List.getElem?_cons_zero, Option.some.injEq, Prod.mk.injEq] at at_
      obtain ⟨rfl, rfl⟩ := at_
      refine ⟨x.2, rfl, fun low => ?_, fun high => ⟨_, rfl, ?_⟩⟩
      · unfold shareOne
        rw [if_neg (not_not_intro mine), if_pos low]
      · unfold shareOne
        rw [if_neg (not_not_intro mine), if_neg (not_le.mpr high), risingCharge_eq]
        rfl
    | succ i =>
      simp only [shareRows, List.getElem?_cons_succ] at at_
      obtain ⟨l, found, low, high⟩ := ih _ i c l' at_ mine
      refine ⟨l, found, low, fun up => ?_⟩
      obtain ⟨k, is, given⟩ := high up
      refine ⟨k, ?_, given⟩
      have spoken : (shareOne main now budget charge x.1 x.2 rows).2 = charge +
          (if x.1.main = main then rising (·.limit) (shareOne main now budget charge x.1 x.2 rows).1 * x.1.current
            else 0) := by
        unfold shareOne
        by_cases other : x.1.main ≠ main
        · rw [if_pos other, if_neg other]
          rfl
        · rw [if_neg other, if_pos (not_not.mp other)]
          by_cases low : x.2.aim ≤ x.2.level
          · rw [if_pos low]
            simp [rising, not_lt.mpr low]
          · rw [if_neg low]
            simp [rising, not_le.mp low]
      rw [is]
      simp only [shareRows, List.take_succ_cons, classSum_cons, List.drop_succ_cons]
      rw [spoken, Nat.add_assoc charge]

/-- Within the budget at the start, the class stays within it (R50, R158). -/
theorem shareRows_within (rows : List LightRow) : ∀ charge,
    charge + classSum main (rising (·.level)) rows ≤ budget →
    charge + classSum main (rising (·.limit)) (shareRows main now budget charge rows) ≤ budget := by
  induction rows with
  | nil => exact fun _ => id
  | cons x rows ih =>
    intro charge fits
    rw [classSum_cons] at fits
    rw [shareRows, classSum_cons]
    by_cases mine : x.1.main = main
    · rw [if_pos mine] at fits ⊢
      by_cases low : x.2.aim ≤ x.2.level
      · have one : shareOne main now budget charge x.1 x.2 rows = (takeGoal now x.2.level x.2.aim x.2, charge) := by
          unfold shareOne
          rw [if_neg (not_not_intro mine), if_pos low]
        have none : rising (·.limit) (takeGoal now x.2.level x.2.aim x.2) = 0 := by
          simp [rising, not_lt.mpr low]
        have none' : rising (·.level) x.2 = 0 := by simp [rising, not_lt.mpr low]
        rw [one]
        dsimp only
        rw [none, Nat.zero_mul, Nat.zero_add]
        rw [none', Nat.zero_mul, Nat.zero_add] at fits
        exact ih charge fits
      · have high : x.2.level < x.2.aim := not_le.mp low
        obtain ⟨k, is⟩ : ∃ k, shareLimit budget (charge + risingCharge main rows) x.1 x.2 = k := ⟨_, rfl⟩
        have one : shareOne main now budget charge x.1 x.2 rows = (takeGoal now k k x.2, charge + k * x.1.current) := by
          unfold shareOne
          rw [if_neg (not_not_intro mine), if_neg low, is]
        have share : rising (·.limit) (takeGoal now k k x.2) = k := by simp [rising, high]
        have level : rising (·.level) x.2 = x.2.level := by simp [rising, high]
        rw [level] at fits
        have room : charge + k * x.1.current + classSum main (rising (·.level)) rows ≤ budget := by
          rw [← is, shareLimit, risingCharge_eq]
          rcases max_choice x.2.level (min x.2.aim
              ((budget - (charge + classSum main (rising (·.level)) rows)) / x.1.current)) with h | h
          · rw [h]
            omega
          · rw [h]
            have part : min x.2.aim ((budget - (charge + classSum main (rising (·.level)) rows)) / x.1.current) *
                x.1.current ≤ budget - (charge + classSum main (rising (·.level)) rows) :=
              (Nat.mul_le_mul_right _ (min_le_right ..)).trans (Nat.div_mul_le_self ..)
            omega
        have tail := ih (charge + k * x.1.current) room
        rw [one]
        dsimp only
        rw [share]
        omega
    · rw [if_neg mine, Nat.zero_add] at fits ⊢
      have one : shareOne main now budget charge x.1 x.2 rows = (x.2, charge) := by
        unfold shareOne
        rw [if_pos mine]
      rw [one]
      exact ih charge fits

end

end Sys2Proof.Machine
end

section
/-!
# Proofs: the lights at the end of an event (R155 to R159)

What the frames and the wait service leave of every claim (`standings`), what the other jobs leave of the two claims of
the lights (`LampClaims`), and what the aims and the claims of the lights are made of.
-/
namespace Sys2Proof.Machine

/-! ## What asking leaves of a claim -/

/-- What asking, giving up and carrying leave of a claim: whether it is filed, its class, held and wanted amount,
whether it is degradable, and its deadline. -/
def Claim.standing (c : Claim) : Bool × Nat × Nat × Nat × Bool × Option Nat :=
  (c.state == .idle, c.cls, c.held, c.wanted, c.degradable, c.deadline)

def Node.standings (n : Node) : Vector (Bool × Nat × Nat × Nat × Bool × Option Nat) 8 := n.claims.map Claim.standing

theorem standing_claim (n : Node) (i : Fin 8) : (n.claim i).standing = n.standings[i] := by
  simp [Node.standings, Node.claim]

theorem standing_of {n m : Node} (h : m.standings = n.standings) (i : Fin 8) :
    (m.claim i).standing = (n.claim i).standing := by
  rw [standing_claim, standing_claim, h]

theorem idle_of_standing {c d : Claim} (h : c.standing = d.standing) : c.state = .idle ↔ d.state = .idle := by
  have same : (c.state == .idle) = (d.state == .idle) := congrArg Prod.fst h
  rw [← beq_iff_eq, same, beq_iff_eq]

/-- A claim written with the same standing. -/
theorem standings_setClaim {n : Node} {i : Fin 8} {c : Claim} (h : c.standing = (n.claim i).standing) :
    (n.setClaim i c).standings = n.standings := by
  refine Vector.ext fun j hj => ?_
  have is := standing_claim (n.setClaim i c) ⟨j, hj⟩
  rw [Node.claim_setClaim] at is
  have was := standing_claim n ⟨j, hj⟩
  by_cases e : i = ⟨j, hj⟩
  · subst e
    rw [if_pos rfl, h, was] at is
    exact is.symm
  · rw [if_neg e, was] at is
    exact is.symm

@[simp] theorem standings_setPub (n : Node) (p) : (n.setPub p).standings = n.standings := rfl
@[simp] theorem standings_setEv (n : Node) (e) : (n.setEv e).standings = n.standings := rfl
@[simp] theorem standings_setCmd (n : Node) (c) : (n.setCmd c).standings = n.standings := rfl

theorem foldl_standings {α : Type} (f : Node → α → Node) (hf : ∀ n x, (f n x).standings = n.standings) (l : List α) :
    ∀ n, (l.foldl f n).standings = n.standings := by
  induction l with
  | nil => exact fun _ => rfl
  | cons x _ ih => exact fun n => (ih (f n x)).trans (hf n x)

@[simp] theorem standings_placePeriodic (f : Frame) (n : Node) : (placePeriodic f n).1.standings = n.standings := by
  unfold placePeriodic; repeat' split
  all_goals rfl
@[simp] theorem standings_placeAnswer (f : Frame) (n : Node) : (placeAnswer f n).1.standings = n.standings := by
  unfold placeAnswer; split <;> rfl

@[simp] theorem standings_carriedBy (e : Nat) (n : Node) : (carriedBy e n).standings = n.standings :=
  foldl_standings _ (fun n i => by
    dsimp only
    split
    · exact standings_setClaim rfl
    · rfl) _ _

@[simp] theorem standings_carrierGivenUp (e : Option Nat) (n : Node) : (carrierGivenUp e n).standings = n.standings :=
  foldl_standings _ (fun n i => by
    dsimp only
    split
    next asks => exact standings_setClaim (by simp [Claim.standing, backToWaiting, asks.1])
    next => rfl) _ _

/-- A turn of a filed claim. -/
theorem standings_waitTurn {p : Node × List (Fin 8)} {i : Fin 8} (filed : (p.1.claim i).state ≠ .idle) :
    (waitTurn p i).1.standings = p.1.standings := by
  have asks (a : Nat) : (askFor i a p.1).standings = p.1.standings :=
    standings_setClaim (by simp [Claim.standing, filed])
  unfold waitTurn
  dsimp only
  repeat' split
  · rfl
  · exact asks _
  · rfl
  · exact asks _
  · rfl

theorem mem_of_mem_insertBy {α : Type} {before : α → α → Bool} {x y : α} {l : List α} (h : y ∈ insertBy before x l) :
    y = x ∨ y ∈ l := by
  induction l with
  | nil => exact .inl (List.mem_singleton.mp h)
  | cons z l ih =>
    unfold insertBy at h
    split at h
    · exact List.mem_cons.mp h
    · rcases List.mem_cons.mp h with rfl | h
      · exact .inr (List.mem_cons_self ..)
      · exact (ih h).imp_right (List.mem_cons_of_mem _)

theorem mem_of_mem_sortBy {α : Type} {before : α → α → Bool} {y : α} {l : List α} (h : y ∈ sortBy before l) : y ∈ l := by
  induction l with
  | nil => exact h
  | cons x l ih =>
    rcases mem_of_mem_insertBy h with rfl | h
    · exact List.mem_cons_self ..
    · exact List.mem_cons_of_mem _ (ih h)

theorem standings_serveWaits (n : Node) : (serveWaits n).standings = n.standings := by
  have fold : ∀ (l : List (Fin 8)) (p : Node × List (Fin 8)), (∀ i ∈ l, (p.1.claim i).state ≠ .idle) →
      (l.foldl waitTurn p).1.standings = p.1.standings := by
    intro l
    induction l with
    | nil => exact fun _ _ => rfl
    | cons i l ih =>
      intro p filed
      have turn := standings_waitTurn (filed i (List.mem_cons_self ..))
      refine (ih _ fun j mem => ?_).trans turn
      rw [Ne, idle_of_standing (standing_of turn j)]
      exact filed j (List.mem_cons_of_mem _ mem)
  have order (i : Fin 8) (mem : i ∈ sortBy (waitsBefore n) (slots.filter fun i => (n.claim i).state = .waiting)) :
      (n.claim i).state ≠ .idle := by
    have kept := mem_of_mem_sortBy mem
    have waits : (n.claim i).state = .waiting := of_decide_eq_true (List.mem_filter.mp kept).2
    rw [waits]
    simp
  unfold serveWaits waitService
  dsimp only
  repeat' split
  · exact fold _ _ order
  · exact fold _ _ order
  · rfl
  · rfl

theorem standings_queuePresence (n0 n : Node) : (queuePresence n0 n).standings = n.standings := by
  unfold queuePresence; dsimp only; split <;> simp
theorem standings_queueDraw (n0 n : Node) : (queueDraw n0 n).standings = n.standings := by
  unfold queueDraw; dsimp only; repeat' split
  all_goals simp
theorem standings_queueAllowance (n0 n : Node) : (queueAllowance n0 n).standings = n.standings := by
  unfold queueAllowance; dsimp only; repeat' split
  all_goals simp
theorem standings_queueTanks (n0 n : Node) : (queueTanks n0 n).standings = n.standings := by
  unfold queueTanks; dsimp only; split <;> simp
theorem standings_queueClimate (n0 n : Node) : (queueClimate n0 n).standings = n.standings := by
  unfold queueClimate; dsimp only; repeat' split
  all_goals simp
theorem standings_queueMotion (n0 n : Node) : (queueMotion n0 n).standings = n.standings := by
  unfold queueMotion; dsimp only; split <;> simp
theorem standings_queueLights (n0 n : Node) : (queueLights n0 n).standings = n.standings := by
  unfold queueLights; dsimp only; split <;> simp
theorem standings_queueReply (n : Node) : (queueReply n).standings = n.standings := by
  unfold queueReply; dsimp only; repeat' split
  all_goals simp
theorem standings_queueReport (n : Node) : (queueReport n).standings = n.standings := by
  unfold queueReport; split
  · exact standings_placeAnswer ..
  · rfl
theorem standings_restartCheck (n : Node) : (restartCheck n).standings = n.standings := by
  unfold restartCheck; repeat' split
  all_goals rfl

/-- After the blocks have told one another an event's end leaves every claim's standing. -/
theorem standings_finish (n0 n : Node) : (finish n0 n).standings = (propagate n0 n).standings := by
  rw [finish, standings_restartCheck, queueFrames, standings_queueReport, standings_queueReply, standings_queueLights,
    standings_queueMotion, standings_queueClimate, standings_queueTanks, standings_queueAllowance, standings_queueDraw,
    standings_queuePresence, standings_serveWaits]

/-! ## The two claims of the lights under the other jobs -/

/-- The claims of the lights are the same. -/
def LampClaims (n m : Node) : Prop := ∀ main, m.claim (lightSlot main) = n.claim (lightSlot main)

namespace LampClaims
variable {a n : Node}

theorem refl (n : Node) : LampClaims n n := fun _ => rfl

theorem trans {m k : Node} (h : LampClaims n m) (h' : LampClaims m k) : LampClaims n k :=
  fun main => (h' main).trans (h main)

theorem ite {b : Bool} {f : Node → Node} (h : LampClaims n (f n)) : LampClaims n (if b then f n else n) := by
  split
  · exact h
  · exact refl n

theorem putClaim {i : Fin 8} {c : Claim} {w : Bool} (other : ∀ main, i ≠ lightSlot main) (h : LampClaims a n) :
    LampClaims a (n.putClaim i c w) := by
  intro main
  rw [claim_putClaim, if_neg (other main)]
  exact h main

theorem heater (main : Bool) : slotHeater ≠ lightSlot main := by cases main <;> decide
theorem pump (main : Bool) : slotPump ≠ lightSlot main := by cases main <;> decide
theorem frost (main : Bool) : slotFrost ≠ lightSlot main := by cases main <;> decide

theorem fileClaim {i : Fin 8} {cls w : Nat} {wait : Option Nat} (other : ∀ main, i ≠ lightSlot main)
    (h : LampClaims a n) : LampClaims a (fileClaim i cls w wait n) := by
  obtain ⟨c, w, e⟩ := fileClaim_puts i cls w wait n
  rw [e]
  exact h.putClaim other

theorem pumpStop {c : PumpCfg} (h : LampClaims a n) : LampClaims a (pumpStop c n) := by
  obtain ⟨b, k, w, e, -⟩ := pumpStop_shape c n
  rw [e]
  exact putClaim pump h

theorem pumpFile {c : PumpCfg} (h : LampClaims a n) : LampClaims a (pumpFile c n) := by
  obtain ⟨k, w, p, e, -⟩ := pumpFile_shape c n
  rw [e]
  exact h.putClaim (c := k) (w := w) pump

theorem pumpCheck : LampClaims n (pumpCheck n) := by
  have told : LampClaims n (if n.view.shed < 2 then n.setPump { n.pump with toldShed := false } else n) := by
    split
    · exact refl n
    · exact refl n
  have low {m : Node} (h : LampClaims n m) : LampClaims n (pumpLow m) := by
    unfold pumpLow
    dsimp only
    split
    · exact h
    · exact h
  unfold Machine.pumpCheck
  split
  · exact refl n
  · unfold pumpEvaluate
    dsimp only
    generalize (if n.view.shed < 2 then n.setPump { n.pump with toldShed := false } else n) = m at told ⊢
    repeat' split
    · exact told.pumpStop
    · exact low told
    · exact told.pumpStop
    · exact told
    · exact told
    · exact told
    · exact pumpFile (n := pumpTo .idle none m) told
    · exact told

theorem frostCheck : LampClaims n (frostCheck n) := by
  have moves (c : FrostCfg) : LampClaims n (beginMove .dumping c.openCoil n) :=
    fileClaim frost (refl n)
  unfold Machine.frostCheck
  split
  · exact refl n
  · unfold frostEvaluate
    dsimp only
    repeat' split
    · exact refl n
    · exact moves _
    · exact refl n
    · exact refl n
    · exact refl n
    · exact moves _
    · exact refl n
    · exact refl n

theorem heaterCheck : LampClaims n (heaterCheck n) := by
  unfold Machine.heaterCheck standbyCheck startCheck ventCheck
  repeat' split
  · exact refl n
  · exact refl n
  · exact refl n
  · exact refl n
  · exact refl n
  · exact refl n
  · exact fileClaim heater (refl n)
  · exact refl n
  · exact refl n
  · exact refl n
  · exact refl n
  · exact refl n
  · exact fileClaim heater (refl n)
  · exact fileClaim heater (refl n)
  · exact refl n
  · exact refl n
  · exact refl n

theorem courtesyCheck : LampClaims n (courtesyCheck n) := by
  obtain ⟨k, e⟩ := courtesyCheck_sets n
  rw [e]
  exact refl n

end LampClaims

/-! ## What the other jobs leave for the lights -/

/-- The node that the lights derive their aims and claims from. -/
def lightsStart (n0 n : Node) : Node :=
  toldCourtesy n0 (toldPump (n.view.shed != n0.view.shed) n0 (toldFrost n0 (toldHeater n0 n)))

theorem lightsStart_claims (n0 n : Node) : LampClaims n (lightsStart n0 n) := by
  have heater : LampClaims n (toldHeater n0 n) := LampClaims.ite LampClaims.heaterCheck
  have frost : LampClaims (toldHeater n0 n) (toldFrost n0 (toldHeater n0 n)) := LampClaims.ite LampClaims.frostCheck
  have pump : LampClaims (toldFrost n0 (toldHeater n0 n))
      (toldPump (n.view.shed != n0.view.shed) n0 (toldFrost n0 (toldHeater n0 n))) :=
    LampClaims.ite LampClaims.pumpCheck
  have courtesy : LampClaims (toldPump (n.view.shed != n0.view.shed) n0 (toldFrost n0 (toldHeater n0 n)))
      (lightsStart n0 n) := LampClaims.ite LampClaims.courtesyCheck
  exact heater.trans (frost.trans (pump.trans courtesy))

theorem lightsStart_channels (n0 n : Node) : (lightsStart n0 n).lights.channels = n.lights.channels := by
  have courtesy (m : Node) : (courtesyCheck m).lights.channels = m.lights.channels := by
    obtain ⟨k, e⟩ := courtesyCheck_sets m
    rw [e]
    rfl
  rw [lightsStart, toldCourtesy, ite_keeps (·.lights.channels) _ courtesyCheck _ (courtesy _), toldPump,
    ite_keeps (·.lights) _ Machine.pumpCheck _ (lights_pumpCheck _), toldFrost,
    ite_keeps (·.lights) _ frostCheck _ (lights_frostCheck _), toldHeater,
    ite_keeps (·.lights) _ heaterCheck _ (lights_heaterCheck _)]

theorem lightsStart_core (n0 n : Node) : (lightsStart n0 n).core = n.core := by
  rw [lightsStart, toldCourtesy, ite_keeps Node.core _ courtesyCheck _ (core_courtesyCheck _), core_toldPump,
    core_toldFrost, core_toldHeater]

end Sys2Proof.Machine
end

section
/-!
# Proofs: the shares of both classes

The rows after the shares of main and amenity lights, each channel in one of them, and the claims and outputs that go
with them. O48's second half is these, seen through the end of an event.
-/
namespace Sys2Proof.Machine

/-! ## The rows of a node -/

theorem zip_map_fst {α β γ : Type} : ∀ (as : List α) (bs : List β) (cs : List γ), cs.length = (as.zip bs).length →
    as.zip cs = ((as.zip bs).map Prod.fst).zip cs
  | [], _, _, _ => rfl
  | _ :: _, [], [], _ => rfl
  | _ :: _, [], _ :: _, h => absurd h (by simp)
  | _ :: _, _ :: _, [], h => absurd h (by simp)
  | a :: as, b :: bs, c :: cs, h => by
    have rest := zip_map_fst as bs cs (by simpa using h)
    simp only [List.zip_cons_cons, List.map_cons, rest]

theorem lamps_lightsCfg {n : Node} {set : LightsCfg} (h : n.lightsCfg = some set) :
    n.lamps = set.channels.zip n.lights.channels := by
  simp only [Node.lamps, h]

theorem lamps_congr {n m : Node} (cfg : m.cfg = n.cfg) (lights : m.lights.channels = n.lights.channels) :
    m.lamps = n.lamps := by
  simp only [Node.lamps, Node.lightsCfg, cfg, lights]

/-- New channels, one for each row, stand in the rows' order. -/
theorem setLamps_lamps {n : Node} {ls : List Light} (h : ls.length = n.lamps.length) :
    (n.setLamps ls).lamps = (n.lamps.map Prod.fst).zip ls := by
  cases cfg : n.lightsCfg with
  | none =>
    have none' : n.lamps = [] := by simp only [Node.lamps, cfg]
    have none'' : (n.setLamps ls).lightsCfg = none := cfg
    rw [none']
    simp only [Node.lamps, none'']
    rfl
  | some set =>
    have cfg' : (n.setLamps ls).lightsCfg = some set := cfg
    rw [lamps_lightsCfg cfg] at h ⊢
    rw [lamps_lightsCfg cfg']
    exact zip_map_fst _ _ _ h

theorem lamps_setLamps_map {n : Node} (f : LightRow → Light) :
    (n.setLamps (n.lamps.map f)).lamps = n.lamps.map fun x => (x.1, f x) := by
  rw [setLamps_lamps (List.length_map ..), List.zip_map']

/-- A change of the channels, channel by channel. -/
theorem mapLamps_channels (n : Node) (f : Nat → LightCfg → Light → Light) (i : Nat) :
    (n.mapLamps f).lights.channels[i]? = n.lamps[i]?.map fun x => f i x.1 x.2 := by
  simp only [Node.mapLamps, Node.setLamps_lights, List.getElem?_map, List.getElem?_zipIdx, Option.map_map]
  simp only [Nat.zero_add, Function.comp_def]

theorem mapLamps_frame (n : Node) (f : Nat → LightCfg → Light → Light) : n.mapLamps f =
    { n with lights := { n.lights with channels := (n.mapLamps f).lights.channels } } := rfl

/-! ## Sums over part of the rows -/

section
variable {main : Bool} {now budget : Nat}

theorem classSum_take_other {other : Bool} (apart : main ≠ other) (f : Light → Nat) (rows : List LightRow) :
    ∀ charge i, classSum main f ((shareRows other now budget charge rows).take i) = classSum main f (rows.take i) := by
  induction rows with
  | nil => exact fun _ _ => rfl
  | cons x rows ih =>
    intro charge i
    cases i with
    | zero => rfl
    | succ i =>
      rw [shareRows, List.take_succ_cons, List.take_succ_cons, classSum_cons, classSum_cons, ih]
      by_cases mine : x.1.main = main
      · have still : (shareOne other now budget charge x.1 x.2 rows).1 = x.2 := by
          unfold shareOne
          rw [if_pos (by rw [mine]; exact apart)]
        rw [still]
      · rw [if_neg mine, if_neg mine]

theorem classSum_other {other : Bool} (apart : main ≠ other) (f : Light → Nat) (charge : Nat) (rows : List LightRow) :
    classSum main f (shareRows other now budget charge rows) = classSum main f rows := by
  have whole := classSum_take_other (now := now) (budget := budget) apart f rows charge
    (max rows.length (shareRows other now budget charge rows).length)
  rwa [List.take_of_length_le (le_max_right ..), List.take_of_length_le (le_max_left ..)] at whole

theorem classSum_drop {f : Light → Nat} (hf : ∀ limit goal l, f (takeGoal now limit goal l) = f l) (class_ : Bool)
    (rows : List LightRow) : ∀ charge i,
      classSum class_ f ((shareRows main now budget charge rows).drop i) = classSum class_ f (rows.drop i) := by
  induction rows with
  | nil => exact fun _ _ => by simp [shareRows]
  | cons x rows ih =>
    intro charge i
    cases i with
    | zero => exact classSum_shareRows hf class_ (x :: rows) charge
    | succ i => exact ih _ i

theorem steady_takeGoal (limit goal : Nat) (l : Light) : steady (takeGoal now limit goal l) = steady l := by
  simp [steady]

theorem risingLevel_takeGoal (limit goal : Nat) (l : Light) :
    rising (·.level) (takeGoal now limit goal l) = rising (·.level) l := by
  simp [rising]

/-- A channel after a share is the channel before it, of the other class, or has a new goal. -/
theorem shareRows_from (rows : List LightRow) : ∀ (charge i : Nat) (c : LightCfg) (l' : Light),
    (shareRows main now budget charge rows)[i]? = some (c, l') → ∃ l, rows[i]? = some (c, l) ∧
      (c.main ≠ main → l' = l) ∧ (c.main = main → ∃ limit goal, l' = takeGoal now limit goal l) := by
  intro charge i c l' at_
  by_cases mine : c.main = main
  · obtain ⟨l, found, low, high⟩ := shareRows_at rows charge i c l' at_ mine
    refine ⟨l, found, fun h => absurd mine h, fun _ => ?_⟩
    by_cases up : l.level < l.aim
    · obtain ⟨k, -, given⟩ := high up
      exact ⟨k, k, given⟩
    · exact ⟨_, _, low (not_lt.mp up)⟩
  · exact ⟨l', (shareRows_other rows charge i c l' mine).mp at_, fun _ => rfl, fun h => absurd h mine⟩

end

/-! ## What a share has settled -/

/-- The rows of a class stand at their shares of a budget (R157). -/
def Shared (main : Bool) (budget : Nat) (rows : List LightRow) : Prop :=
  ∀ (i : Nat) (c : LightCfg) (l : Light), rows[i]? = some (c, l) → c.main = main →
    (l.aim ≤ l.level → l.limit = l.level ∧ l.goal = l.aim) ∧
    (l.level < l.aim → l.goal = l.limit ∧ l.limit = shareLimit budget (classSum main steady rows +
      classSum main (rising (·.limit)) (rows.take i) + classSum main (rising (·.level)) (rows.drop (i + 1))) c l)

section
variable {main : Bool} {now budget : Nat} {rows : List LightRow}

theorem shareRows_shared :
    Shared main budget (shareRows main now budget (classSum main steady rows) rows) := by
  intro i c l' at_ mine
  obtain ⟨l, -, low, high⟩ := shareRows_at rows _ i c l' at_ mine
  rw [classSum_shareRows steady_takeGoal, classSum_drop risingLevel_takeGoal]
  by_cases up : l.level < l.aim
  · obtain ⟨k, is, given⟩ := high up
    obtain ⟨-, -, level, aim, -, -, -, -, limit, goal, -⟩ := takeGoal_keeps now k k l
    rw [← given] at level aim limit goal
    refine ⟨fun h => absurd up (by omega), fun _ => ⟨goal.trans limit.symm, ?_⟩⟩
    rw [limit, shareLimit, level, aim]
    exact is
  · have given := low (not_lt.mp up)
    obtain ⟨-, -, level, aim, -, -, -, -, limit, goal, -⟩ := takeGoal_keeps now l.level l.aim l
    rw [← given] at level aim limit goal
    exact ⟨fun _ => ⟨limit.trans level.symm, goal.trans aim.symm⟩, fun h => absurd h (by omega)⟩

/-- A share leaves what the other class has settled. -/
theorem Shared.other {other : Bool} {budget' charge : Nat} (h : Shared main budget rows) (apart : main ≠ other) :
    Shared main budget (shareRows other now budget' charge rows) := by
  intro i c l at_ mine
  have was := (shareRows_other rows charge i c l (by rw [mine]; exact apart)).mp at_
  rw [classSum_other apart, classSum_take_other apart, classSum_drop risingLevel_takeGoal]
  exact h i c l was mine

/-- What a class at its shares may draw at most. -/
theorem Shared.top (h : Shared main budget rows) : classSum main (fun l => max l.level l.limit) rows =
    classSum main steady rows + classSum main (rising (·.limit)) rows := by
  have each : ∀ x ∈ rows, x.1.main = main → max x.2.level x.2.limit = steady x.2 + rising (·.limit) x.2 := by
    intro x mem mine
    obtain ⟨i, at_⟩ := List.getElem?_of_mem mem
    obtain ⟨low, high⟩ := h i x.1 x.2 at_ mine
    unfold steady rising
    dsimp only
    by_cases up : x.2.level < x.2.aim
    · obtain ⟨-, is⟩ := high up
      have least : x.2.level ≤ x.2.limit := by
        rw [is]
        exact le_max_left ..
      rw [if_neg (not_le.mpr up), if_pos up]
      omega
    · obtain ⟨limit, -⟩ := low (not_lt.mp up)
      rw [if_pos (not_lt.mp up), if_neg up]
      omega
  clear h
  induction rows with
  | nil => rfl
  | cons x rows ih =>
    have rest := ih fun y mem => each y (List.mem_cons_of_mem _ mem)
    rw [classSum_cons, classSum_cons, classSum_cons, rest]
    by_cases mine : x.1.main = main
    · rw [if_pos mine, if_pos mine, if_pos mine, each x (List.mem_cons_self ..) mine]
      ring
    · rw [if_neg mine, if_neg mine, if_neg mine]
      ring

end

/-- What a limit is, in the terms of R157. -/
theorem shareLimit_spec (budget used : Nat) (c : LightCfg) (l : Light) (current : 0 < c.current) (up : l.level < l.aim) :
    let k := shareLimit budget used c l
    l.level ≤ k ∧ k ≤ l.aim ∧ (l.level < k → used + k * c.current ≤ budget) ∧
    ∀ j, l.level ≤ j → j ≤ l.aim → used + j * c.current ≤ budget → j ≤ k := by
  intro k
  have is : k = max l.level (min l.aim ((budget - used) / c.current)) := rfl
  refine ⟨by omega, by omega, fun rises => ?_, fun j _ top fits => ?_⟩
  · have least : k ≤ (budget - used) / c.current := by omega
    have some : 0 < (budget - used) / c.current := by omega
    have part : k * c.current ≤ budget - used := (Nat.le_div_iff_mul_le current).mp least
    have room : c.current ≤ budget - used := (Nat.div_pos_iff.mp some).2
    omega
  · have least : j ≤ (budget - used) / c.current := (Nat.le_div_iff_mul_le current).mpr (by omega)
    omega

/-! ## Both classes -/

/-- The rows with the aims of R155. -/
def aimRows (set : LightsCfg) (n : Node) : List LightRow := n.lamps.map fun x => (x.1, takeAim set n x.1 x.2)

/-- The rows after the shares of the main and the amenity class. -/
def sharedRows (now main amenity : Nat) (rows : List LightRow) : List LightRow :=
  let first := shareRows true now main (classSum true steady rows) rows
  shareRows false now amenity (classSum false steady first) first

/-- The budget of a class. -/
def budgetOf (main amenity : Nat) (m : Bool) : Nat := if m then main else amenity

section
variable {now main amenity : Nat} {rows : List LightRow}

theorem sharedRows_shared (m : Bool) : Shared m (budgetOf main amenity m) (sharedRows now main amenity rows) := by
  cases m with
  | true => exact shareRows_shared.other (by simp)
  | false => exact shareRows_shared

theorem classSum_sharedRows {f : Light → Nat} (hf : ∀ limit goal l, f (takeGoal now limit goal l) = f l) (m : Bool) :
    classSum m f (sharedRows now main amenity rows) = classSum m f rows :=
  (classSum_shareRows hf m _ _).trans (classSum_shareRows hf m _ _)

theorem sharedRows_within (m : Bool)
    (fits : classSum m (·.level) (sharedRows now main amenity rows) ≤ budgetOf main amenity m) :
    classSum m (fun l => max l.level l.limit) (sharedRows now main amenity rows) ≤ budgetOf main amenity m := by
  rw [(sharedRows_shared m).top]
  rw [classSum_sharedRows (fun _ _ _ => takeGoal_level ..), classSum_level] at fits
  rw [classSum_sharedRows steady_takeGoal]
  cases m with
  | true =>
    have spoken : classSum true (rising (·.limit)) (sharedRows now main amenity rows) = classSum true (rising (·.limit))
        (shareRows true now main (classSum true steady rows) rows) := classSum_other (by simp) _ _ _
    rw [spoken]
    exact shareRows_within rows _ fits
  | false =>
    have first : classSum false steady (shareRows true now main (classSum true steady rows) rows) =
        classSum false steady rows := classSum_other (by simp) _ _ _
    have level : classSum false (rising (·.level)) (shareRows true now main (classSum true steady rows) rows) =
        classSum false (rising (·.level)) rows := classSum_other (by simp) _ _ _
    have within_ := shareRows_within (main := false) (now := now) (budget := amenity)
      (shareRows true now main (classSum true steady rows) rows) (classSum false steady rows) (by rw [level]; exact fits)
    unfold sharedRows
    dsimp only
    rw [first]
    exact within_

/-- Each channel takes one new goal. -/
theorem sharedRows_from {i : Nat} {c : LightCfg} {l' : Light} (h : (sharedRows now main amenity rows)[i]? = some (c, l')) :
    ∃ l limit goal, rows[i]? = some (c, l) ∧ l' = takeGoal now limit goal l := by
  obtain ⟨l1, first, same, mine⟩ := shareRows_from _ _ i c l' h
  obtain ⟨l, found, same', mine'⟩ := shareRows_from _ _ i c l1 first
  cases m : c.main with
  | true =>
    obtain ⟨limit, goal, given⟩ := mine' m
    exact ⟨l, limit, goal, found, (same (by simp [m])).trans given⟩
  | false =>
    obtain ⟨limit, goal, given⟩ := mine m
    exact ⟨l, limit, goal, found, given.trans (by rw [same' (by simp [m])])⟩

end

end Sys2Proof.Machine
end

section
/-!
# Proofs: the lights (chapter 8)

What `lightsUpdate` leaves: the rows at their aims and shares, the two claims at their wanted amounts, the outputs of
shed channels at 0. Then the light commands and the lights' clocks.
-/
namespace Sys2Proof.Machine

/-! ## The claims of the lights (R156) -/

theorem lightClaim_puts (main : Bool) (w : Nat) (n : Node) :
    ∃ c wait, lightClaim main w n = n.putClaim (lightSlot main) c wait := by
  unfold lightClaim
  dsimp only
  generalize (if main = true then 1 else 0) = cls
  repeat' split
  · exact fileClaim_puts ..
  · exact ⟨_, _, (putClaim_self n _).symm⟩
  · exact releaseClaim_puts ..
  · exact raiseClaim_puts ..
  · exact reduceClaim_puts ..

/-- A claim of the lights at the draw of its class. -/
def lampClaimed (active : Bool) (main : Bool) (want : Nat) (before after : Claim) : Prop :=
  (after.state = .idle ∧ (want = 0 ∨ active = false)) ∨
  (after.state ≠ .idle ∧ 0 < want ∧ after.wanted = want ∧
    (before.state = .idle → after.cls = (if main then 1 else 0) ∧ after.degradable = true ∧ after.deadline = none))

theorem raiseClaim_wants {i : Fin 8} {w : Nat} {wait : Option Nat} {n : Node} (filed : (n.claim i).state ≠ .idle)
    (more : (n.claim i).wanted < w) :
    ((raiseClaim i w wait n).claim i).state ≠ .idle ∧ ((raiseClaim i w wait n).claim i).wanted = w := by
  unfold raiseClaim
  dsimp only
  rw [if_neg (not_le.mpr more)]
  cases st : (n.claim i).state with
  | idle => exact absurd st filed
  | holding =>
    dsimp only
    split
    · exact ⟨by simp [Node.wantWait, st], by simp [Node.wantWait]⟩
    · exact ⟨by simp [Node.wantWait], by simp [Node.wantWait]⟩
  | waiting => exact ⟨by simp [Node.wantWait, st], by simp [Node.wantWait]⟩
  | asking => exact ⟨by simp [Node.wantWait, st], by simp [Node.wantWait]⟩

theorem reduceClaim_wants {i : Fin 8} {w : Nat} {n : Node} (filed : (n.claim i).state ≠ .idle) (some : w ≠ 0)
    (less : w ≤ (n.claim i).wanted) :
    ((reduceClaim i w n).claim i).state ≠ .idle ∧ ((reduceClaim i w n).claim i).wanted = w := by
  unfold reduceClaim
  dsimp only
  split
  · next h =>
    rcases h with h | h
    · exact absurd h filed
    · exact ⟨filed, le_antisymm h less⟩
  · split
    · exact ⟨by simp [Node.wantWait], by simp [Node.wantWait]⟩
    · exact ⟨by simp [Node.wantWait, filed], by simp [Node.wantWait]⟩

theorem lightClaim_claims (main : Bool) (w : Nat) (n : Node) :
    lampClaimed n.isActive main w (n.claim (lightSlot main)) ((lightClaim main w n).claim (lightSlot main)) := by
  unfold lightClaim
  dsimp only
  by_cases idle : (n.claim (lightSlot main)).state = .idle
  · rw [if_pos idle]
    by_cases files : 0 < w ∧ n.isActive = true
    · rw [if_pos files]
      have cls : (if main then 1 else 0) ≠ 4 := by cases main <;> decide
      have low : (lightSlot main).val < 2 := by cases main <;> decide
      have made : (fileClaim (lightSlot main) (if main then 1 else 0) w none n).claim (lightSlot main) =
          ⟨.waiting, if main then 1 else 0, 0, w, 0, none, none, none, n.now, true⟩ := by
        unfold fileClaim
        rw [if_neg (not_not_intro idle), if_neg cls, decide_eq_true low]
        exact Node.claim_setClaim_self ..
      rw [made]
      exact .inr ⟨by simp, files.1, rfl, fun _ => ⟨rfl, rfl, rfl⟩⟩
    · rw [if_neg files]
      refine .inl ⟨idle, ?_⟩
      rcases Nat.eq_zero_or_pos w with h | h
      · exact .inl h
      · exact .inr (Bool.eq_false_iff.mpr fun active => files ⟨h, active⟩)
  · rw [if_neg idle]
    by_cases zero : w = 0
    · rw [if_pos zero]
      exact .inl ⟨releaseClaim_idle .., .inl zero⟩
    · rw [if_neg zero]
      by_cases more : (n.claim (lightSlot main)).wanted < w
      · rw [if_pos more]
        obtain ⟨filed, wants⟩ := raiseClaim_wants (wait := none) idle more
        exact .inr ⟨filed, Nat.pos_of_ne_zero zero, wants, fun h => absurd h idle⟩
      · rw [if_neg more]
        obtain ⟨filed, wants⟩ := reduceClaim_wants idle zero (not_lt.mp more)
        exact .inr ⟨filed, Nat.pos_of_ne_zero zero, wants, fun h => absurd h idle⟩

/-! ## The outputs of shed channels (R165) -/

theorem lightShed_ask (c : LightCfg) (i : Fin 16) (v : Nat) (n : Node) : lightShed c (ask i v n) = lightShed c n := rfl

theorem darken_sets (rows : List LightRow) : ∀ n, ∃ b, darken rows n = n.setBank b := by
  induction rows with
  | nil => exact fun n => ⟨n.bank, rfl⟩
  | cons x rows ih =>
    intro n
    obtain ⟨b, e⟩ := ih (if lightShed x.1 n = true ∧ 0 < x.2.level then ask x.1.output 0 n else n)
    refine ⟨b, e.trans ?_⟩
    split <;> rfl

/-- Switched off, an output stays so. -/
theorem darken_off (rows : List LightRow) (ch : Fin 16) : ∀ n, (n.chan ch).commanded = 0 →
    ((darken rows n).chan ch).commanded = 0 := by
  induction rows with
  | nil => exact fun _ => id
  | cons x rows ih =>
    intro n off
    refine ih _ ?_
    dsimp only
    split
    · rw [commanded_ask]
      split
      · rfl
      · exact off
    · exact off

theorem darken_dark (rows : List LightRow) : ∀ n, ∀ x ∈ rows, lightShed x.1 n = true → 0 < x.2.level →
    ((darken rows n).chan x.1.output).commanded = 0 := by
  induction rows with
  | nil => simp
  | cons y rows ih =>
    intro n x mem shed lit
    rcases List.mem_cons.mp mem with rfl | mem
    · refine darken_off rows _ _ ?_
      dsimp only
      rw [if_pos ⟨shed, lit⟩, commanded_ask_self]
    · refine ih _ x mem ?_ lit
      dsimp only
      split
      · exact (lightShed_ask ..).trans shed
      · exact shed

/-! ## The lights afresh -/

section
variable {n : Node} {set : LightsCfg}

/-- The node whose claims the shares divide. -/
def claimedLights (set : LightsCfg) (n : Node) : Node :=
  lightClaim false (lightWant false (aimRows set n)) (lightClaim true (lightWant true (aimRows set n))
    ((darken n.lamps n).setLamps (n.lamps.map fun x => takeAim set n x.1 x.2)))

theorem aimed_lamps {b : Bank} :
    ((n.setBank b).setLamps (n.lamps.map fun x => takeAim set n x.1 x.2)).lamps = aimRows set n :=
  lamps_setLamps_map (n := n.setBank b) fun x => takeAim set n x.1 x.2

theorem claimedLights_shape (set : LightsCfg) (n : Node) : ∃ b k1 w1 k0 w0,
    darken n.lamps n = n.setBank b ∧
    claimedLights set n = ((((n.setBank b).setLamps (n.lamps.map fun x => takeAim set n x.1 x.2)).putClaim
      (lightSlot true) k1 w1).putClaim (lightSlot false) k0 w0) ∧
    lampClaimed n.isActive true (lightWant true (aimRows set n)) (n.claim (lightSlot true)) k1 ∧
    lampClaimed n.isActive false (lightWant false (aimRows set n)) (n.claim (lightSlot false)) k0 := by
  obtain ⟨b, dark⟩ := darken_sets n.lamps n
  unfold claimedLights
  rw [dark]
  obtain ⟨start, is⟩ : ∃ m, m = (n.setBank b).setLamps (n.lamps.map fun x => takeAim set n x.1 x.2) := ⟨_, rfl⟩
  rw [← is]
  obtain ⟨k1, w1, first⟩ := lightClaim_puts true (lightWant true (aimRows set n)) start
  obtain ⟨k0, w0, second⟩ := lightClaim_puts false (lightWant false (aimRows set n)) (start.putClaim (lightSlot true) k1 w1)
  have claims1 := lightClaim_claims true (lightWant true (aimRows set n)) start
  have claims0 := lightClaim_claims false (lightWant false (aimRows set n)) (start.putClaim (lightSlot true) k1 w1)
  rw [first, claim_putClaim_self, is] at claims1
  rw [second, claim_putClaim_self, claim_putClaim, if_neg (by decide), is] at claims0
  exact ⟨b, k1, w1, k0, w0, rfl, by rw [first, second, is], claims1, claims0⟩

theorem lightsUpdate_shares (cfg : n.lightsCfg = some set) :
    lightsUpdate n = lightShare false (lightShare true (claimedLights set n)) := by
  obtain ⟨b, dark⟩ := darken_sets n.lamps n
  unfold lightsUpdate claimedLights
  rw [cfg]
  dsimp only
  rw [dark]
  have aims : (n.setBank b).lamps.map (fun x => takeAim set (n.setBank b) x.1 x.2) =
      n.lamps.map fun x => takeAim set n x.1 x.2 := rfl
  rw [aims, aimed_lamps]
  obtain ⟨k1, w1, first⟩ := lightClaim_puts true (lightWant true (aimRows set n))
    ((n.setBank b).setLamps (n.lamps.map fun x => takeAim set n x.1 x.2))
  rw [first]
  have rows : (((n.setBank b).setLamps (n.lamps.map fun x => takeAim set n x.1 x.2)).putClaim (lightSlot true) k1 w1).lamps =
      aimRows set n := aimed_lamps
  rw [rows]

theorem lightShare_lamps (main : Bool) (m : Node) : (lightShare main m).lamps =
    shareRows main m.now ((m.claim (lightSlot main)).held * 10000) (classSum main steady m.lamps) m.lamps := by
  rw [lightShare, setLamps_lamps (shareOut_length ..), shareRows_eq_zip, lightCharge_eq]

theorem lightShare_claim (main : Bool) (m : Node) (i : Fin 8) : (lightShare main m).claim i = m.claim i := rfl
theorem lightShare_bank (main : Bool) (m : Node) : (lightShare main m).bank = m.bank := rfl
theorem lightShare_now (main : Bool) (m : Node) : (lightShare main m).now = m.now := rfl

/-- The lights derived afresh (R155 to R159). -/
theorem lightsUpdate_spec (cfg : n.lightsCfg = some set) : let m := lightsUpdate n
    m.lamps = sharedRows n.now ((m.claim (lightSlot true)).held * 10000) ((m.claim (lightSlot false)).held * 10000)
      (aimRows set n) ∧
    (∀ main, lampClaimed n.isActive main (lightWant main (aimRows set n)) (n.claim (lightSlot main))
      (m.claim (lightSlot main))) ∧
    (∀ x ∈ n.lamps, lightShed x.1 n = true → 0 < x.2.level → (m.chan x.1.output).commanded = 0) := by
  intro m
  obtain ⟨b, k1, w1, k0, w0, dark, shape, claims1, claims0⟩ := claimedLights_shape set n
  have is : m = lightShare false (lightShare true (claimedLights set n)) := lightsUpdate_shares cfg
  obtain ⟨k, made⟩ : ∃ k, claimedLights set n = k := ⟨_, rfl⟩
  rw [made] at is shape
  have here1 : k.claim (lightSlot true) = k1 := by
    rw [shape, claim_putClaim, if_neg (by decide), claim_putClaim_self]
  have here0 : k.claim (lightSlot false) = k0 := by
    rw [shape, claim_putClaim_self]
  have claim1 : m.claim (lightSlot true) = k1 := by
    rw [is, lightShare_claim, lightShare_claim, here1]
  have claim0 : m.claim (lightSlot false) = k0 := by
    rw [is, lightShare_claim, lightShare_claim, here0]
  refine ⟨?_, fun main => ?_, fun x mem shed lit => ?_⟩
  · have rows : k.lamps = aimRows set n := by
      rw [shape]
      exact aimed_lamps (n := n) (set := set) (b := b)
    have now : k.now = n.now := by
      rw [shape]
      rfl
    rw [claim1, claim0, is, lightShare_lamps, lightShare_claim, lightShare_now, here0, now, lightShare_lamps, here1,
      now, rows]
    rfl
  · cases main with
    | true => rw [claim1]; exact claims1
    | false => rw [claim0]; exact claims0
  · have bank : m.bank = (darken n.lamps n).bank := by
      rw [is, lightShare_bank, lightShare_bank, shape, dark]
      rfl
    have chan : m.chan x.1.output = (darken n.lamps n).chan x.1.output := by
      simp only [Node.chan, bank]
    rw [chan]
    exact darken_dark n.lamps n x mem shed lit

end

end Sys2Proof.Machine
end

section
/-!
# Proofs: the lights' clocks (O48)
-/
namespace Sys2Proof.Machine

/-! ## The clocks -/

section
variable {n : Node} {i : Fin 8} {c : LightCfg} {l : Light}

theorem lampAt_eq (at_ : n.lamps[i.val]? = some (c, l)) : lampAt i n = some (c, l) := at_

theorem fadeOne_eq (l : Light) : fadeOne l =
    { l with level := if l.level < l.goal then l.level + 1 else l.level - 1, fadeSteps := l.fadeSteps + 1 } := rfl

/-- A change of one channel. -/
theorem mapLamps_one {f : Light → Light} (at_ : n.lamps[i.val]? = some (c, l)) :
    let m := n.mapLamps fun k _ old => if k = i.val then f old else old
    m.lights.channels[i.val]? = some (f l) ∧
    ∀ (j : Nat) (c' : LightCfg) (l' : Light), j ≠ i.val → n.lamps[j]? = some (c', l') → m.lights.channels[j]? = some l' := by
  refine ⟨?_, fun j c' l' other there => ?_⟩
  · rw [mapLamps_channels, at_, Option.map_some, if_pos rfl]
  · rw [mapLamps_channels, there, Option.map_some, if_neg other]

/-- One step of a fade. -/
theorem takeStep_spec (at_ : n.lamps[i.val]? = some (c, l)) : let m := takeStep i n
    m = { n with bank := m.bank, lights := { n.lights with channels := m.lights.channels }
                 ev := { n.ev with lights := n.ev.lights || (fadeOne l).level == l.goal } } ∧
    m.lights.channels[i.val]? = some (fadeOne l) ∧
    (m.chan c.output).commanded = (fadeOne l).level ∧ (∀ ch, ch ≠ c.output → m.chan ch = n.chan ch) ∧
    ∀ (j : Nat) (c' : LightCfg) (l' : Light), j ≠ i.val → n.lamps[j]? = some (c', l') → m.lights.channels[j]? = some l' := by
  have lamp : lampAt i n = some (c, l) := at_
  obtain ⟨k, made⟩ : ∃ k, (ask c.output (fadeOne l).level n).mapLamps
      (fun j _ old => if j = i.val then fadeOne l else old) = k := ⟨_, rfl⟩
  have one := mapLamps_one (n := ask c.output (fadeOne l).level n) (f := fun _ => fadeOne l) at_
  rw [made] at one
  obtain ⟨here, others⟩ := one
  have frame : k = { n with bank := k.bank, lights := { n.lights with channels := k.lights.channels } } := by
    rw [← made]
    rfl
  have on : (k.chan c.output).commanded = (fadeOne l).level := by
    rw [← made]
    exact commanded_ask_self ..
  have off (ch : Fin 16) (other : ch ≠ c.output) : k.chan ch = n.chan ch := by
    rw [← made]
    exact (chan_ask ..).trans (if_neg (Ne.symm other))
  have step : takeStep i n = k.setEv { k.ev with lights := k.ev.lights || (fadeOne l).level == l.goal } := by
    unfold takeStep
    rw [lamp]
    dsimp only
    rw [made]
    have goal : (fadeOne l).goal = l.goal := rfl
    rw [goal]
    by_cases e : (fadeOne l).level = l.goal
    · rw [if_pos e, e, beq_self_eq_true, Bool.or_true]
    · rw [if_neg e, beq_eq_false_iff_ne.mpr e, Bool.or_false]
      rfl
  dsimp only
  rw [step]
  have ev : k.ev = n.ev := by
    rw [frame]
  refine ⟨?_, here, on, off, others⟩
  rw [← ev]
  exact congrArg (fun m : Node => m.setEv { k.ev with lights := k.ev.lights || (fadeOne l).level == l.goal }) frame

end

/-! ## The lights as every event leaves them -/

/-- The node that an event without a reset leaves. -/
theorem ended_node {s : State} {dt : Nat} {rx : Receiver} {m : Node} (h : m.ev.restart = false)
    (h' : m.ev.reset = false) (hr : m.cmd.restart = none) :
    (s.ended dt rx m).node = (finish (s.found dt) m).setEv {} := congrArg State.node (ended_eq h h' hr)

theorem lightShed_iff (c : LightCfg) (n : Node) :
    lightShed c n = true ↔ if c.main then 2 ≤ n.view.shed else 1 ≤ n.view.shed := by
  unfold lightShed lightClass forbids
  cases c.main
  · simp [Nat.one_le_iff_ne_zero, Nat.pos_iff_ne_zero]
  · simp [Nat.succ_le_iff]

theorem courtesyLevelOf_eq (set : LightsCfg) (n : Node) (c : LightCfg) (l : Light) : courtesyLevelOf set n c l =
    if c.courtesy = true ∧ n.lights.courtesy ≠ .off then max l.target set.courtesyLevel else l.target := by
  unfold courtesyLevelOf courtesyActive
  simp only [Bool.and_eq_true, bne_iff_ne]

/-- Where a channel aims (R155). -/
theorem takeAim_spec (set : LightsCfg) (n : Node) (c : LightCfg) (l : Light) : let a := takeAim set n c l
    let lit := courtesyLevelOf set n c l
    let capped : Prop := c.main = true ∧ n.view.band = some 1 ∧ set.cap < lit
    a.target = l.target ∧ a.last = l.last ∧ a.press = l.press ∧ a.heldOff = l.heldOff ∧ a.goal = l.goal ∧
    a.fadeStart = l.fadeStart ∧ a.fadeSteps = l.fadeSteps ∧
    (a.capped = true ↔ capped) ∧ (a.shed = true ↔ lightShed c n = true) ∧
    (lightShed c n = true ∨ l.heldOff = true → a.aim = 0) ∧
    (¬ lightShed c n = true → l.heldOff = false → (capped → a.aim = set.cap) ∧ (¬ capped → a.aim = lit)) ∧
    (lightShed c n = true → a.level = 0) ∧ (¬ lightShed c n = true → a.level = l.level) := by
  intro a lit capped
  have cap : (c.main && n.view.band == some 1 && decide (set.cap < lit)) = true ↔ capped := by
    simp [capped, and_assoc]
  refine ⟨rfl, rfl, rfl, rfl, rfl, rfl, rfl, cap, Iff.rfl, fun dark => ?_, fun bright free => ⟨fun k => ?_, fun k => ?_⟩,
    fun shed => if_pos shed, fun bright => if_neg bright⟩
  · refine if_pos ?_
    simpa using dark
  · refine (if_neg ?_).trans (if_pos (cap.mpr k))
    simpa [free] using bright
  · refine (if_neg ?_).trans (if_neg fun h => k (cap.mp h))
    simpa [free] using bright

section
variable {s : State} {dt : Nat} {rx : Receiver} {m : Node} {set : LightsCfg}

/-- What the end of an event takes from the lights afresh. -/
theorem ended_lights (h : m.ev.restart = false) (h' : m.ev.reset = false) (hr : m.cmd.restart = none) :
    let t := (s.ended dt rx m).node
    let u := lightsUpdate (lightsStart (s.found dt) m)
    t.bank = u.bank ∧ t.lights = u.lights ∧ t.standings = u.standings ∧ t.cfg = m.cfg ∧ t.view = m.view ∧
    u.lights.courtesy = (lightsStart (s.found dt) m).lights.courtesy := by
  dsimp only
  rw [ended_node h h' hr]
  have core := core_finish (n0 := s.found dt) h hr
  have body := body_finish (s.found dt) m
  have told : propagate (s.found dt) m = lightsUpdate (lightsStart (s.found dt) m) := propagate_eq ..
  rw [told] at body
  have standings := standings_finish (s.found dt) m
  rw [told] at standings
  exact ⟨congrArg Prod.fst body, congrArg Prod.snd body, standings, congrArg (·.cfg) core, congrArg (·.view) core,
    courtesy_lightsUpdate _⟩

/-- The rows at an event's end. -/
theorem ended_lamps (h : m.ev.restart = false) (h' : m.ev.reset = false) (hr : m.cmd.restart = none)
    (cfg : m.lightsCfg = some set) :
    let t := (s.ended dt rx m).node
    let u := lightsStart (s.found dt) m
    t.lamps = sharedRows m.now ((t.claim (lightSlot true)).held * 10000) ((t.claim (lightSlot false)).held * 10000)
      (aimRows set u) ∧
    (∀ main, lampClaimed m.isActive main (lightWant main (aimRows set u)) (m.claim (lightSlot main))
      (t.claim (lightSlot main))) ∧
    (∀ x ∈ m.lamps, lightShed x.1 m = true → 0 < x.2.level → (t.chan x.1.output).commanded = 0) ∧
    u.lamps = m.lamps ∧ u.view = m.view ∧ t.view = m.view ∧ t.lights.courtesy = u.lights.courtesy := by
  obtain ⟨bank, lights, standings, config, view, courtesy⟩ := ended_lights (s := s) (dt := dt) (rx := rx) h h' hr
  have core := lightsStart_core (s.found dt) m
  have claims := lightsStart_claims (s.found dt) m
  have startLamps : (lightsStart (s.found dt) m).lamps = m.lamps :=
    lamps_congr (congrArg (·.cfg) core) (lightsStart_channels ..)
  have startCfg : (lightsStart (s.found dt) m).cfg = m.cfg := congrArg (·.cfg) core
  have startView : (lightsStart (s.found dt) m).view = m.view := congrArg (·.view) core
  have startNow : (lightsStart (s.found dt) m).now = m.now := congrArg (·.now) core
  have startState : (lightsStart (s.found dt) m).state = m.state := congrArg (·.state) core
  generalize (s.ended dt rx m).node = t at *
  generalize lightsStart (s.found dt) m = u at *
  have lit : u.lightsCfg = some set := by
    rw [← cfg, Node.lightsCfg, startCfg]
    rfl
  obtain ⟨rows, claimed, dark⟩ := lightsUpdate_spec lit
  have rest := rest_lightsUpdate u
  have updCfg : (lightsUpdate u).cfg = u.cfg := congrArg (·.cfg) rest
  have same (main : Bool) : (t.claim (lightSlot main)).standing = ((lightsUpdate u).claim (lightSlot main)).standing :=
    standing_of standings _
  have held (main : Bool) : (t.claim (lightSlot main)).held = ((lightsUpdate u).claim (lightSlot main)).held :=
    congrArg (·.2.2.1) (same main)
  have active : u.isActive = m.isActive := by simp only [Node.isActive, startState]
  refine ⟨?_, fun main => ?_, fun x mem shed on => ?_, startLamps, startView, view, by rw [lights, courtesy]⟩
  · rw [lamps_congr (n := lightsUpdate u) (m := t) (by rw [config, updCfg, startCfg]) (by rw [lights]), held, held,
      rows, startNow]
  · have was := claimed main
    rw [active, claims main] at was
    have idle := idle_of_standing (same main)
    have wanted : (t.claim (lightSlot main)).wanted = ((lightsUpdate u).claim (lightSlot main)).wanted :=
      congrArg (·.2.2.2.1) (same main)
    have cls : (t.claim (lightSlot main)).cls = ((lightsUpdate u).claim (lightSlot main)).cls :=
      congrArg (·.2.1) (same main)
    have degradable : (t.claim (lightSlot main)).degradable = ((lightsUpdate u).claim (lightSlot main)).degradable :=
      congrArg (·.2.2.2.2.1) (same main)
    have deadline : (t.claim (lightSlot main)).deadline = ((lightsUpdate u).claim (lightSlot main)).deadline :=
      congrArg (·.2.2.2.2.2) (same main)
    rw [lampClaimed] at was ⊢
    rw [idle, Ne, idle, wanted, cls, degradable, deadline]
    exact was
  · have off := dark x (by rw [startLamps]; exact mem) (by rw [lightShed, startView]; exact shed) on
    rw [Node.chan, bank]
    exact off

end

/-! ## O48 -/

theorem budgetOf_claim (t : Node) (main : Bool) :
    budgetOf ((t.claim (lightSlot true)).held * 10000) ((t.claim (lightSlot false)).held * 10000) main =
      (t.claim (lightSlot main)).held * 10000 := by
  cases main <;> rfl

theorem lightWant_shared {now main amenity : Nat} {rows : List LightRow} (m : Bool) :
    lightWant m (sharedRows now main amenity rows) = lightWant m rows := by
  rw [lightWant_eq, lightWant_eq, classSum_sharedRows fun _ _ _ => by rw [takeGoal_level, takeGoal_aim]]

/-- A channel of the rows at an event's end, and the channel it comes from. -/
theorem sharedRows_channel {now main amenity i : Nat} {set : LightsCfg} {u : Node} {c : LightCfg} {l : Light}
    (h : (sharedRows now main amenity (aimRows set u))[i]? = some (c, l)) :
    ∃ l0 limit goal, u.lamps[i]? = some (c, l0) ∧ l = takeGoal now limit goal (takeAim set u c l0) := by
  obtain ⟨l1, limit, goal, found, given⟩ := sharedRows_from h
  rw [aimRows, List.getElem?_map, Option.map_eq_some_iff] at found
  obtain ⟨⟨c0, l0⟩, at_, is⟩ := found
  obtain ⟨rfl, rfl⟩ := Prod.mk.inj is
  exact ⟨l0, limit, goal, at_, given⟩

/-- Settles O48: the clocks by `takeStep_spec` and `mapLamps_one`; the lights at an event's end by `ended_lamps`, their
aims by `takeAim_spec` and `takeGoal_keeps`, their shares by `sharedRows_shared` and `sharedRows_within`. -/
theorem lightClocks : Obligations.LightClocks := by
  unfold Obligations.LightClocks
  constructor
  · rintro s dt n rfl up
    refine ⟨fun i c l at_ goal due => ?_, fun i c l since at_ down late => ?_, fun t hold late => ?_⟩
    · have occ : stepDue i (s.found dt) = true := by
        unfold stepDue
        rw [lampAt_eq at_, Option.any_some, nextStep, if_neg goal]
        exact reached_iff.mpr due
      have reads (n : Node) : stepDue i (keepTemp n) = stepDue i n := by
        simp [stepDue, lampAt]
      have acts : exec (.fadeStep dt i) s = .next (s.ended dt s.rx (takeStep i (s.found dt))) := by
        change execFadeStep dt i s = _
        unfold execFadeStep
        exact nodeEvent_found reads up occ
      exact ⟨_, acts, takeStep_spec at_⟩
    · have occ : pressDue i (s.found dt) = true := by
        unfold pressDue
        rw [lampAt_eq at_, Option.any_some]
        dsimp only
        rw [down]
        exact decide_eq_true late
      have reads (n : Node) : pressDue i (keepTemp n) = pressDue i n := by
        simp [pressDue, lampAt]
      have acts : exec (.longPress dt i) s = .next (s.ended dt s.rx
          ((s.found dt).mapLamps fun k _ l => if k = i.val then beginRamp l else l)) := by
        change execLongPress dt i s = _
        unfold execLongPress
        exact nodeEvent_found reads up occ
      exact ⟨_, acts, mapLamps_frame .., mapLamps_one at_⟩
    · change execCourtesyHoldExpiry dt s = _
      unfold execCourtesyHoldExpiry
      refine nodeEvent_found (body := fun n => n.setLights { n.lights with courtesy := .off })
        (fun n => by simp [holdExpires]) up ?_
      unfold holdExpires
      rw [hold]
      exact decide_eq_true late
  · intro s dt rx m set restart reset waits cfg
    dsimp only
    obtain ⟨rows, claimed, dark, startLamps, startView, view, courtesy⟩ :=
      ended_lamps (s := s) (dt := dt) (rx := rx) restart reset waits cfg
    generalize (s.ended dt rx m).node = t at *
    generalize lightsStart (s.found dt) m = u at *
    refine ⟨fun i c l at_ => ?_, fun main => ?_⟩
    · rw [rows] at at_
      obtain ⟨l0, limit, goal, found, given⟩ := sharedRows_channel at_
      rw [startLamps] at found
      obtain ⟨target, last, press, heldOff, goal0, start0, steps0, capped, shed, off, bright, unlit, level⟩ :=
        takeAim_spec set u c l0
      obtain ⟨target', last', level', aim', press', heldOff', capped', shed', -, goal', degraded, same, fades⟩ :=
        takeGoal_keeps m.now limit goal (takeAim set u c l0)
      rw [← given] at target' last' level' aim' press' heldOff' capped' shed' goal' degraded same fades
      have shedIs := lightShed_iff c u
      rw [courtesyLevelOf_eq, startView, ← view, ← courtesy] at capped bright
      rw [startView, ← view] at shedIs
      have lit : l.target = l0.target := target'.trans target
      have held : l.heldOff = l0.heldOff := heldOff'.trans heldOff
      rw [← capped', ← lit] at capped
      rw [← lit, ← held, ← aim'] at bright
      rw [← shed', shedIs] at shed
      rw [← aim', ← held, shedIs] at off
      rw [shedIs] at bright unlit level
      rw [← level'] at unlit level
      refine ⟨capped, shed, off, bright, unlit, ?_, fun l1 at1 => ?_⟩
      · rw [degraded, goal', aim', held, ← heldOff]
        simp
      · obtain rfl : l1 = l0 := (Prod.mk.inj (Option.some.inj (at1.symm.trans found))).2
        refine ⟨lit, last'.trans last, press'.trans press, held, level, fun sheds on => ?_, fun e => ?_, fun e f => ?_⟩
        · refine dark (c, l1) (List.mem_of_getElem? found) ?_ on
          rw [lightShed, ← startView, ← lightShed, lightShed_iff, startView, ← view]
          exact sheds
        · obtain ⟨start, steps⟩ := same ((goal'.symm.trans e).trans goal0.symm)
          exact ⟨start.trans start0, steps.trans steps0⟩
        · refine fades (fun h => e ((goal'.trans h).trans goal0)) fun h => f ?_
          rw [level', h, goal']
    · have want : lightWant main t.lamps = lightWant main (aimRows set u) := by
        rw [rows, lightWant_shared]
      have shared := sharedRows_shared (now := m.now) (main := (t.claim (lightSlot true)).held * 10000)
        (amenity := (t.claim (lightSlot false)).held * 10000) (rows := aimRows set u) main
      have within_ := sharedRows_within (now := m.now) (main := (t.claim (lightSlot true)).held * 10000)
        (amenity := (t.claim (lightSlot false)).held * 10000) (rows := aimRows set u) main
      rw [← rows, budgetOf_claim] at shared within_
      refine ⟨?_, within_, fun current i c l at_ mine => ?_⟩
      · have is := claimed main
        rw [← want] at is
        exact is
      · obtain ⟨low, high⟩ := shared i c l at_ mine
        refine ⟨low, fun up => ?_⟩
        obtain ⟨goal, limit⟩ := high up
        have spec := shareLimit_spec ((t.claim (lightSlot main)).held * 10000) (classSum main steady t.lamps +
          classSum main (rising (·.limit)) (t.lamps.take i) + classSum main (rising (·.level)) (t.lamps.drop (i + 1)))
          c l (current (c, l) (List.mem_of_getElem? at_)) up
        rw [← limit] at spec
        rw [risenSum_eq main (·.limit), risenSum_eq main (·.level)]
        exact ⟨goal, spec⟩

end Sys2Proof.Machine
end

section
/-!
# Proofs: the light commands (O47)
-/
namespace Sys2Proof.Machine

/-- What a command makes of a channel (R160, R162). -/
theorem commandTarget_eq (t : Nat) (l : Light) : commandTarget t l = { l with
    target := t, last := if 0 < t then some t else l.last
    press := if l.press = .ramping then .spent else l.press
    rampUp := if l.press = .ramping then !l.rampUp else l.rampUp } := by
  unfold commandTarget setTarget
  dsimp only
  by_cases ramps : l.press = .ramping
  · simp only [if_pos ramps]
  · simp only [if_neg ramps]

theorem maskNames_iff {mask count : Nat} : maskNames mask count = true ↔ ∃ i, i < count ∧ mask.testBit i = true := by
  simp [maskNames]

theorem lightLevelAct_unnamed {source : Nat} {b : CommandBody} {k : Node}
    (h : maskNames (argOf b 0) k.lamps.length = false) : lightLevelAct source b k = give .refusedRange k :=
  if_neg (by simp [h])

theorem lightLevelAct_named {source : Nat} {b : CommandBody} {k : Node}
    (h : maskNames (argOf b 0) k.lamps.length = true) : lightLevelAct source b k =
      ⟨if 100 < argOf b 1 then .doneClamped else .done, if 100 < argOf b 1 then 100 else 0,
        k.mapLamps fun i _ l => if (argOf b 0).testBit i then commandTarget (min (argOf b 1) 100) l else l⟩ := by
  unfold lightLevelAct
  dsimp only
  rw [if_pos h]
  split <;> rfl

/-- An answered change of the channels. -/
theorem carry_mapLamps {k : Node} {x : RxFrame} {b : CommandBody} (r : Result) (d : Int)
    (f : Nat → LightCfg → Light → Light) : let m := k.carry x b ⟨r, d, k.mapLamps f⟩
    m.ev.reply = k.owing x b r d ∧ m = { k with lights := { k.lights with channels := m.lights.channels }, ev := m.ev } ∧
    ∀ (i : Nat) (c : LightCfg) (l : Light), k.lamps[i]? = some (c, l) → m.lights.channels[i]? = some (f i c l) := by
  dsimp only
  rw [carry_frame (by rfl)]
  refine ⟨rfl, rfl, fun i c l at_ => ?_⟩
  exact (mapLamps_channels ..).trans (by rw [at_]; rfl)

theorem carry_refused {k : Node} {x : RxFrame} {b : CommandBody} (r : Result) :
    k.carry x b (give r k) = { k with ev := { k.ev with reply := k.owing x b r 0 } } := carry_frame rfl

/-- Settles O47: each command maps its channels by `commandTarget`. -/
theorem lightCommands : Obligations.LightCommands := by
  unfold Obligations.LightCommands
  rintro s dt x rest b k rfl held
  dsimp only
  refine ⟨fun mask level h args => ?_, fun scene h args => ?_, fun h args => ?_⟩
  · have acts : exec (.lightLevel dt) s = .next (s.ended dt (s.rx.without rest)
        ((s.admitted dt x).carry x b (lightLevelAct x.source b (s.admitted dt x)))) :=
      (rfl : exec (.lightLevel dt) s = commandEvent dt 0x01 (fun _ => true)
        (runCommand (some .lights) (hasLength 2) lightLevelAct) s).trans
        (commandEvent_carries h rfl (hasLength_eq_true (by rw [args]; rfl)) held)
    refine ⟨_, acts, ?_⟩
    clear acts
    generalize s.admitted dt x = k at held ⊢
    have first : argOf b 0 = mask.toNat := by rw [argOf, args]; rfl
    have second : argOf b 1 = level.toNat := by rw [argOf, args]; rfl
    constructor
    · intro none_
      have unnamed : maskNames (argOf b 0) k.lamps.length = false := by
        rw [first, Bool.eq_false_iff, Ne, maskNames_iff]
        rintro ⟨i, low, set⟩
        exact absurd (none_ i low) (by simp [set])
      rw [lightLevelAct_unnamed unnamed, carry_refused]
    · intro some_
      rw [lightLevelAct_named (by rw [first]; exact maskNames_iff.mpr some_), first, second]
      obtain ⟨reply, frame, rows⟩ := carry_mapLamps (k := k) (x := x) (b := b)
        (if 100 < level.toNat then .doneClamped else .done) (if 100 < level.toNat then 100 else 0)
        fun i _ l => if mask.toNat.testBit i then commandTarget (min level.toNat 100) l else l
      refine ⟨reply.trans ?_, frame, fun i c l at_ => ?_⟩
      · split <;> rfl
      · rw [rows i c l at_, commandTarget_eq]
  · have acts : exec (.scene dt) s = .next (s.ended dt (s.rx.without rest)
        ((s.admitted dt x).carry x b (sceneAct x.source b (s.admitted dt x)))) :=
      (rfl : exec (.scene dt) s = commandEvent dt 0x02 (fun _ => true)
        (runCommand (some .lights) (hasLength 1) sceneAct) s).trans
        (commandEvent_carries h rfl (hasLength_eq_true (by rw [args]; rfl)) held)
    refine ⟨_, acts, ?_⟩
    clear acts
    generalize s.admitted dt x = k at held ⊢
    have first : argOf b 0 = scene.toNat := argOf_single args
    constructor
    · intro bad
      have act : sceneAct x.source b k = give .refusedRange k := by
        unfold sceneAct
        dsimp only
        rw [first]
        exact if_neg (by omega)
      rw [act, carry_refused]
    · intro low high
      have act : sceneAct x.source b k =
          give .done (k.mapLamps fun _ c l => commandTarget (c.scenes.getD (scene.toNat - 1) 0) l) := by
        unfold sceneAct
        dsimp only
        rw [first]
        exact if_pos ⟨low, high⟩
      rw [act]
      obtain ⟨reply, frame, rows⟩ := carry_mapLamps (k := k) (x := x) (b := b) .done 0
        fun _ c l => commandTarget (c.scenes.getD (scene.toNat - 1) 0) l
      refine ⟨reply, frame, fun i c l at_ t is => (rows i c l at_).trans ?_⟩
      rw [commandTarget_eq, List.getD_eq_getElem?_getD, is, Option.getD_some]
  · have acts : exec (.lightsAllOff dt) s = .next (s.ended dt (s.rx.without rest)
        ((s.admitted dt x).carry x b (allOffAct x.source b (s.admitted dt x)))) :=
      (rfl : exec (.lightsAllOff dt) s = commandEvent dt 0x03 (fun _ => true)
        (runCommand (some .lights) (hasLength 0) allOffAct) s).trans
        (commandEvent_carries h rfl (hasLength_eq_true (by rw [args]; rfl)) held)
    refine ⟨_, acts, ?_⟩
    obtain ⟨reply, frame, rows⟩ := carry_mapLamps (k := s.admitted dt x) (x := x) (b := b) .done 0
      fun _ _ l => commandTarget 0 l
    exact ⟨reply, frame, fun i c l at_ => (rows i c l at_).trans (by rw [commandTarget_eq])⟩

end Sys2Proof.Machine
end

section
/-!
# Proofs: temperature readings (O50)

What a reading leaves (`WarmActs`), the evaluation of STANDBY and of RUN case by case, and what an exhaust reading does
in each state of the heater.
-/
namespace Sys2Proof.Machine

/-! ## What a delivered reading leaves -/

/-- The parts of the node that the delivery of a temperature writes. -/
def Node.putWarm (n : Node) (v : Vector Channel 16) (k : Vector Claim 8) (w : Bool) (f : Frost) (h : Heater)
    (flags : BitVec 16) : Node :=
  { n with bank := { n.bank with chans := v }, claims := k, ev := { n.ev with wait := w }, frost := f, heater := h
           cmd := { n.cmd with flags := flags } }

/-- What the delivery of a temperature leaves: everything but those parts, with no latched flag taken back. -/
structure WarmActs (n m : Node) : Prop where
  frame : ∃ v k w f h flags, m = n.putWarm v k w f h flags
  flags : ∀ g, hasFlag g n = true → hasFlag g m = true

namespace WarmActs
variable {n m o : Node} {c : HeaterCfg}

theorem refl (n : Node) : WarmActs n n := ⟨⟨_, _, _, _, _, _, rfl⟩, fun _ => id⟩

theorem trans (h : WarmActs n m) (h' : WarmActs m o) : WarmActs n o := by
  obtain ⟨⟨v, k, w, f, e, b, rfl⟩, kept⟩ := h
  obtain ⟨⟨v', k', w', f', e', b', rfl⟩, kept'⟩ := h'
  exact ⟨⟨v', k', w', f', e', b', rfl⟩, fun g has => kept' g (kept g has)⟩

theorem heat (h : HeatActs n m) : WarmActs n m := by
  obtain ⟨⟨v, k, w, e, rfl⟩, -⟩ := h
  exact ⟨⟨v, k, w, n.frost, e, n.cmd.flags, rfl⟩, fun _ => id⟩

theorem setHeater (e : Heater) (h : WarmActs n m) : WarmActs n (m.setHeater e) :=
  h.trans ⟨⟨m.bank.chans, m.claims, m.ev.wait, m.frost, e, m.cmd.flags, rfl⟩, fun _ => id⟩

theorem setFrost (f : Frost) (h : WarmActs n m) : WarmActs n (m.setFrost f) :=
  h.trans ⟨⟨m.bank.chans, m.claims, m.ev.wait, f, m.heater, m.cmd.flags, rfl⟩, fun _ => id⟩

theorem setFlag (g : Flag) (h : WarmActs n m) : WarmActs n (setFlag g m) :=
  h.trans ⟨⟨m.bank.chans, m.claims, m.ev.wait, m.frost, m.heater, m.cmd.flags ||| flagMask g, rfl⟩,
    fun _ has => hasFlag_setFlag (.inr has)⟩

theorem ask (i : Fin 16) (level : Nat) (h : WarmActs n m) : WarmActs n (ask i level m) :=
  h.trans (heat (HeatActs.refl m).ask)

theorem beginMove {st coil} : WarmActs n (beginMove st coil n) :=
  ((heat (HeatActs.refl n).fileClaim).ask _ _).setFrost _

theorem frostCheck : WarmActs n (frostCheck n) := by
  unfold Machine.frostCheck
  split
  · exact refl n
  · unfold frostEvaluate
    dsimp only
    repeat' split
    · exact refl n
    · exact beginMove
    · exact (refl n).setFrost _
    · exact refl n
    · exact (refl n).setFrost _
    · exact beginMove
    · exact refl n
    · exact refl n

theorem enterCooldown : WarmActs n (enterCooldown c n) := heat (HeatActs.refl n).enterCooldown

theorem endCooldown : WarmActs n (endCooldown c n) := by
  obtain ⟨v, k, w, e, -⟩ := cooldownOver_shape c n
  have cold : WarmActs n (cooldownOver c n) := heat ((HeatActs.refl n).ask.releaseClaim)
  cases marked : n.heater.lockout with
  | true =>
    rw [endCooldown_locks marked]
    exact (cold.setHeater _).setFlag .heaterLockout
  | false =>
    by_cases mode : n.heater.mode = .off
    · rw [endCooldown_off marked mode]
      exact (cold.setHeater _).setHeater _
    · obtain ⟨r, stands⟩ := endCooldown_stands (c := c) marked mode
      rw [stands]
      exact (cold.setHeater _).trans (heat (HeatActs.refl _).standbyCheck)

theorem enterRun : WarmActs n (enterRun c n) :=
  (((refl n).ask c.glow 0).setHeater _).trans (heat (HeatActs.refl _).takeLevel.reduceClaim)

theorem exhaustReading : WarmActs n (exhaustReading c n) := by
  have seen : WarmActs n (n.setHeater { n.heater with exhaustSeen := true }) := (refl n).setHeater _
  have states (m : Node) : WarmActs m (exhaustByState c m) := by
    unfold exhaustByState
    repeat' split
    · exact heat (HeatActs.refl m).standbyCheck
    · exact enterRun
    · exact refl m
    · exact (refl m).setHeater _
    · exact endCooldown
    · exact refl m
    · exact refl m
  have hot (m : Node) : WarmActs m (overheat c m) := by
    unfold overheat lockoutStop
    split
    · exact (refl m).setHeater _
    · exact ((refl m).setHeater _).trans enterCooldown
  unfold Machine.exhaustReading
  dsimp only
  repeat' split
  · exact seen.trans (hot _)
  · exact seen.trans enterCooldown
  · exact seen.trans (states _)

theorem cabinDelivered : WarmActs n (cabinDelivered c n) := by
  unfold Machine.cabinDelivered
  split
  · exact heat (HeatActs.refl n).standbyCheck
  · exact heat (HeatActs.refl n).satisfiedClock.thermostat
  · exact refl n

theorem deliverTemp (i : Fin 4) : WarmActs n (deliverTemp i n) := by
  have heater (m : Node) : WarmActs m (onHeater (fun c n =>
      let n := if c.exhaust = i then Machine.exhaustReading c n else n
      if c.cabin = some i then Machine.cabinDelivered c n else n) m) := by
    unfold onHeater
    split
    · dsimp only
      repeat' split
      · exact exhaustReading.trans cabinDelivered
      · exact cabinDelivered
      · exact exhaustReading
      · exact refl m
    · exact refl m
  unfold Machine.deliverTemp
  dsimp only
  split
  · exact frostCheck.trans (heater _)
  · exact heater _

end WarmActs

/-! ## The evaluation of STANDBY (R113, R128) -/

section
variable {c : HeaterCfg} {k : Node}

theorem heatDemand_iff : heatDemand c k = true ↔ k.heater.restart = true ∨ cabinReading c k = none ∨
    ∃ t, cabinReading c k = some t ∧ t ≤ effectiveSetpoint k.heater - 10 := by
  unfold heatDemand
  cases h : cabinReading c k with
  | none => simp
  | some t => simp

theorem exhaustValid_iff : exhaustValid c k = true ↔ k.validTemp c.exhaust ≠ none := by
  simp [exhaustValid, Option.isSome_iff_ne_none]

/-- What a start is evaluated for (R113). -/
def startAsked (c : HeaterCfg) (k : Node) : Bool :=
  heatDemand c k && (k.claim slotHeater).state == .idle && k.isActive

theorem startCheck_idle (h : startAsked c k = false) : startCheck c k = k := by
  unfold startCheck
  refine if_pos ?_
  unfold startAsked at h
  cases d : heatDemand c k <;> cases i : (k.claim slotHeater).state == .idle <;> simp_all

theorem startCheck_asked (h : startAsked c k = true) : startCheck c k =
    if 4 ≤ k.view.shed then setReason .shed k
    else if !exhaustValid c k then (if k.heater.exhaustSeen then setReason .sensor k else k)
    else if outputHeldOff c k then setReason .channel k
    else fileClaim slotHeater 3 (units c.start) (some heaterWait) k := by
  unfold startCheck
  refine if_neg ?_
  unfold startAsked at h
  simp only [Bool.and_eq_true] at h
  obtain ⟨⟨demand, idle⟩, active⟩ := h
  simp [demand, active, eq_of_beq idle]

/-- A filing of the heater at an idle slot. -/
theorem fileHeater (mA : Nat) (idle : (k.claim slotHeater).state = .idle) :
    fileClaim slotHeater 3 (units mA) (some heaterWait) k = { k with
      ev := { k.ev with wait := true }
      claims := k.claims.set slotHeater ⟨.waiting, 3, 0, units mA, 0, none, none, some (k.now + 60000), k.now, false⟩ } := by
  unfold fileClaim
  rw [if_neg (not_not_intro idle), if_neg (by decide)]
  rfl

end

/-! ## The evaluation of RUN (R118 to R121) -/

section
variable {c : HeaterCfg} {k : Node}

/-- The satisfied clock after a cabin reading (R121). -/
def satisfiedAt (c : HeaterCfg) (k : Node) : Option Nat :=
  match cabinReading c k with
  | none => none
  | some t => if effectiveSetpoint k.heater + 10 ≤ t then some (k.heater.satisfied.getD k.now) else none

theorem satisfiedClock_eq : satisfiedClock c k = k.setHeater { k.heater with satisfied := satisfiedAt c k } := by
  unfold satisfiedClock satisfiedAt
  cases cabinReading c k with
  | none => rfl
  | some t =>
    dsimp only
    split <;> rfl

theorem wantedLevel_setHeater (h : Heater) (same : effectiveSetpoint h = effectiveSetpoint k.heater) :
    wantedLevel c (k.setHeater h) = wantedLevel c k := by
  unfold wantedLevel
  rw [← same]
  rfl

theorem holdRunning_iff : holdRunning k = true ↔ ∃ e, k.heater.holdEnd = some e ∧ k.now < e := by
  unfold holdRunning
  cases k.heater.holdEnd with
  | none => simp
  | some e => simp

theorem stepUp_satisfied (l : Nat) : (stepUp c l k).heater.satisfied = k.heater.satisfied := by
  unfold stepUp
  split
  · rfl
  · dsimp only
    rw [Node.setHeater_heater, raiseClaim_heater]

/-- The thermostat leaves the satisfied clock. -/
theorem thermostat_satisfied : (thermostat c k).heater.satisfied = k.heater.satisfied := by
  unfold thermostat
  dsimp only
  repeat' split
  · rfl
  · rw [stepDown_heater, Node.setHeater_heater, reduceClaim_heater]
    rfl
  · rw [Node.setHeater_heater, reduceClaim_heater]
  · rfl
  · rw [stepDown_heater]
    rfl
  · exact stepUp_satisfied _

end

/-! ## Exhaust readings -/

section
variable {c : HeaterCfg} {k : Node}

/-- The node with the exhaust element seen. -/
def seenExhaust (k : Node) : Node := k.setHeater { k.heater with exhaustSeen := true }

theorem seenExhaust_of_seen (seen : k.heater.exhaustSeen = true) : seenExhaust k = k := by
  unfold seenExhaust
  rw [← seen]
  rfl

theorem exhaustReading_eq (t : Option Int) (v : k.validTemp c.exhaust = t) : exhaustReading c k =
    if t.any (3500 ≤ ·) then overheat c (seenExhaust k)
    else if !k.heater.exhaustSeen && t.any (600 ≤ ·) then enterCooldown c (seenExhaust k)
    else exhaustByState c (seenExhaust k) := by
  rw [← v]
  rfl

/-- A reading that neither overheats nor finds a hot heater at the first one. -/
theorem exhaustReading_calm {t : Option Int} (v : k.validTemp c.exhaust = t)
    (cool : t = none ∨ (k.heater.exhaustSeen = true ∧ ∃ u, t = some u ∧ u < 3500)) :
    exhaustReading c k = exhaustByState c (seenExhaust k) := by
  rw [exhaustReading_eq t v]
  rcases cool with rfl | ⟨seen, u, rfl, low⟩
  · simp
  · simp [seen, not_le.mpr low]

theorem exhaustReading_hot {u : Int} (v : k.validTemp c.exhaust = some u) (hot : 3500 ≤ u) :
    exhaustReading c k = overheat c (seenExhaust k) := by
  rw [exhaustReading_eq (some u) v]
  simp [hot]

theorem exhaustReading_warm {u : Int} (v : k.validTemp c.exhaust = some u) (low : u < 3500) (warm : 600 ≤ u)
    (first : k.heater.exhaustSeen = false) : exhaustReading c k = enterCooldown c (seenExhaust k) := by
  rw [exhaustReading_eq (some u) v]
  simp [not_le.mpr low, warm, first]

/-- The entry of RUN (R115). -/
theorem enterRun_spec (c : HeaterCfg) (k : Node) : let m := enterRun c k
    m.heater.state = .run ∧ m.heater.level = 1 ∧ m.heater.attempts = 0 ∧ m.heater.rate = 10 ∧
    m.heater.rateStart = k.now ∧ m.heater.holdEnd = some (k.now + 60000) ∧
    m.heater.exhaustSeen = k.heater.exhaustSeen ∧
    (m.chan c.fan).commanded = levelDuty c 1 ∧ (c.glow ≠ c.fan → (m.chan c.glow).commanded = 0) := by
  unfold enterRun
  dsimp only
  rw [reduceClaim_heater, reduceClaim_chan, reduceClaim_chan, takeLevel_eq]
  refine ⟨rfl, rfl, rfl, rfl, rfl, rfl, rfl, ?_, fun apart => ?_⟩
  · exact commanded_ask_self ..
  · have off : ((ask c.glow 0 k).chan c.glow).commanded = 0 := commanded_ask_self ..
    exact (congrArg Channel.commanded ((chan_ask ..).trans (if_neg (Ne.symm apart)))).trans off

theorem exhaustReading_seen : (exhaustReading c k).heater.exhaustSeen = true := by
  have states (m : Node) (seen : m.heater.exhaustSeen = true) : (exhaustByState c m).heater.exhaustSeen = true := by
    unfold exhaustByState
    repeat' split
    · obtain ⟨r, e⟩ := standbyCheck_heater c m
      rw [e]
      exact seen
    · obtain ⟨-, -, -, -, -, -, same, -⟩ := enterRun_spec c m
      rw [same, seen]
    · exact seen
    · exact seen
    · obtain ⟨v, q, w, e, -⟩ := cooldownOver_shape c m
      cases marked : m.heater.lockout with
      | true =>
        rw [endCooldown_locks marked, enterLockout_eq, e]
        exact seen
      | false =>
        by_cases mode : m.heater.mode = .off
        · rw [endCooldown_off marked mode, e]
          exact seen
        · obtain ⟨r, stands⟩ := endCooldown_stands (c := c) marked mode
          obtain ⟨r', e'⟩ := standbyCheck_heater c ((cooldownOver c m).setHeater
            { clocksOff m.heater with state := .standby, level := 0, restart := r })
          rw [stands, e']
          exact seen
    · exact seen
    · exact seen
  rw [exhaustReading_eq _ rfl]
  repeat' split
  · unfold overheat lockoutStop
    split
    · rfl
    · rw [enterCooldown_heater]
      rfl
  · rw [enterCooldown_heater]
    rfl
  · exact states _ rfl

end

end Sys2Proof.Machine
end

section
/-!
# Proofs: what a temperature reading does (O50)
-/
namespace Sys2Proof.Machine

/-! ## The delivery of a reading -/

/-- The node with a reading stored, before it is delivered. -/
def tempTaken (i : Fin 4) (v : Option Int) (due : Option Nat) (n : Node) : Node :=
  let n := n.setBank { n.bank with temps := n.bank.temps.set i { reading := some v, due := due } }
  if v.isNone then setFlag .sensorFault n else n

section
variable {n : Node} {i : Fin 4} {v : Option Int} {due : Option Nat}

theorem readTemp_eq (ohms : Nat) (temp : Int) : readTemp i ohms temp n =
    deliverTemp i (tempTaken i (tempValue (tempTypeOf i n) ohms temp) (later (n.bank.temps[i]).due tempPeriod) n) := rfl

theorem tempTaken_frame : ∃ flags, tempTaken i v due n = { n with
    bank := { n.bank with temps := n.bank.temps.set i { reading := some v, due := due } }
    cmd := { n.cmd with flags := flags } } := by
  unfold tempTaken
  cases v with
  | none => exact ⟨n.cmd.flags ||| flagMask .sensorFault, rfl⟩
  | some t => exact ⟨n.cmd.flags, rfl⟩

theorem tempTaken_flag (bad : v = none) : hasFlag .sensorFault (tempTaken i v due n) = true := by
  subst bad
  exact hasFlag_setFlag (.inl rfl)

theorem tempTaken_valid : (tempTaken i v due n).validTemp i = v := by
  obtain ⟨flags, e⟩ := tempTaken_frame (n := n) (i := i) (v := v) (due := due)
  rw [e]
  simp [Node.validTemp]

/-- Delivered to the heater alone. -/
theorem deliverTemp_heater {c : HeaterCfg} (cold : n.frostCfg.any (·.temp == some i) = false)
    (cfg : n.heaterCfg = some c) : deliverTemp i n =
      if c.cabin = some i then cabinDelivered c (if c.exhaust = i then exhaustReading c n else n)
      else if c.exhaust = i then exhaustReading c n else n := by
  unfold deliverTemp
  dsimp only
  rw [cold, if_neg (by simp), onHeater_some cfg]

theorem deliverTemp_nobody (cold : n.frostCfg = none) (none_ : n.heaterCfg = none) : deliverTemp i n = n := by
  unfold deliverTemp onHeater
  simp [cold, none_]

end

/-- The node of O50's statement that the heater's reactions start from. -/
theorem tempTaken_same {n m : Node} {i : Fin 4} {v : Option Int} {due : Option Nat}
    (flags : m.cmd.flags = (tempTaken i v due n).cmd.flags) : ({ n with
      bank := { n.bank with temps := n.bank.temps.set i { reading := some v, due := due } }
      cmd := { n.cmd with flags := m.cmd.flags } } : Node) = tempTaken i v due n := by
  rw [flags]
  obtain ⟨f, e⟩ := tempTaken_frame (n := n) (i := i) (v := v) (due := due)
  rw [e]

theorem flags_of_heat {n m : Node} (h : HeatActs n m) : m.cmd.flags = n.cmd.flags := by
  obtain ⟨⟨v, k, w, e, rfl⟩, -⟩ := h
  rfl

theorem flags_of_cabin (c : HeaterCfg) (n : Node) : (cabinDelivered c n).cmd.flags = n.cmd.flags := by
  unfold cabinDelivered
  split
  · exact flags_of_heat (HeatActs.refl n).standbyCheck
  · exact flags_of_heat (HeatActs.refl n).satisfiedClock.thermostat
  · rfl

/-! ## The parts of O50 -/

theorem standby_rows (k : Node) (c : HeaterCfg) (standby : k.heater.state = .standby) :
    let m := standbyCheck c k
    let cold : Prop := k.heater.restart = true ∨ cabinReading c k = none ∨
      ∃ t, cabinReading c k = some t ∧ t ≤ effectiveSetpoint k.heater - 10
    let asks : Prop := cold ∧ (k.claim slotHeater).state = .idle ∧ k.isActive = true
    let off (ch : Fin 16) : Prop := isHeldOff (k.chan ch) = true
    let shows (r : StopReason) : Node := { k with heater := { k.heater with reason := r } }
    let filed (mA : Nat) : Claim :=
      { state := .waiting, cls := 3, wanted := units mA, stamp := k.now, deadline := some (k.now + 60000) }
    let files (mA : Nat) : Node :=
      { k with ev := { k.ev with wait := true }, claims := k.claims.set slotHeater (filed mA) }
    (k.heater.mode = .heat ∨ k.heater.mode = .frost →
      (¬ asks → m = k) ∧
      (asks → 4 ≤ k.view.shed → m = shows .shed) ∧
      (asks → k.view.shed < 4 → k.validTemp c.exhaust = none →
        m = if k.heater.exhaustSeen then shows .sensor else k) ∧
      (asks → k.view.shed < 4 → k.validTemp c.exhaust ≠ none → off c.glow ∨ off c.fan ∨ off c.fuel →
        m = shows .channel) ∧
      (asks → k.view.shed < 4 → k.validTemp c.exhaust ≠ none → ¬ off c.glow → ¬ off c.fan → ¬ off c.fuel →
        m = files c.start)) ∧
    (k.heater.mode = .vent →
      let may : Prop := k.isActive = true ∧ k.view.shed < 4 ∧ ¬ off c.fan ∧ (k.claim slotHeater).state = .idle
      (may → m = files c.vent) ∧ (¬ may → m = k)) ∧
    (k.heater.mode = .off → m = k) := by
  intro m cold asks off shows filed files
  have asksIff : asks ↔ startAsked c k = true := by
    simp only [asks, cold, startAsked, Bool.and_eq_true, beq_iff_eq, heatDemand_iff, and_assoc]
  have heldIff : outputHeldOff c k = true ↔ off c.glow ∨ off c.fan ∨ off c.fuel := by
    simp only [outputHeldOff, off, Bool.or_eq_true, or_assoc]
  refine ⟨fun heats => ?_, fun vents => ?_, fun mode => ?_⟩
  · have is : m = startCheck c k := by
      rcases heats with mode | mode
      · simp only [m, standbyCheck, standby, mode, if_true]
      · simp only [m, standbyCheck, standby, mode, if_true]
    rw [is, asksIff]
    refine ⟨fun no => startCheck_idle (Bool.eq_false_iff.mpr no), fun yes shed => ?_, fun yes light invalid => ?_,
      fun yes light valid held => ?_, fun yes light valid glow fan fuel => ?_⟩
    · rw [startCheck_asked yes, if_pos shed]
      rfl
    · have no : exhaustValid c k = false := Bool.eq_false_iff.mpr fun h => exhaustValid_iff.mp h invalid
      rw [startCheck_asked yes, if_neg (not_le.mpr light), no]
      rfl
    · rw [startCheck_asked yes, if_neg (not_le.mpr light), exhaustValid_iff.mpr valid, heldIff.mpr held]
      rfl
    · have free : outputHeldOff c k = false := Bool.eq_false_iff.mpr fun h => by
        rcases heldIff.mp h with h | h | h
        · exact glow h
        · exact fan h
        · exact fuel h
      have idle := (asksIff.mpr yes).2.1
      rw [startCheck_asked yes, if_neg (not_le.mpr light), exhaustValid_iff.mpr valid, free, fileHeater c.start idle]
      rfl
  · have is : m = ventCheck c k := by simp only [m, standbyCheck, standby, vents, if_true]
    rw [is]
    constructor
    · rintro ⟨active, light, fan, idle⟩
      unfold ventCheck
      rw [fileHeater c.vent idle, if_pos (by simp [active, light, idle, Bool.eq_false_iff.mpr fan])]
    · intro no
      unfold ventCheck
      refine if_neg fun h => no ?_
      simp only [Bool.and_eq_true, decide_eq_true_eq, Bool.not_eq_true', beq_iff_eq] at h
      obtain ⟨⟨⟨active, light⟩, fan⟩, idle⟩ := h
      exact ⟨active, light, by simp [off, fan], idle⟩
  · simp only [m, standbyCheck, standby, mode, if_true]

theorem run_rows (k : Node) (c : HeaterCfg) :
    let m := thermostat c (satisfiedClock c k)
    let level := k.heater.level
    let want := wantedLevel c k
    let hold : Prop := ∃ e, k.heater.holdEnd = some e ∧ k.now < e
    let still : Node := { k with heater := { k.heater with satisfied := satisfiedAt c k } }
    m.heater.satisfied = satisfiedAt c k ∧
    (k.heater.raise = none → want = level ∨ hold → m = still) ∧
    (k.heater.raise = none → ¬ hold → want < level → m.heater.level = want ∧ m.heater.rate = levelRate want ∧
      m.heater.rateStart = k.now ∧ m.heater.holdEnd = some (k.now + 60000) ∧
      (m.chan c.fan).commanded = levelDuty c want) ∧
    (k.heater.raise = none → ¬ hold → level < want → (k.claim slotHeater).held < levelUnits c want →
      m.heater = { still.heater with raise := some want, holdEnd := some (k.now + 60000) } ∧ m.bank = k.bank) ∧
    ∀ r, k.heater.raise = some r →
      (level < want → m = still) ∧
      (want ≤ level → m.heater.raise = none ∧ (want = level ∨ hold → m.heater.level = level ∧ m.bank = k.bank) ∧
        (want < level → ¬ hold → m.heater.level = want)) := by
  intro m level want hold still
  have clock : satisfiedClock c k = still := satisfiedClock_eq
  have is : m = thermostat c still := congrArg (thermostat c) clock
  have wants : wantedLevel c still = want := wantedLevel_setHeater (c := c) (k := k) still.heater rfl
  have holds : holdRunning still = true ↔ hold := holdRunning_iff (k := still)
  have free (h : ¬ hold) : holdRunning still = false := Bool.eq_false_iff.mpr fun g => h (holds.mp g)
  rw [is]
  refine ⟨thermostat_satisfied, fun steady rests => ?_, fun steady no less => ?_, fun steady no more lacks => ?_,
    fun r raising => ⟨fun more => ?_, fun less => ?_⟩⟩
  · exact thermostat_settled (n := still) steady (rests.imp (fun h => wants.trans h) holds.mpr)
  · rw [thermostat_lowers (n := still) steady (free no) (by rw [wants]; exact less), wants, stepDown_heater, stepDown_fan]
    exact ⟨rfl, rfl, rfl, rfl, rfl⟩
  · rw [thermostat_lifts (n := still) steady (free no) (by rw [wants]; exact more), wants,
      stepUp_raises (n := still) lacks]
    exact ⟨rfl, raiseClaim_bank ..⟩
  · exact thermostat_waits (n := still) raising (by rw [wants]; exact more)
  · have drop := thermostat_drops (c := c) (n := still) raising (by rw [wants]; exact less)
    rw [wants] at drop
    have bank : (raiseDropped c still).bank = k.bank := reduceClaim_bank ..
    by_cases lowers : want < still.heater.level ∧ holdRunning still = false
    · rw [drop, if_pos lowers, stepDown_heater]
      refine ⟨rfl, fun rests => ?_, fun _ _ => rfl⟩
      rcases rests with same | held
      · exact absurd same lowers.1.ne
      · rw [holds.mpr held] at lowers
        exact absurd lowers.2 (by simp)
    · rw [drop, if_neg lowers]
      exact ⟨rfl, fun _ => ⟨rfl, bank⟩, fun low no => absurd ⟨low, free no⟩ lowers⟩

/-- What an exhaust reading does, from a node `k` that holds it (R115, R123, R124, R126, R131). -/
theorem exhaust_rows {c : HeaterCfg} {k : Node} {t : Int} (v : k.validTemp c.exhaust = some t) :
    let m := exhaustReading c k
    m.heater.exhaustSeen = true ∧
    (3500 ≤ t → k.heater.state ≠ .cooldown → m.heater.state = .cooldown ∧ m.heater.lockout = true ∧
      m.heater.reason = .overheat ∧ m.heater.phaseEnd = some (k.now + 180000)) ∧
    (3500 ≤ t → k.heater.state = .cooldown →
      m.heater = { k.heater with exhaustSeen := true, lockout := true, reason := .overheat }) ∧
    (t < 3500 → 600 ≤ t → k.heater.exhaustSeen = false → m.heater.state = .cooldown) ∧
    (t < 3500 → k.heater.exhaustSeen = true →
      (∀ z, k.heater.state = .ignite → k.heater.baseline = some z →
        (t < z + 300 → m.heater = k.heater) ∧
        (z + 300 ≤ t → m.heater.state = .run ∧ m.heater.level = 1 ∧ m.heater.attempts = 0 ∧ m.heater.rate = 10 ∧
          m.heater.rateStart = k.now ∧ m.heater.holdEnd = some (k.now + 60000) ∧
          (m.chan c.fan).commanded = levelDuty c 1 ∧ (c.glow ≠ c.fan → (m.chan c.glow).commanded = 0))) ∧
      (k.heater.state = .run → t < c.flameLost →
        m.heater = { k.heater with loss := some (k.heater.loss.getD k.now) }) ∧
      (k.heater.state = .run → c.flameLost ≤ t → m.heater = { k.heater with loss := none }) ∧
      (k.heater.state = .cooldown → t < 600 → m.heater.state ≠ .cooldown ∧ (m.chan c.fan).commanded = 0)) := by
  intro m
  refine ⟨exhaustReading_seen, fun hot other => ?_, fun hot cooling => ?_, fun low warm first => ?_, fun low seen => ?_⟩
  · have is : m = lockoutStop c .overheat (seenExhaust k) := (exhaustReading_hot v hot).trans (if_neg other)
    rw [is, lockoutStop, enterCooldown_heater]
    exact ⟨rfl, rfl, rfl, rfl⟩
  · have is : m = (seenExhaust k).setHeater { (seenExhaust k).heater with lockout := true, reason := .overheat } :=
      (exhaustReading_hot v hot).trans (if_pos cooling)
    rw [is]
    rfl
  · have is : m = enterCooldown c (seenExhaust k) := exhaustReading_warm v low warm first
    rw [is, enterCooldown_heater]
    rfl
  · have is : m = exhaustByState c k := by
      have calm := exhaustReading_calm v (.inr ⟨seen, t, rfl, low⟩)
      rwa [seenExhaust_of_seen seen] at calm
    rw [is]
    refine ⟨fun z ignites base => ?_, fun runs lost => ?_, fun runs lit => ?_, fun cooling cold => ?_⟩
    · have flame : flameSeen c k = true ↔ z + 300 ≤ t := by
        simp only [flameSeen, base, v, flameRise]
        exact decide_eq_true_iff
      have tests : exhaustByState c k = if flameSeen c k then enterRun c k else k := by
        simp only [exhaustByState, ignites]
      rw [tests]
      refine ⟨fun no => by rw [if_neg (flame.not.mpr (not_le.mpr no))], fun yes => ?_⟩
      rw [if_pos (flame.mpr yes)]
      obtain ⟨state, level, attempts, rate, start, hold, -, fan, glow⟩ := enterRun_spec c k
      exact ⟨state, level, attempts, rate, start, hold, fan, glow⟩
    · simp [exhaustByState, runs, lossClock, v, lost]
    · simp [exhaustByState, runs, lossClock, v, not_lt.mpr lit]
    · have ends : exhaustByState c k = endCooldown c k := by
        simp [exhaustByState, cooling, v, cold, cooldownEndTemp]
      rw [ends]
      obtain ⟨-, fan, -, -, locks, offs, stands⟩ := endCooldown_spec c k
      refine ⟨?_, fan⟩
      cases marked : k.heater.lockout with
      | true =>
        obtain ⟨state, -⟩ := locks marked
        rw [state]
        simp
      | false =>
        by_cases mode : k.heater.mode = .off
        · obtain ⟨state, -⟩ := offs marked mode
          rw [state]
          simp
        · obtain ⟨state, -⟩ := stands marked mode
          rw [state]
          simp

/-- Settles O50: the element's limits; STANDBY and RUN by `standby_rows` and `run_rows`; a reading by what its delivery
leaves (`WarmActs`) and by `exhaust_rows`. -/
theorem tempReadings : Obligations.TempReadings := by
  unfold Obligations.TempReadings
  refine ⟨fun ohms t => ⟨fun low high => ?_, fun out => ?_, fun low high => ?_, fun out => ?_⟩, standby_rows,
    fun k c _ => ?_, ?_⟩
  · exact if_neg (by omega)
  · exact if_pos (by omega)
  · exact if_neg (by omega)
  · exact if_pos (by omega)
  · have want : wantedLevel c k = match cabinReading c k with
        | none => 2
        | some t => if 30 ≤ effectiveSetpoint k.heater - t then 4 else if 20 ≤ effectiveSetpoint k.heater - t then 3
            else if 10 ≤ effectiveSetpoint k.heater - t then 2 else 1 := by
      unfold wantedLevel errorLevel
      cases cabinReading c k <;> rfl
    have rows := run_rows k c
    rw [want] at rows
    exact rows
  · rintro s dt n i ohms temp d rfl up used at_ due
    dsimp only
    have acts : exec (.tempReading dt i ohms temp) s = .next (s.ended dt s.rx (readTemp i ohms temp (s.found dt))) := by
      change execTempReading dt i ohms temp s = _
      unfold execTempReading
      refine nodeEvent_found (fun n => by simp [tempTypeOf]) up ?_
      rw [Bool.and_eq_true, bne_iff_ne, at_]
      exact ⟨used, reached_iff.mpr due⟩
    refine ⟨_, acts, ?_⟩
    clear acts
    generalize s.found dt = n at used at_ due ⊢
    rw [readTemp_eq, at_]
    generalize tempValue (tempTypeOf i n) ohms temp = v
    have later_ : later (some d) tempPeriod = some (d + 500) := rfl
    rw [later_]
    obtain ⟨k, taken⟩ : ∃ k, tempTaken i v (some (d + 500)) n = k := ⟨_, rfl⟩
    obtain ⟨flags, start⟩ := tempTaken_frame (n := n) (i := i) (v := v) (due := some (d + 500))
    have flagged : v = none → hasFlag .sensorFault k = true := fun bad => taken ▸ tempTaken_flag bad
    have valid : k.validTemp i = v := taken ▸ tempTaken_valid
    have same {m : Node} (h : m.cmd.flags = k.cmd.flags) : ({ n with
        bank := { n.bank with temps := n.bank.temps.set i { reading := some v, due := some (d + 500) } }
        cmd := { n.cmd with flags := m.cmd.flags } } : Node) = k := by
      subst taken
      exact tempTaken_same h
    rw [taken] at start ⊢
    have acts : WarmActs k (deliverTemp i k) := WarmActs.deliverTemp i
    obtain ⟨⟨ch, q, w, f, h, fl, frame⟩, kept⟩ := acts
    have temps : (deliverTemp i k).bank.temps = n.bank.temps.set i { reading := some v, due := some (d + 500) } := by
      rw [frame, start]
      rfl
    refine ⟨by rw [temps]; simp, fun j other => ?_, fun bad => kept _ (flagged bad), by rw [frame, start]; rfl,
      fun frost heater => ?_, fun c cold cfg cabin apart => ?_, fun c cold cfg exhaust apart => ⟨fun bad runs => ?_,
        fun calm stands => ?_⟩, fun c t cold cfg exhaust apart is => ?_⟩
    · have apart : i.val ≠ j.val := fun e => other (Fin.ext e.symm)
      rw [temps]
      simp [Vector.getElem_set, apart]
    · have none_ : deliverTemp i k = k := deliverTemp_nobody (by rw [start]; exact frost) (by rw [start]; exact heater)
      rw [none_, start]
    all_goals
      have coldK : k.frostCfg.any (·.temp == some i) = false := by
        rw [start]
        exact cold
      have cfgK : k.heaterCfg = some c := by
        rw [start]
        exact cfg
      have heaterK : k.heater = n.heater := by rw [start]
      have delivered := deliverTemp_heater (i := i) coldK cfgK
    · rw [if_pos cabin, if_neg apart] at delivered
      rw [delivered]
      have reading : cabinReading c k = v := by simp [cabinReading, cabin, valid]
      refine ⟨?_, fun stands => ?_, fun runs => ?_, fun noStand noRun => ?_⟩
      · rw [same (flags_of_cabin c k)]
        exact reading
      · have is : cabinDelivered c k = standbyCheck c k := by simp only [cabinDelivered, heaterK, stands]
        rw [same (flags_of_cabin c k), is]
      · have is : cabinDelivered c k = thermostat c (satisfiedClock c k) := by
          simp only [cabinDelivered, heaterK, runs]
        rw [same (flags_of_cabin c k), is]
      · rw [same (flags_of_cabin c k)]
        unfold cabinDelivered
        rw [heaterK]
        cases state : n.heater.state
        case standby => exact absurd state noStand
        case run => exact absurd state noRun
        all_goals rfl
    · rw [if_neg apart, if_pos exhaust] at delivered
      rw [← exhaust] at valid
      rw [delivered, exhaustReading_calm (t := none) (valid.trans bad) (.inl rfl)]
      have run : (seenExhaust k).heater.state = .run := by
        rw [seenExhaust, heaterK]
        exact runs
      have gone : (seenExhaust k).validTemp c.exhaust = none := valid.trans bad
      have is : exhaustByState c (seenExhaust k) = lossClock c (seenExhaust k) := by
        unfold exhaustByState
        rw [run]
      rw [is, lossClock, gone, ← heaterK]
      have now : k.now = n.now := by rw [start]
      rw [← now]
      rfl
    · rw [if_neg apart, if_pos exhaust] at delivered
      rw [← exhaust] at valid
      have cool : v = none ∨ (k.heater.exhaustSeen = true ∧ ∃ u, v = some u ∧ u < 3500) := by
        rw [heaterK]
        exact calm
      have stand : (seenExhaust k).heater.state = .standby := by
        rw [seenExhaust, heaterK]
        exact stands
      have is : exhaustByState c (seenExhaust k) = standbyCheck c (seenExhaust k) := by
        unfold exhaustByState
        rw [stand]
      rw [delivered, exhaustReading_calm valid cool, is]
      have flagsK : (standbyCheck c (seenExhaust k)).cmd.flags = k.cmd.flags :=
        (flags_of_heat (HeatActs.refl (seenExhaust k)).standbyCheck).trans rfl
      have seen : seenExhaust k = k.setHeater { n.heater with exhaustSeen := true } := by rw [seenExhaust, heaterK]
      calc standbyCheck c (seenExhaust k)
        _ = standbyCheck c (k.setHeater { n.heater with exhaustSeen := true }) := by rw [seen]
        _ = _ := (congrArg (fun o : Node => standbyCheck c (o.setHeater { n.heater with exhaustSeen := true }))
              (same flagsK)).symm
    · rw [if_neg apart, if_pos exhaust] at delivered
      rw [← exhaust] at valid
      have now : k.now = n.now := by rw [start]
      have rows := exhaust_rows (c := c) (valid.trans is)
      rw [heaterK, now] at rows
      rw [delivered]
      exact rows

end Sys2Proof.Machine
end

section
/-!
# Proofs: what the bank tells an owner (R174, R175)

A trip, a release and what the owner of an output does at the bank's notice leave everything but the owners' records
(`BankActs`), and leave what the protection of every output is made of.
-/
namespace Sys2Proof.Machine

/-- The parts of the node that the bank and the owners of its outputs write. -/
def Node.putOwners (n : Node) (b : Bank) (k : Vector Claim 8) (w : Bool) (p : Pump) (h : Heater) (l : Lights)
    (c : CommandUnit) : Node :=
  { n with bank := b, claims := k, ev := { n.ev with wait := w }, pump := p, heater := h, lights := l, cmd := c }

/-- What the protection of an output is made of. -/
def Channel.guard (c : Channel) : Nat × Protection × Option Nat := (c.trips, c.protection, c.retry)

/-- What an owner that is told by the bank leaves: everything but those parts, the latched flags that were set, the
counters but that of the ignitions, and every output's protection. -/
structure BankActs (n m : Node) : Prop where
  frame : ∃ b k w p h l c, m = n.putOwners b k w p h l c
  flags : ∀ f, hasFlag f n = true → hasFlag f m = true
  counts : ∀ k, k ≠ .ignitions → counter k m = counter k n
  guards : ∀ j, (m.chan j).guard = (n.chan j).guard

namespace BankActs
variable {a n m : Node} {c : HeaterCfg}

theorem refl (n : Node) : BankActs n n := ⟨⟨_, _, _, _, _, _, _, rfl⟩, fun _ => id, fun _ _ => rfl, fun _ => rfl⟩

theorem trans (h : BankActs a n) (h' : BankActs n m) : BankActs a m := by
  obtain ⟨⟨b, k, w, p, e, l, c, rfl⟩, flags, counts, guards⟩ := h
  obtain ⟨⟨b', k', w', p', e', l', c', rfl⟩, flags', counts', guards'⟩ := h'
  exact ⟨⟨b', k', w', p', e', l', c', rfl⟩, fun f has => flags' f (flags f has),
    fun k other => (counts' k other).trans (counts k other), fun j => (guards' j).trans (guards j)⟩

theorem putClaim {i k w} (h : BankActs a n) : BankActs a (n.putClaim i k w) :=
  h.trans ⟨⟨n.bank, n.claims.set i k, w, n.pump, n.heater, n.lights, n.cmd, rfl⟩, fun _ => id, fun _ _ => rfl,
    fun _ => rfl⟩

theorem fileClaim {i k w d} (h : BankActs a n) : BankActs a (fileClaim i k w d n) := by
  obtain ⟨k, w, e⟩ := fileClaim_puts i k w d n
  rw [e]
  exact h.putClaim

theorem releaseClaim {i} (h : BankActs a n) : BankActs a (releaseClaim i n) := by
  obtain ⟨k, w, e⟩ := releaseClaim_puts i n
  rw [e]
  exact h.putClaim

theorem convertClaim {i k} (h : BankActs a n) : BankActs a (convertClaim i k n) := by
  obtain ⟨k, w, e⟩ := convertClaim_puts i k n
  rw [e]
  exact h.putClaim

theorem auxClaim (h : BankActs a n) : BankActs a (auxClaim n) := by
  obtain ⟨k, w, e⟩ := auxClaim_puts n
  rw [e]
  exact h.putClaim

theorem setPump (v : Pump) (h : BankActs a n) : BankActs a (n.setPump v) :=
  h.trans ⟨⟨n.bank, n.claims, n.ev.wait, v, n.heater, n.lights, n.cmd, rfl⟩, fun _ => id, fun _ _ => rfl, fun _ => rfl⟩

theorem setHeater (v : Heater) (h : BankActs a n) : BankActs a (n.setHeater v) :=
  h.trans ⟨⟨n.bank, n.claims, n.ev.wait, n.pump, v, n.lights, n.cmd, rfl⟩, fun _ => id, fun _ _ => rfl, fun _ => rfl⟩

theorem setLights (v : Lights) (h : BankActs a n) : BankActs a (n.setLights v) :=
  h.trans ⟨⟨n.bank, n.claims, n.ev.wait, n.pump, n.heater, v, n.cmd, rfl⟩, fun _ => id, fun _ _ => rfl, fun _ => rfl⟩

theorem setAux (i : Fin 16) (v : AuxState) (h : BankActs a n) : BankActs a (n.setAux i v) :=
  h.trans ⟨⟨(n.setAux i v).bank, n.claims, n.ev.wait, n.pump, n.heater, n.lights, n.cmd, rfl⟩, fun _ => id,
    fun _ _ => rfl, fun _ => rfl⟩

theorem guard_ask (i j : Fin 16) (level : Nat) (n : Node) : ((Machine.ask i level n).chan j).guard = (n.chan j).guard := by
  rw [chan_ask]
  split
  next same =>
    obtain ⟨-, protection, trips, retry, -⟩ := settleOutput_keeps n.now (n.chan i) { n.chan i with commanded := level }
    subst same
    exact Prod.ext trips (Prod.ext protection retry)
  next => rfl

theorem ask (i : Fin 16) (level : Nat) (h : BankActs a n) : BankActs a (ask i level n) :=
  h.trans ⟨⟨(Machine.ask i level n).bank, n.claims, n.ev.wait, n.pump, n.heater, n.lights, n.cmd, rfl⟩, fun _ => id,
    fun _ _ => rfl, fun j => guard_ask i j level n⟩

theorem bumpIgnitions (h : BankActs a n) : BankActs a (bump .ignitions n) := by
  refine h.trans ⟨⟨n.bank, n.claims, n.ev.wait, n.pump, n.heater, n.lights, (bump .ignitions n).cmd, rfl⟩, fun _ => id,
    fun k other => ?_, fun _ => rfl⟩
  have apart : counterPlace .ignitions ≠ counterPlace k := by
    cases k
    case ignitions => exact absurd rfl other
    all_goals decide
  simp only [counter, bump, Fin.getElem_fin]
  exact Vector.getElem_set_ne _ _ fun e => apart (Fin.ext e)

/-! ## The heater -/

theorem standbyCheck (h : BankActs a n) : BankActs a (standbyCheck c n) := by
  obtain ⟨⟨v, k, w, e, frame⟩, -⟩ := (HeatActs.refl n).standbyCheck (c := c)
  have bank := standbyCheck_bank c n
  refine h.trans ⟨⟨{ n.bank with chans := v }, k, w, n.pump, e, n.lights, n.cmd, frame⟩, fun _ has => ?_, fun _ _ => ?_,
    fun j => ?_⟩
  · rw [frame]
    exact has
  · rw [frame]
    rfl
  · simp only [Node.chan, bank]

theorem fuelOff (h : BankActs a n) : BankActs a (fuelOff c n) := (h.ask c.fuel 0).setHeater _

theorem heaterDark (h : BankActs a n) : BankActs a (heaterDark c n) := (h.fuelOff.ask c.glow 0).ask c.fan 0

theorem enterCooldown (h : BankActs a n) : BankActs a (enterCooldown c n) :=
  ((h.fuelOff.ask c.glow 0).ask c.fan 100).convertClaim.setHeater _

theorem failAttempt {r} (h : BankActs a n) : BankActs a (failAttempt c r n) := by
  rw [failAttempt_eq]
  exact (h.bumpIgnitions.setHeater _).enterCooldown

theorem lockoutStop {r} (h : BankActs a n) : BankActs a (lockoutStop c r n) := (h.setHeater _).enterCooldown

theorem heaterTrip (ch : Fin 16) (h : BankActs a n) : BankActs a (heaterTrip c ch n) := by
  have stop : BankActs a (setReason .channel (Machine.releaseClaim slotHeater
      (heaterTo .standby (Machine.heaterDark c n)))) := (h.heaterDark.setHeater _).releaseClaim.setHeater _
  unfold Machine.heaterTrip
  repeat' split
  · exact h
  · exact stop
  · exact h.failAttempt
  · exact stop
  · exact h.failAttempt
  · exact h.lockoutStop
  · exact h
  · exact h.lockoutStop
  · exact stop
  · exact h
  · exact h

theorem heaterNotice (ch : Fin 16) (k : Notice) (h : BankActs a n) : BankActs a (heaterNotice ch k n) := by
  unfold Machine.heaterNotice
  repeat' split
  · exact h
  · exact (h.heaterTrip ch).standbyCheck
  · exact h.standbyCheck
  · exact h

/-! ## The pump, the lights and the AUX outputs -/

theorem pumpStop {c : PumpCfg} (h : BankActs a n) : BankActs a (pumpStop c n) := by
  unfold Machine.pumpStop
  dsimp only
  split
  · exact (h.ask c.output 0).releaseClaim
  · exact h.releaseClaim

theorem pumpFile {c : PumpCfg} (h : BankActs a n) : BankActs a (pumpFile c n) := by
  unfold Machine.pumpFile
  split
  · exact h.fileClaim.setPump _
  · exact h

theorem pumpCheck (h : BankActs a n) : BankActs a (pumpCheck n) := by
  unfold Machine.pumpCheck
  split
  · exact h
  · have told : BankActs a (if n.view.shed < 2 then n.setPump { n.pump with toldShed := false } else n) := by
      split
      · exact h.setPump _
      · exact h
    have low {m : Node} (h : BankActs a m) : BankActs a (pumpLow m) := by
      unfold pumpLow
      dsimp only
      split
      · exact h.setPump _
      · exact h
    unfold pumpEvaluate
    dsimp only
    generalize (if n.view.shed < 2 then n.setPump { n.pump with toldShed := false } else n) = m at told ⊢
    repeat' split
    · exact told.pumpStop.setPump _
    · exact low told
    · exact told.pumpStop.setPump _
    · exact told.setPump _
    · exact told
    · exact told.setPump _
    · exact (told.setPump _).pumpFile
    · exact told

theorem lightNotice (ch : Fin 16) (k : Notice) (h : BankActs a n) : BankActs a (lightNotice ch k n) := by
  unfold Machine.lightNotice
  dsimp only
  split
  · exact (h.ask ch 0).setLights _
  · exact h.setLights _

theorem auxOff (i : Fin 16) (h : BankActs a n) : BankActs a (auxOff i n) := by
  unfold Machine.auxOff
  split
  · exact ((h.ask i 0).setAux i .off).auxClaim
  · exact (h.setAux i .off).auxClaim

theorem auxNotice (i : Fin 16) (k : Notice) (h : BankActs a n) : BankActs a (auxNotice i k n) := by
  unfold Machine.auxNotice
  split
  · exact h.auxOff i
  · exact h

theorem tellOwner (i : Fin 16) (k : Notice) (h : BankActs a n) : BankActs a (tellOwner i k n) := by
  unfold Machine.tellOwner
  split
  · exact h.pumpCheck
  · exact h.heaterNotice i k
  · exact h.lightNotice i k
  · exact h.auxNotice i k
  · exact h

end BankActs

theorem guard_parts {c d : Channel} (h : c.guard = d.guard) :
    c.trips = d.trips ∧ c.protection = d.protection ∧ c.retry = d.retry :=
  ⟨congrArg (·.1) h, congrArg (·.2.1) h, congrArg (·.2.2) h⟩

/-! ## A notice that counts nothing -/

/-- The pump writes its record, the bank, its claim and the mark for the wait service. -/
theorem pumpCheck_cmd (n : Node) : (pumpCheck n).cmd = n.cmd := congrArg (·.cmd) (bare_pumpCheck n)

theorem standbyCheck_cmd (c : HeaterCfg) (n : Node) : (standbyCheck c n).cmd = n.cmd := by
  obtain ⟨⟨v, k, w, e, frame⟩, -⟩ := (HeatActs.refl n).standbyCheck (c := c)
  rw [frame]
  rfl

/-- At a retry or a reset the owners set no flag and count nothing. -/
theorem tellOwner_cmd {i : Fin 16} {k : Notice} {n : Node} (back : k = .retry ∨ k = .reset) :
    (tellOwner i k n).cmd = n.cmd := by
  have calm : ¬ (k = .tripped ∨ k = .latched) := by
    rcases back with rfl | rfl
    · decide
    · decide
  unfold tellOwner
  split
  · exact pumpCheck_cmd n
  · unfold heaterNotice
    simp only [if_neg calm]
    repeat' split
    · rfl
    · exact standbyCheck_cmd _ n
    · rfl
  · unfold lightNotice
    dsimp only
    split
    · rfl
    · rfl
  · unfold auxNotice
    rw [if_neg fun h => calm h.1]
  · rfl

/-! ## A trip and a release -/

/-- A change of one channel's record. -/
theorem putOutput_sets (n : Node) (i : Fin 16) (c : Channel) : n.putOutput i c = n.setBank (n.putOutput i c).bank := rfl

/-- The trip of an output (R174). -/
theorem tripOutput_spec (i : Fin 16) (n : Node) : let t := (tripOutput i n).1
    t = { n with bank := t.bank, cmd := t.cmd } ∧ ((tripOutput i n).2 = .tripped ∨ (tripOutput i n).2 = .latched) ∧
    (t.chan i).trips = (n.chan i).trips + 1 ∧ (t.chan i).commanded = (n.chan i).commanded ∧
    (t.chan i).protection = (if 3 ≤ (n.chan i).trips then .latchedOff else .tripped) ∧
    (t.chan i).retry = (if 3 ≤ (n.chan i).trips then none else some (n.now + 5000)) ∧
    (∀ j, j ≠ i → t.chan j = n.chan j) ∧ t.bank.aux = n.bank.aux ∧ t.bank.temps = n.bank.temps ∧
    hasFlag .channelTrip t = true ∧ counter .trips t = min (counter .trips n + 1) 65535 ∧
    counter .ignitions t = counter .ignitions n := by
  have latch : latchTrips ≤ (n.chan i).trips + 1 ↔ 3 ≤ (n.chan i).trips := Nat.succ_le_succ_iff
  obtain ⟨new, is⟩ : ∃ new : Channel, new = { n.chan i with
    protection := if 3 ≤ (n.chan i).trips then .latchedOff else .tripped
    trips := (n.chan i).trips + 1
    retry := if 3 ≤ (n.chan i).trips then none else some (n.now + 5000) } := ⟨_, rfl⟩
  have unfolds : (tripOutput i n).1 = bump .trips (setFlag .channelTrip ((n.putOutput i new).setChan i
      { (n.putOutput i new).chan i with onTotal := 0 })) := by
    unfold tripOutput
    dsimp only
    simp only [latch, is]
    rfl
  have record (j : Fin 16) : (tripOutput i n).1.chan j = if i = j then
      { settleOutput n.now (n.chan i) new with onTotal := 0 } else n.chan j := by
    rw [unfolds]
    refine (Node.chan_setChan ..).trans ?_
    rw [chan_putOutput, chan_putOutput, if_pos rfl]
    split
    · rfl
    · rfl
  obtain ⟨commanded, protection, trips, retry, -⟩ := settleOutput_keeps n.now (n.chan i) new
  dsimp only
  rw [record, if_pos rfl]
  refine ⟨by rw [unfolds]; rfl, ?_, trips.trans (by rw [is]), commanded.trans (by rw [is]),
    protection.trans (by rw [is]), retry.trans (by rw [is]), fun j other => ?_, by rw [unfolds]; rfl,
    by rw [unfolds]; rfl, ?_, ?_, ?_⟩
  · unfold tripOutput
    dsimp only
    split
    · exact .inr rfl
    · exact .inl rfl
  · rw [record, if_neg (Ne.symm other)]
  · rw [unfolds]
    generalize (n.putOutput i new).setChan i _ = o
    exact hasFlag_setFlag (f := .channelTrip) (g := .channelTrip) (n := o) (.inl rfl)
  · rw [unfolds, counter_bump]
    rfl
  · rw [unfolds]
    simp only [counter, bump, Fin.getElem_fin]
    exact Vector.getElem_set_ne _ _ (by decide)

/-- The release of an output (R175). -/
theorem releaseOutput_spec (i : Fin 16) (n : Node) : let t := releaseOutput i n
    t = n.setBank t.bank ∧ (t.chan i).protection = .normal ∧ (t.chan i).retry = none ∧
    (t.chan i).trips = (n.chan i).trips ∧ (t.chan i).commanded = (n.chan i).commanded ∧
    (∀ j, (t.chan j).accepted = (n.chan j).accepted) ∧
    (∀ j, j ≠ i → t.chan j = n.chan j) ∧ t.bank.aux = n.bank.aux ∧ t.bank.temps = n.bank.temps := by
  have record (j : Fin 16) : (releaseOutput i n).chan j = if i = j then
      settleOutput n.now (n.chan i) { n.chan i with protection := .normal, retry := none } else n.chan j :=
    chan_putOutput ..
  obtain ⟨commanded, protection, trips, retry, -, accepted, -⟩ :=
    settleOutput_keeps n.now (n.chan i) { n.chan i with protection := .normal, retry := none }
  dsimp only
  have inputs (j : Fin 16) : ((releaseOutput i n).chan j).accepted = (n.chan j).accepted := by
    rw [record]
    split
    next same =>
      subst same
      exact accepted
    next => rfl
  rw [record, if_pos rfl]
  exact ⟨rfl, protection, retry, trips, commanded, inputs, fun j other => by rw [record, if_neg (Ne.symm other)], rfl, rfl⟩

end Sys2Proof.Machine
end

section
/-!
# Proofs: the owners at a trip and at a retry (O51)
-/
namespace Sys2Proof.Machine

/-! ## The heater at a trip (R116, R125) -/

section
variable {c : HeaterCfg} {ch : Fin 16} {k : Notice} {n t : Node}

theorem setReason_self (n : Node) : setReason n.heater.reason n = n := rfl

theorem standbyCheck_elsewhere (h : n.heater.state ≠ .standby) : standbyCheck c n = n := if_neg h

/-- With one of its outputs held off, STANDBY files nothing; it shows why. -/
theorem standbyCheck_held (held : outputHeldOff c n = true) (vent : n.heater.mode = .vent → isHeldOff (n.chan c.fan) = true) :
    ∃ r, standbyCheck c n = setReason r n ∧
      (n.heater.reason = .channel → n.view.shed < 4 → n.validTemp c.exhaust ≠ none → r = .channel) := by
  have still : ∃ r, n = setReason r n ∧
      (n.heater.reason = .channel → n.view.shed < 4 → n.validTemp c.exhaust ≠ none → r = .channel) :=
    ⟨n.heater.reason, rfl, fun h _ _ => h⟩
  have start : ∃ r, startCheck c n = setReason r n ∧
      (n.heater.reason = .channel → n.view.shed < 4 → n.validTemp c.exhaust ≠ none → r = .channel) := by
    cases asked : startAsked c n with
    | false =>
      rw [startCheck_idle asked]
      exact still
    | true =>
      rw [startCheck_asked asked, held, if_pos (rfl : true = true)]
      by_cases heavy : 4 ≤ n.view.shed
      · rw [if_pos heavy]
        exact ⟨.shed, rfl, fun _ light => absurd heavy (not_le.mpr light)⟩
      · rw [if_neg heavy]
        cases valid : exhaustValid c n with
        | false =>
          have bad (h : n.validTemp c.exhaust ≠ none) : False := by simp [exhaustValid_iff.mpr h] at valid
          simp only [Bool.not_false, if_true]
          split
          · exact ⟨.sensor, rfl, fun _ _ h => (bad h).elim⟩
          · exact still
        | true => exact ⟨.channel, rfl, fun _ _ _ => rfl⟩
  unfold standbyCheck
  by_cases stands : n.heater.state = .standby
  · rw [if_pos stands]
    cases mode : n.heater.mode with
    | off => exact still
    | heat => exact start
    | frost => exact start
    | vent =>
      have none_ : ventCheck c n = n := if_neg (by simp [vent mode])
      dsimp only
      rw [none_]
      exact still
  · rw [if_neg stands]
    exact still

/-- The heater stopped without a cooldown (R125). -/
def stoppedCold (c : HeaterCfg) (n : Node) : Node :=
  setReason .channel (releaseClaim slotHeater (heaterTo .standby (heaterDark c n)))

theorem stoppedCold_heater : (stoppedCold c n).heater =
    { clocksOff { n.heater with rate := 0, pulses := 0, pulseEnd := none } with
      state := .standby, level := 0, reason := .channel } := by
  unfold stoppedCold setReason
  rw [Node.setHeater_heater, releaseClaim_heater]
  rfl

theorem stoppedCold_heat : HeatActs n (stoppedCold c n) := (HeatActs.refl n).heaterDark.heaterTo.releaseClaim.setReason

theorem stoppedCold_bank : BankActs n (stoppedCold c n) :=
  ((BankActs.refl n).heaterDark.setHeater _).releaseClaim.setHeater _

theorem stoppedCold_claim : ((stoppedCold c n).claim slotHeater).state = .idle := releaseClaim_idle slotHeater _

theorem stoppedCold_commanded (i : Fin 16) (h : i = c.glow ∨ i = c.fan ∨ i = c.fuel) :
    ((stoppedCold c n).chan i).commanded = 0 := by
  have dark := heaterDark_commanded c n i h
  unfold stoppedCold
  generalize heaterDark c n = d at dark ⊢
  obtain ⟨q, w, e⟩ := releaseClaim_puts slotHeater (heaterTo .standby d)
  rw [e]
  exact dark

/-! The turns of `heaterTrip`. -/

theorem heaterTrip_fails (glow : ch = c.glow) (st : n.heater.state = .glow ∨ n.heater.state = .ignite) :
    heaterTrip c ch n = failAttempt c .channel n := by
  unfold heaterTrip
  rcases st with st | st
  · rw [st]
    exact if_pos glow
  · rw [st]
    exact if_pos glow

theorem heaterTrip_stops (other : ch ≠ c.glow) (st : n.heater.state = .purge ∨ n.heater.state = .glow) :
    heaterTrip c ch n = stoppedCold c n := by
  unfold heaterTrip
  rcases st with st | st
  · rw [st]
    exact if_neg other
  · rw [st]
    exact if_neg other

theorem heaterTrip_locks (other : ch ≠ c.glow) (st : n.heater.state = .ignite ∨ n.heater.state = .run) :
    heaterTrip c ch n = lockoutStop c .channel n := by
  unfold heaterTrip
  rcases st with st | st
  · rw [st]
    exact if_neg other
  · rw [st]
    exact if_neg other

theorem heaterTrip_vents (fan : ch = c.fan) (st : n.heater.state = .venting) : heaterTrip c ch n = stoppedCold c n := by
  unfold heaterTrip
  rw [st]
  exact if_pos fan

theorem heaterTrip_rests (st : n.heater.state = .standby ∨ n.heater.state = .off ∨ n.heater.state = .cooldown ∨
    n.heater.state = .lockout ∨ (ch = c.glow ∧ (n.heater.state = .purge ∨ n.heater.state = .run)) ∨
    (ch ≠ c.fan ∧ n.heater.state = .venting)) : heaterTrip c ch n = n := by
  unfold heaterTrip
  rcases st with st | st | st | st | ⟨glow, st | st⟩ | ⟨fan, st⟩
  · rw [st]
  · rw [st]
  · rw [st]
  · rw [st]
  · rw [st]
    exact if_pos glow
  · rw [st]
    exact if_pos glow
  · rw [st]
    exact if_neg fan

theorem isHeldOff_guard {m : Node} {i : Fin 16} (h : (m.chan i).guard = (n.chan i).guard) :
    isHeldOff (m.chan i) = isHeldOff (n.chan i) := by
  obtain ⟨-, protection, -⟩ := guard_parts h
  simp only [isHeldOff, protection]

theorem heaterNotice_trip (cfg : t.heaterCfg = some c) (mine : ch = c.glow ∨ ch = c.fan ∨ ch = c.fuel)
    (off : k = .tripped ∨ k = .latched) : heaterNotice ch k t = standbyCheck c (heaterTrip c ch t) := by
  unfold heaterNotice
  rw [cfg]
  exact (if_pos mine).trans (by rw [if_pos off])

theorem setReason_chan (r : StopReason) (i : Fin 16) : (setReason r n).chan i = n.chan i := rfl

theorem setReason_claim (r : StopReason) (i : Fin 8) : (setReason r n).claim i = n.claim i := rfl

/-- COOLDOWN as a trip enters it. -/
def tripCools (c : HeaterCfg) (now : Nat) (m : Node) : Prop :=
  m.heater.state = .cooldown ∧ m.heater.reason = .channel ∧ m.heater.level = 0 ∧
  m.heater.phaseEnd = some (now + 180000) ∧ m.heater.rate = 0 ∧ (m.chan c.fan).commanded = 100 ∧
  (m.claim slotHeater).cls = 4 ∧ (m.claim slotHeater).held = units c.cooldown

theorem tripCools_of {o : Node} (reason : o.heater.reason = .channel) : tripCools c o.now (enterCooldown c o) := by
  obtain ⟨cls, amount⟩ := enterCooldown_claim c o
  have fan : ((enterCooldown c o).chan c.fan).commanded = 100 := by
    rw [enterCooldown_commanded, if_pos rfl]
  have heater := enterCooldown_heater c o
  generalize enterCooldown c o = m at cls amount fan heater
  unfold tripCools
  rw [heater]
  exact ⟨rfl, reason, rfl, rfl, rfl, fan, cls, amount⟩

/-- STANDBY as a trip leads to it. -/
def tripStops (c : HeaterCfg) (t m : Node) : Prop :=
  m.heater.state = .standby ∧ m.heater.attempts = t.heater.attempts ∧
  (m.claim slotHeater).state = .idle ∧ (m.chan c.glow).commanded = 0 ∧ (m.chan c.fan).commanded = 0 ∧
  (m.chan c.fuel).commanded = 0 ∧ (t.view.shed < 4 → t.validTemp c.exhaust ≠ none → m.heater.reason = .channel)

theorem tripStops_of (mine : ch = c.glow ∨ ch = c.fan ∨ ch = c.fuel) (held : isHeldOff (t.chan ch) = true)
    (vent : t.heater.mode = .vent → ch = c.fan) : tripStops c t (standbyCheck c (stoppedCold c t)) := by
  obtain ⟨⟨v, q, w, e, frame⟩, mode, -, attempts⟩ := stoppedCold_heat (c := c) (n := t)
  have kept (i : Fin 16) : isHeldOff ((stoppedCold c t).chan i) = isHeldOff (t.chan i) :=
    isHeldOff_guard (stoppedCold_bank.guards i)
  have glow := stoppedCold_commanded (c := c) (n := t) _ (.inl rfl)
  have fan := stoppedCold_commanded (c := c) (n := t) _ (.inr (.inl rfl))
  have fuel := stoppedCold_commanded (c := c) (n := t) _ (.inr (.inr rfl))
  have free := stoppedCold_claim (c := c) (n := t)
  have heater := stoppedCold_heater (c := c) (n := t)
  generalize stoppedCold c t = o at *
  have off : outputHeldOff c o = true := by
    unfold outputHeldOff
    rw [kept, kept, kept]
    rcases mine with rfl | rfl | rfl
    · simp [held]
    · simp [held]
    · simp [held]
  obtain ⟨r, shows, why⟩ := standbyCheck_held (c := c) (n := o) off (fun h => by
    rw [kept, ← vent (mode.symm.trans h)]
    exact held)
  have state : o.heater.state = .standby := by rw [heater]
  have reason : o.heater.reason = .channel := by rw [heater]
  have shed : o.view.shed = t.view.shed := by rw [frame]; rfl
  have valid : o.validTemp c.exhaust = t.validTemp c.exhaust := by rw [frame]; rfl
  rw [shed, valid] at why
  rw [shows, tripStops, setReason_chan, setReason_chan, setReason_chan, setReason_claim]
  exact ⟨state, attempts, free, glow, fan, fuel, why reason⟩

/-- The heater at a trip of one of its outputs, from the node whose output has tripped. -/
theorem heater_trips (mine : ch = c.glow ∨ ch = c.fan ∨ ch = c.fuel) (held : isHeldOff (t.chan ch) = true) :
    let m := standbyCheck c (heaterTrip c ch t)
    let st := t.heater.state
    (ch = c.glow → st = .glow ∨ st = .ignite →
      tripCools c t.now m ∧ m.heater.attempts = t.heater.attempts + 1 ∧
      counter .ignitions m = min (counter .ignitions t + 1) 65535 ∧
      (t.heater.attempts = 0 → m.heater.restart = true ∧ m.heater.lockout = t.heater.lockout) ∧
      (1 ≤ t.heater.attempts → m.heater.lockout = true ∧ m.heater.restart = t.heater.restart)) ∧
    (ch ≠ c.glow → st = .purge ∨ st = .glow → t.heater.mode ≠ .vent → tripStops c t m) ∧
    (ch ≠ c.glow → st = .ignite ∨ st = .run →
      tripCools c t.now m ∧ m.heater.lockout = true ∧ m.heater.attempts = t.heater.attempts ∧
      m.heater.restart = t.heater.restart) ∧
    (ch = c.fan → st = .venting → tripStops c t m) ∧
    (st = .standby → m.heater.state = .standby) ∧
    (st = .off ∨ st = .cooldown ∨ st = .lockout ∨ (ch = c.glow ∧ (st = .purge ∨ st = .run)) ∨
      (ch ≠ c.fan ∧ st = .venting) → m.heater = t.heater ∧ m.claims = t.claims) := by
  have cooling (o : Node) : (enterCooldown c o).heater.state ≠ .standby := by
    rw [enterCooldown_state]
    simp
  intro m st
  refine ⟨fun glow fails => ?_, fun other runs mode => ?_, fun other burns => ?_, fun isFan vents => ?_, fun stands => ?_,
    fun rest => ?_⟩
  · have is : m = failAttempt c .channel t := by
      refine (congrArg (standbyCheck c) (heaterTrip_fails glow fails)).trans (standbyCheck_elsewhere ?_)
      rw [failAttempt_eq]
      exact cooling _
    obtain ⟨-, attempts, -, -, -, count, first, again, -⟩ :=
      failAttempt_fails (c := c) (r := .channel) (n := t) (k := t) ⟨t.bank, t.heater.state, t.heater.phaseEnd, rfl⟩
    have cools : tripCools c t.now (failAttempt c .channel t) := by
      rw [failAttempt_eq]
      exact tripCools_of (o := (bump .ignitions t).setHeater (attempted .channel t.heater)) rfl
    rw [is]
    exact ⟨cools, attempts, count, first, again⟩
  · have is : m = standbyCheck c (stoppedCold c t) := congrArg (standbyCheck c) (heaterTrip_stops other runs)
    rw [is]
    exact tripStops_of mine held fun h => absurd h mode
  · have is : m = enterCooldown c (t.setHeater { t.heater with lockout := true, reason := .channel }) :=
      (congrArg (standbyCheck c) (heaterTrip_locks other burns)).trans (standbyCheck_elsewhere (cooling _))
    have cools : tripCools c t.now (enterCooldown c (t.setHeater { t.heater with lockout := true, reason := .channel })) :=
      tripCools_of (o := t.setHeater { t.heater with lockout := true, reason := .channel }) rfl
    have heater := enterCooldown_heater c (t.setHeater { t.heater with lockout := true, reason := .channel })
    rw [← is] at cools heater
    refine ⟨cools, ?_⟩
    rw [heater]
    exact ⟨rfl, rfl, rfl⟩
  · have is : m = standbyCheck c (stoppedCold c t) := congrArg (standbyCheck c) (heaterTrip_vents isFan vents)
    rw [is]
    exact tripStops_of mine held fun _ => isFan
  · have is : m = standbyCheck c t := congrArg (standbyCheck c) (heaterTrip_rests (.inl stands))
    rw [is, standbyCheck_state]
    exact stands
  · have elsewhere : t.heater.state ≠ .standby := by
      intro stands
      rcases rest with s | s | s | ⟨-, s | s⟩ | ⟨-, s⟩
      · exact absurd (stands.symm.trans s) (by simp)
      · exact absurd (stands.symm.trans s) (by simp)
      · exact absurd (stands.symm.trans s) (by simp)
      · exact absurd (stands.symm.trans s) (by simp)
      · exact absurd (stands.symm.trans s) (by simp)
      · exact absurd (stands.symm.trans s) (by simp)
    have is : m = t :=
      (congrArg (standbyCheck c) (heaterTrip_rests (.inr rest))).trans (standbyCheck_elsewhere elsewhere)
    rw [is]
    exact ⟨rfl, rfl⟩

end

end Sys2Proof.Machine
end

section
/-!
# Proofs: the rows of the outputs (O51)
-/
namespace Sys2Proof.Machine

/-! ## The pump, the AUX outputs and the lights at a notice -/

section
variable {n t : Node} {ch : Fin 16} {k : Notice}

theorem pumpCheck_some {c : PumpCfg} (cfg : n.pumpCfg = some c) : pumpCheck n = pumpEvaluate c n := by
  unfold pumpCheck
  rw [cfg]

/-- An output held off inhibits the pump (R90). -/
theorem pumpInhibit_of_held {c : PumpCfg} (held : isHeldOff (n.chan c.output) = true) :
    ∃ r, pumpInhibit c n = some r := by
  unfold pumpInhibit
  rw [held, if_pos (rfl : true = true)]
  repeat' split
  · exact ⟨_, rfl⟩
  · exact ⟨_, rfl⟩
  · exact ⟨_, rfl⟩
  · exact ⟨_, rfl⟩

theorem fresh_any_false (h : ∀ low, usedFresh n ≠ some (true, low)) : (usedFresh n).any (·.1) = false := by
  rcases e : usedFresh n with _ | ⟨_ | _, low⟩
  · rfl
  · rfl
  · exact absurd e (h low)

/-- An INHIBITED pump with nothing left that inhibits it begins afresh (R90). -/
theorem pumpEvaluate_freed {c : PumpCfg} (state : n.pump.state = .inhibited) (shed : n.pump.toldShed = false)
    (energy : n.pump.toldNoEnergy = false) (frost : frostInhibit n = false) (grey : greyInhibit n = false)
    (fresh : ∀ low, usedFresh n ≠ some (true, low)) (sound : isHeldOff (n.chan c.output) = false) :
    pumpEvaluate c n = pumpFile c (pumpTo .idle none n) := by
  have same : (if n.view.shed < 2 then n.setPump { n.pump with toldShed := false } else n) = n := by
    split
    · rw [← shed]
      rfl
    · rfl
  have free : pumpInhibit c n = none := by
    simp [pumpInhibit, frost, grey, fresh_any_false fresh, sound, shed, energy]
  unfold pumpEvaluate
  dsimp only
  rw [same, state, free]

theorem auxNotice_off (off : k = .tripped ∨ k = .latched) (on : t.auxState ch ≠ .off) : auxNotice ch k t = auxOff ch t :=
  if_pos ⟨off, on⟩

theorem auxNotice_still (h : k = .retry ∨ k = .reset ∨ t.auxState ch = .off) : auxNotice ch k t = t := by
  refine if_neg fun both => ?_
  rcases h with rfl | rfl | off
  · exact absurd both.1 (by decide)
  · exact absurd both.1 (by decide)
  · exact both.2 off

/-- The AUX part of an output that becomes off, before the claim follows. -/
def auxCleared (i : Fin 16) (n : Node) : Node := (if n.auxState i = .on then ask i 0 n else n).setAux i .off

theorem auxOff_eq (i : Fin 16) (n : Node) : auxOff i n = auxClaim (auxCleared i n) := rfl

theorem auxWant_auxClaim (n : Node) : auxWant (auxClaim n) = auxWant n := by
  obtain ⟨c, w, e⟩ := auxClaim_puts n
  rw [e]
  rfl

theorem auxCleared_claim (i : Fin 16) (n : Node) (j : Fin 8) : (auxCleared i n).claim j = n.claim j := by
  unfold auxCleared
  split <;> rfl

/-- An AUX output that becomes off (R177). -/
theorem auxOff_spec (i : Fin 16) (n : Node) : let m := auxOff i n
    m.auxState i = .off ∧ (∀ j, j ≠ i → m.auxState j = n.auxState j) ∧
    (n.auxState i = .on → (m.chan i).commanded = 0) ∧
    ((n.claim slotAux).state ≠ .idle → auxWant m ≤ (n.claim slotAux).wanted →
      (0 < auxWant m → (m.claim slotAux).wanted = auxWant m) ∧ (auxWant m = 0 → (m.claim slotAux).state = .idle)) := by
  dsimp only
  rw [auxOff_eq, auxWant_auxClaim, chan_auxClaim]
  simp only [auxState_auxClaim]
  refine ⟨by simp [auxCleared], fun j other => ?_, fun on => ?_, fun filed less => ?_⟩
  · unfold auxCleared
    rw [auxState_setAux, if_neg (Ne.symm other)]
    split <;> rfl
  · unfold auxCleared
    rw [chan_setAux, if_pos on, commanded_ask_self]
  · have claim := auxCleared_claim i n slotAux
    have filed' : ((auxCleared i n).claim slotAux).state ≠ .idle := by rw [claim]; exact filed
    have less' : auxWant (auxCleared i n) ≤ ((auxCleared i n).claim slotAux).wanted := by rw [claim]; exact less
    generalize auxCleared i n = o at filed' less' ⊢
    unfold auxClaim
    dsimp only
    rw [if_neg filed']
    refine ⟨fun pos => ?_, fun zero => ?_⟩
    · rw [if_neg pos.ne', if_neg (not_lt.mpr less')]
      obtain ⟨-, wanted⟩ := reduceClaim_wants filed' pos.ne' less'
      exact wanted
    · rw [if_pos zero]
      exact releaseClaim_idle ..

theorem lightNotice_off (off : k = .tripped ∨ k = .latched) {i : Nat} {c : LightCfg} {l : Light}
    (at_ : t.lamps[i]? = some (c, l)) (mine : c.output = ch) :
    (lightNotice ch k t).lights.channels[i]? = some { l with level := 0, heldOff := true } := by
  have isOff : (k == .tripped || k == .latched) = true := by
    rcases off with rfl | rfl
    · rfl
    · rfl
  unfold lightNotice
  dsimp only
  rw [mapLamps_channels, isOff]
  have lamps : (if (t.lamps.any (fun x => x.1.output == ch) && true) = true then ask ch 0 t else t).lamps = t.lamps := by
    split <;> rfl
  rw [lamps, at_, Option.map_some, if_pos mine]
  rfl

theorem lightNotice_back (back : k = .retry ∨ k = .reset) : lightNotice ch k t =
    t.mapLamps fun _ c l => if c.output = ch then { l with heldOff := false } else l := by
  have isOff : (k == .tripped || k == .latched) = false := by
    rcases back with rfl | rfl
    · rfl
    · rfl
  unfold lightNotice
  dsimp only
  rw [isOff, Bool.and_false]
  rfl

end

/-! ## Trips -/

theorem isOn_of_guard {c : Channel} (h : c.protection ≠ .normal) : isOn c = false := by
  simp [isOn, drivenLevel, h]

/-- What an output's trip leaves, with what its owner does (R174, R92, R116, R125, R166, R177). -/
theorem output_trips (n : Node) (ch : Fin 16) : let old := n.chan ch
    let m := tripAndTell ch n
    (m.chan ch).trips = old.trips + 1 ∧ isOn (m.chan ch) = false ∧
    (old.trips < 3 → (m.chan ch).protection = .tripped ∧ (m.chan ch).retry = some (n.now + 5000)) ∧
    (3 ≤ old.trips → (m.chan ch).protection = .latchedOff ∧ (m.chan ch).retry = none) ∧
    hasFlag .channelTrip m = true ∧ counter .trips m = min (counter .trips n + 1) 65535 ∧
    m = { n with bank := m.bank, cmd := m.cmd, claims := m.claims, pump := m.pump, heater := m.heater
                 lights := m.lights, ev := m.ev } ∧
    (n.owner ch = none ∨ n.owner ch = some .tanks ∨ n.owner ch = some .frost →
      m = { n with bank := m.bank, cmd := m.cmd }) ∧
    (∀ c, n.owner ch = some .pump → n.pumpCfg = some c → c.output = ch → n.pump.state = .running →
      m.pump.state = .inhibited ∧ (m.claim slotPump).state = .idle ∧ (m.chan ch).commanded = 0 ∧
      (frostInhibit n = false → greyInhibit n = false → (∀ low, usedFresh n ≠ some (true, low)) →
        m.pump.reason = some .channel)) ∧
    (n.owner ch = some .aux → m.auxState ch = .off ∧ (∀ j, j ≠ ch → m.auxState j = n.auxState j) ∧
      (n.auxState ch = .on → (m.chan ch).commanded = 0) ∧
      (n.auxState ch ≠ .off → (n.claim slotAux).state ≠ .idle → auxWant m ≤ (n.claim slotAux).wanted →
        (0 < auxWant m → (m.claim slotAux).wanted = auxWant m) ∧
        (auxWant m = 0 → (m.claim slotAux).state = .idle))) ∧
    (∀ c, n.owner ch = some .heater → n.heaterCfg = some c → ch = c.glow ∨ ch = c.fan ∨ ch = c.fuel →
      ∃ t : Node, t = { n with bank := t.bank, cmd := t.cmd } ∧ t.bank.temps = n.bank.temps ∧
        counter .ignitions t = counter .ignitions n ∧ isHeldOff (t.chan ch) = true ∧
        m = standbyCheck c (heaterTrip c ch t)) ∧
    (∀ (i : Nat) (c : LightCfg) (l : Light), n.owner ch = some .lights → n.lamps[i]? = some (c, l) → c.output = ch →
      m.lights.channels[i]? = some { l with level := 0, heldOff := true }) := by
  obtain ⟨frame, off, trips, commanded, protection, retry, others, aux, temps, flag, count, ignitions⟩ :=
    tripOutput_spec ch n
  dsimp only
  have is : tripAndTell ch n = tellOwner ch (tripOutput ch n).2 (tripOutput ch n).1 := rfl
  rw [is]
  generalize (tripOutput ch n).1 = t at *
  generalize (tripOutput ch n).2 = k at *
  have bad : (t.chan ch).protection ≠ .normal := by
    rw [protection]
    split
    · simp
    · simp
  have held : isHeldOff (t.chan ch) = true := by simpa [isHeldOff] using bad
  have owner : t.owner ch = n.owner ch := by rw [frame]; rfl
  have acts : BankActs t (tellOwner ch k t) := (BankActs.refl t).tellOwner ch k
  obtain ⟨trips', protection', retry'⟩ := guard_parts (acts.guards ch)
  obtain ⟨b, q, w, p, h, l, u, whole⟩ := acts.frame
  have tell (d : Duty) (mine : n.owner ch = some d) : t.owner ch = some d := owner.trans mine
  refine ⟨trips'.trans trips, isOn_of_guard (by rw [protection']; exact bad), fun few => ?_, fun many => ?_,
    acts.flags _ flag, (acts.counts _ (by simp)).trans count, ?_, fun nobody => ?_, fun c mine cfg output run => ?_,
    fun mine => ?_, fun c mine cfg output => ?_, fun i c l mine at_ output => ?_⟩
  · rw [protection', retry', protection, retry, if_neg (not_le.mpr few), if_neg (not_le.mpr few)]
    exact ⟨rfl, rfl⟩
  · rw [protection', retry', protection, retry, if_pos many, if_pos many]
    exact ⟨rfl, rfl⟩
  · rw [whole, frame]
    rfl
  · have still : tellOwner ch k t = t := by
      unfold tellOwner
      rcases nobody with o | o | o
      · rw [owner, o]
      · rw [owner, o]
      · rw [owner, o]
    rw [still]
    exact frame
  · have cfg' : t.pumpCfg = some c := by rw [frame]; exact cfg
    have told : tellOwner ch k t = pumpEvaluate c t := by
      unfold tellOwner
      rw [tell _ mine]
      exact pumpCheck_some cfg'
    have run' : t.pump.state = .running := by rw [frame]; exact run
    have held' : isHeldOff (t.chan c.output) = true := by rw [output]; exact held
    obtain ⟨r, inhibit⟩ := pumpInhibit_of_held held'
    obtain ⟨state, reason, -, slot, out⟩ := pumpEvaluate_inhibited (.inl run') inhibit
    obtain ⟨-, -, -, channel⟩ := pumpInhibit_order inhibit
    rw [told]
    refine ⟨state, slot, by rw [← output]; exact out run', fun frost grey fresh => ?_⟩
    rw [reason, channel (by rw [frame]; exact frost) (by rw [frame]; exact grey) (fun low => by
      rw [frame]
      exact fresh low) held']
  · have told : tellOwner ch k t = auxNotice ch k t := by
      unfold tellOwner
      rw [tell _ mine]
    have state (j : Fin 16) : t.auxState j = n.auxState j := by simp only [Node.auxState, aux]
    rw [told]
    by_cases on : t.auxState ch = .off
    · rw [auxNotice_still (.inr (.inr on))]
      refine ⟨on, fun j _ => state j, fun h => ?_, fun h => ?_⟩
      · rw [← state, on] at h
        cases h
      · exact absurd ((state ch).symm.trans on) h
    · rw [auxNotice_off off on]
      obtain ⟨now, others', level, claim⟩ := auxOff_spec ch t
      have slot : t.claim slotAux = n.claim slotAux := by rw [frame]; rfl
      rw [slot] at claim
      exact ⟨now, fun j other => (others' j other).trans (state j), fun h => level ((state ch).trans h),
        fun _ filed less => claim filed less⟩
  · have cfg' : t.heaterCfg = some c := by rw [frame]; exact cfg
    refine ⟨t, frame, temps, ignitions, held, ?_⟩
    unfold tellOwner
    rw [tell _ mine]
    exact heaterNotice_trip cfg' output off
  · have told : tellOwner ch k t = lightNotice ch k t := by
      unfold tellOwner
      rw [tell _ mine]
    rw [told]
    refine lightNotice_off off (c := c) ?_ output
    rw [frame]
    exact at_

/-! ## Retries -/

/-- What an output's retry leaves, with what its owner does (R175). -/
theorem output_retries (n : Node) (ch : Fin 16) : let old := n.chan ch
    let m := tellOwner ch .retry (releaseOutput ch n)
    (m.chan ch).protection = .normal ∧ (m.chan ch).retry = none ∧ (m.chan ch).trips = old.trips ∧
    m = { n with bank := m.bank, claims := m.claims, pump := m.pump, heater := m.heater, lights := m.lights
                 ev := m.ev } ∧
    (n.owner ch ≠ some .pump → m.pump = n.pump ∧ (m.chan ch).commanded = old.commanded) ∧
    (n.owner ch = none ∨ n.owner ch = some .tanks ∨ n.owner ch = some .frost ∨ n.owner ch = some .aux →
      m = { n with bank := m.bank } ∧ ∀ j, m.auxState j = n.auxState j) ∧
    (∀ c, n.owner ch = some .pump → n.pumpCfg = some c → c.output = ch → n.pump.state = .inhibited →
      n.pump.toldShed = false → n.pump.toldNoEnergy = false → frostInhibit n = false → greyInhibit n = false →
      (∀ low, usedFresh n ≠ some (true, low)) → (m.chan ch).commanded = old.commanded ∧
      (n.isActive = true → n.pump.modeOn = true → demand c n = true → (n.claim slotPump).state = .idle →
        m.pump.state = .waiting ∧ m.claim slotPump =
          { state := .waiting, cls := 1, wanted := units c.draw, stamp := n.now, deadline := some (n.now + 3000) }) ∧
      (n.isActive = false ∨ n.pump.modeOn = false ∨ demand c n = false →
        m.pump.state = .idle ∧ m.pump.reason = none ∧ m.claims = n.claims)) ∧
    (∀ c, n.owner ch = some .heater → n.heaterCfg = some c → ch = c.glow ∨ ch = c.fan ∨ ch = c.fuel →
      m = (if n.heater.state = .standby then standbyCheck c { n with bank := m.bank }
        else { n with bank := m.bank })) ∧
    (n.owner ch = some .lights → m = { n with bank := m.bank, lights := { n.lights with
        channels := m.lights.channels } } ∧
      ∀ (i : Nat) (c : LightCfg) (l : Light), n.lamps[i]? = some (c, l) → m.lights.channels[i]? =
        some (if c.output = ch then { l with heldOff := false } else l)) := by
  obtain ⟨frame, protection, retry, trips, commanded, accepted, -, aux, -⟩ := releaseOutput_spec ch n
  dsimp only
  generalize releaseOutput ch n = t at *
  have owner : t.owner ch = n.owner ch := by rw [frame]; rfl
  have cmd : (tellOwner ch .retry t).cmd = n.cmd := (tellOwner_cmd (.inl rfl)).trans (by rw [frame]; rfl)
  have acts : BankActs t (tellOwner ch .retry t) := (BankActs.refl t).tellOwner ch .retry
  obtain ⟨trips', protection', retry'⟩ := guard_parts (acts.guards ch)
  obtain ⟨b, q, w, p, h, l, u, whole⟩ := acts.frame
  have tell (d : Duty) (mine : n.owner ch = some d) : t.owner ch = some d := owner.trans mine
  have pump : t.pump = n.pump := by rw [frame]; rfl
  have heaterTold (c : HeaterCfg) (cfg : t.heaterCfg = some c) (mine : ch = c.glow ∨ ch = c.fan ∨ ch = c.fuel) :
      heaterNotice ch .retry t = standbyCheck c t := by
    unfold heaterNotice
    rw [cfg]
    exact (if_pos mine).trans (by rw [if_neg (by decide)])
  refine ⟨protection'.trans protection, retry'.trans retry, trips'.trans trips, ?_, fun other => ?_, fun nobody => ?_,
    fun c mine cfg output state shed energy frost grey fresh => ?_, fun c mine cfg output => ?_, fun mine => ?_⟩
  · have flat : tellOwner ch .retry t = { n with
        bank := b, claims := q, pump := p, heater := h, lights := l, ev := { n.ev with wait := w } } := by
      have command : u = n.cmd := by
        rw [whole] at cmd
        exact cmd
      rw [whole, command, frame]
      rfl
    rw [flat]
  · have told : (tellOwner ch .retry t).pump = t.pump ∧ ((tellOwner ch .retry t).chan ch).commanded =
        (t.chan ch).commanded := by
      unfold tellOwner
      rw [owner]
      split
      next mine => exact absurd mine other
      next =>
        unfold heaterNotice
        repeat' split
        · exact ⟨rfl, rfl⟩
        · next bad => exact absurd bad (by decide)
        · have bank := standbyCheck_bank (by assumption) t
          have acts := (HeatActs.refl t).standbyCheck (c := by assumption)
          obtain ⟨⟨v, k, w, e, shape⟩, -⟩ := acts
          exact ⟨by rw [shape]; rfl, by simp only [Node.chan, bank]⟩
        · exact ⟨rfl, rfl⟩
      next =>
        rw [lightNotice_back (.inl rfl)]
        exact ⟨rfl, rfl⟩
      next =>
        rw [auxNotice_still (.inl rfl)]
        exact ⟨rfl, rfl⟩
      next => exact ⟨rfl, rfl⟩
    obtain ⟨samePump, sameLevel⟩ := told
    exact ⟨samePump.trans pump, sameLevel.trans commanded⟩
  · have still : tellOwner ch .retry t = t := by
      unfold tellOwner
      rcases nobody with o | o | o | o
      · rw [owner, o]
      · rw [owner, o]
      · rw [owner, o]
      · rw [owner, o]
        exact auxNotice_still (.inl rfl)
    rw [still]
    exact ⟨frame, fun j => by simp only [Node.auxState, aux]⟩
  · have cfg' : t.pumpCfg = some c := by rw [frame]; exact cfg
    have sound : isHeldOff (t.chan c.output) = false := by
      rw [output, isHeldOff, protection]
      rfl
    have told : tellOwner ch .retry t = pumpFile c (pumpTo .idle none t) := by
      unfold tellOwner
      rw [tell _ mine]
      refine (pumpCheck_some cfg').trans (pumpEvaluate_freed (by rw [pump]; exact state) (by rw [pump]; exact shed)
        (by rw [pump]; exact energy) (by rw [frame]; exact frost) (by rw [frame]; exact grey) (fun low => ?_) sound)
      rw [frame]
      exact fresh low
    have wants : demand c (pumpTo .idle none t) = demand c n := by
      have same : demand c (pumpTo .idle none t) = demand c t := rfl
      rw [same, demand, demand, Node.inputActive, Node.inputActive, accepted]
    have active : (pumpTo .idle none t).isActive = n.isActive := by rw [frame]; rfl
    have mode : (pumpTo .idle none t).pump.modeOn = n.pump.modeOn := by rw [← pump]; rfl
    rw [told]
    refine ⟨?_, fun on run asks idle => ?_, fun not_ => ?_⟩
    · obtain ⟨k, w, p, e, -⟩ := pumpFile_shape c (pumpTo .idle none t)
      rw [e]
      exact commanded
    · rw [pumpFile_files (by rw [active]; exact on) (by rw [mode]; exact run) (by rw [wants]; exact asks) rfl]
      refine ⟨rfl, ?_⟩
      have slot : ((pumpTo .idle none t).claim slotPump).state = .idle := by rw [frame]; exact idle
      have now : (pumpTo .idle none t).now = n.now := by rw [frame]; rfl
      have files := fileClaim_pump (n := pumpTo .idle none t) (draw := units c.draw) slot
      rw [now] at files
      exact files
    · have none_ : pumpFile c (pumpTo .idle none t) = pumpTo .idle none t := by
        refine if_neg fun all => ?_
        simp only [Bool.and_eq_true, active, mode, wants] at all
        obtain ⟨⟨⟨on, run⟩, asks⟩, -⟩ := all
        rcases not_ with h | h | h
        · rw [h] at on
          cases on
        · rw [h] at run
          cases run
        · rw [h] at asks
          cases asks
      rw [none_]
      exact ⟨rfl, rfl, by rw [frame]; rfl⟩
  · have cfg' : t.heaterCfg = some c := by rw [frame]; exact cfg
    have told : tellOwner ch .retry t = standbyCheck c t := by
      unfold tellOwner
      rw [tell _ mine]
      exact heaterTold c cfg' output
    have start : ({ n with bank := t.bank } : Node) = t := frame.symm
    rw [told, standbyCheck_bank, start]
    have state : t.heater.state = n.heater.state := by rw [frame]; rfl
    by_cases stands : n.heater.state = .standby
    · rw [if_pos stands]
    · rw [if_neg stands]
      exact standbyCheck_elsewhere (by rw [state]; exact stands)
  · have told : tellOwner ch .retry t =
        t.mapLamps fun _ c l => if c.output = ch then { l with heldOff := false } else l := by
      unfold tellOwner
      rw [tell _ mine]
      exact lightNotice_back (.inl rfl)
    have lamps : t.lamps = n.lamps := by rw [frame]; rfl
    rw [told]
    refine ⟨?_, fun i c l at_ => ?_⟩
    · rw [mapLamps_frame, frame]
      rfl
    · rw [mapLamps_channels, lamps, at_, Option.map_some]

/-! ## The rows -/

/-- The read-back of an output, clock by clock (R176). -/
theorem pinRead_eq (high on : Bool) (now : Nat) (c : Channel) : pinRead high on now c = { c with
    pinHigh := high
    lowOn := if on then (if high then none else some (c.lowOn.getD now)) else c.lowOn
    highOff := if on then c.highOff else if high then some (c.highOff.getD now) else none
    lowOff := if on then c.lowOff else if high then none else some (c.lowOff.getD now) } := by
  unfold pinRead
  cases on
  · cases high <;> rfl
  · cases high <;> rfl

section
variable {s : State} {dt p : Nat} {ch : Fin 16} (up : (s.found dt).up = true) (role : (s.found dt).role ch = .out)
include up role

theorem role_beq : ((s.found dt).role ch == .out) = true := by rw [role]; rfl

theorem outOn_of (on : isOn ((s.found dt).chan ch) = true) : outOn ch (s.found dt) = true := by
  unfold outOn
  rw [role_beq up role, on]
  rfl

theorem outOff_of (off : isOn ((s.found dt).chan ch) = false) : outOff ch (s.found dt) = true := by
  unfold outOff
  rw [role_beq up role, off]
  rfl

theorem outputTrip_acts (on : isOn ((s.found dt).chan ch) = true) (at_ : ((s.found dt).chan ch).tripClock = some p)
    (due : p + 10 ≤ (s.found dt).now) :
    exec (.outputTrip dt ch) s = .next (s.ended dt s.rx (tripAndTell ch (s.found dt))) := by
  change execOutputTrip dt ch s = _
  unfold execOutputTrip
  refine nodeEvent_found (fun n => by simp [outOn]) up ?_
  rw [Bool.and_eq_true, at_]
  exact ⟨outOn_of up role on, reached_iff.mpr due⟩

theorem readbackTrip_acts (on : isOn ((s.found dt).chan ch) = true) (at_ : ((s.found dt).chan ch).lowOn = some p)
    (due : p + ((s.found dt).chanCfg ch).time ≤ (s.found dt).now) :
    exec (.readbackTrip dt ch) s = .next (s.ended dt s.rx (tripAndTell ch (s.found dt))) := by
  change execReadbackTrip dt ch s = _
  unfold execReadbackTrip
  refine nodeEvent_found (fun n => by simp [outOn]) up ?_
  rw [Bool.and_eq_true, at_]
  exact ⟨outOn_of up role on, reached_iff.mpr due⟩

theorem outputCurrentChange_acts (mA : Nat) (on : isOn ((s.found dt).chan ch) = true) :
    exec (.outputCurrentChange dt ch mA) s = .next (s.ended dt s.rx ((s.found dt).setChan ch
      { (s.found dt).chan ch with
        tripClock :=
          if ((s.found dt).chanCfg ch).trip < mA then some (((s.found dt).chan ch).tripClock.getD (s.found dt).now)
          else none })) := by
  change execOutputCurrentChange dt ch mA s = _
  unfold execOutputCurrentChange
  exact nodeEvent_found (fun n => by simp [outOn]) up (outOn_of up role on)

theorem outputPinReadChange_acts (high : Bool) :
    exec (.outputPinReadChange dt ch high) s = .next (s.ended dt s.rx ((s.found dt).setChan ch
      (pinRead high (isOn ((s.found dt).chan ch)) (s.found dt).now ((s.found dt).chan ch)))) := by
  change execOutputPinReadChange dt ch high s = _
  unfold execOutputPinReadChange
  exact nodeEvent_found (fun n => by simp) up (role_beq up role)

theorem backfedMarkSet_acts (off : isOn ((s.found dt).chan ch) = false)
    (at_ : ((s.found dt).chan ch).highOff = some p) (due : p + ((s.found dt).chanCfg ch).time ≤ (s.found dt).now) :
    exec (.backfedMarkSet dt ch) s = .next (s.ended dt s.rx ((s.found dt).setChan ch
      { (s.found dt).chan ch with backfed := true })) := by
  change execBackfedMarkSet dt ch s = _
  unfold execBackfedMarkSet
  refine nodeEvent_found (fun n => by simp [outOff]) up ?_
  rw [Bool.and_eq_true, at_]
  exact ⟨outOff_of up role off, reached_iff.mpr due⟩

theorem backfedMarkClear_acts (off : isOn ((s.found dt).chan ch) = false)
    (at_ : ((s.found dt).chan ch).lowOff = some p) (due : p + ((s.found dt).chanCfg ch).time ≤ (s.found dt).now) :
    exec (.backfedMarkClear dt ch) s = .next (s.ended dt s.rx ((s.found dt).setChan ch
      { (s.found dt).chan ch with backfed := false })) := by
  change execBackfedMarkClear dt ch s = _
  unfold execBackfedMarkClear
  refine nodeEvent_found (fun n => by simp [outOff]) up ?_
  rw [Bool.and_eq_true, at_]
  exact ⟨outOff_of up role off, reached_iff.mpr due⟩

theorem retry_acts (tripped : ((s.found dt).chan ch).protection = .tripped)
    (at_ : ((s.found dt).chan ch).retry = some p) (due : p ≤ (s.found dt).now) :
    exec (.retry dt ch) s = .next (s.ended dt s.rx (tellOwner ch .retry (releaseOutput ch (s.found dt)))) := by
  change execRetry dt ch s = _
  unfold execRetry
  refine nodeEvent_found (body := fun n => tellOwner ch .retry (releaseOutput ch n)) (fun n => by simp) up ?_
  rw [Bool.and_eq_true, Bool.and_eq_true, at_, tripped]
  exact ⟨⟨role_beq up role, rfl⟩, reached_iff.mpr due⟩

theorem tripCountClear_acts (due : 30000 ≤ onTime ((s.found dt).chan ch) (s.found dt).now) :
    exec (.tripCountClear dt ch) s = .next (s.ended dt s.rx ((s.found dt).setChan ch
      { (s.found dt).chan ch with trips := 0 })) := by
  change execTripCountClear dt ch s = _
  unfold execTripCountClear
  refine nodeEvent_found (fun n => by simp) up ?_
  rw [Bool.and_eq_true, decide_eq_true_eq]
  exact ⟨role_beq up role, due⟩

end

/-- Settles O51: a trip by `output_trips`, with the heater's part in `heater_trips`; a retry by `output_retries`; each
other row writes the channel's record. -/
theorem outputRows : Obligations.OutputRows := by
  unfold Obligations.OutputRows
  rintro s dt n ch p rfl up role
  intro old trips
  have tripped : trips (tripAndTell ch (s.found dt)) := by
    obtain ⟨count, off, few, many, flag, total, frame, nobody, pump, aux, heater, lights⟩ :=
      output_trips (s.found dt) ch
    refine ⟨count, off, few, many, flag, total, frame, nobody, pump, aux, fun c mine cfg output => ?_, lights⟩
    obtain ⟨t, shape, temps, ignitions, held, is⟩ := heater c mine cfg output
    have rows := heater_trips output held
    have heaterT : t.heater = (s.found dt).heater := by rw [shape]
    have nowT : t.now = (s.found dt).now := by rw [shape]
    have claimsT : t.claims = (s.found dt).claims := by rw [shape]
    have viewT : t.view = (s.found dt).view := by rw [shape]
    have validT : t.validTemp c.exhaust = (s.found dt).validTemp c.exhaust := by
      simp only [Node.validTemp, temps]
    dsimp only [tripStops] at rows
    rw [← is, heaterT, nowT, claimsT, viewT, validT, ignitions] at rows
    exact rows
  refine ⟨fun on at_ due => ⟨_, outputTrip_acts up role on at_ due, tripped⟩,
    fun on at_ due => ⟨_, readbackTrip_acts up role on at_ due, tripped⟩,
    fun mA on => outputCurrentChange_acts up role mA on, fun high => ?_,
    fun off at_ due => backfedMarkSet_acts up role off at_ due,
    fun off at_ due => backfedMarkClear_acts up role off at_ due,
    fun held at_ due => ⟨_, retry_acts up role held at_ due, output_retries (s.found dt) ch⟩,
    fun due => tripCountClear_acts up role due⟩
  have acts := outputPinReadChange_acts up role high
  rw [pinRead_eq] at acts
  exact acts

end Sys2Proof.Machine
end

section
/-!
# Proofs: CHANNEL_RESET and AUX_OUTPUT (O52)
-/
namespace Sys2Proof.Machine

/-! ## The reset of an output (R175) -/

/-- The owners' records and the bank alone are written, and no flag or counter. -/
def OwnersAct (n m : Node) : Prop := ∃ b k w p h l, m = n.putOwners b k w p h l n.cmd

namespace OwnersAct
variable {n m o : Node}

theorem refl (n : Node) : OwnersAct n n := ⟨_, _, _, _, _, _, rfl⟩

theorem trans (h : OwnersAct n m) (h' : OwnersAct m o) : OwnersAct n o := by
  obtain ⟨b, k, w, p, e, l, rfl⟩ := h
  obtain ⟨b', k', w', p', e', l', rfl⟩ := h'
  exact ⟨b', k', w', p', e', l', rfl⟩

theorem setBank (b : Bank) : OwnersAct n (n.setBank b) := ⟨b, n.claims, n.ev.wait, n.pump, n.heater, n.lights, rfl⟩

theorem tellOwner_reset (i : Fin 16) : OwnersAct n (tellOwner i .reset n) := by
  have cmd := tellOwner_cmd (i := i) (k := .reset) (n := n) (.inr rfl)
  obtain ⟨⟨b, k, w, p, h, l, c, whole⟩, -⟩ := (BankActs.refl n).tellOwner i .reset
  rw [whole] at cmd
  have command : c = n.cmd := cmd
  exact ⟨b, k, w, p, h, l, by rw [whole, command]⟩

theorem resetOutput (i : Fin 16) : OwnersAct n (resetOutput i n) := by
  unfold Machine.resetOutput
  dsimp only
  split
  · exact (OwnersAct.setBank _).trans ((OwnersAct.setBank _).trans (tellOwner_reset i))
  · exact OwnersAct.setBank _

theorem foldl {α : Type} {f : Node → α → Node} (hf : ∀ n x, OwnersAct n (f n x)) (l : List α) :
    ∀ n, OwnersAct n (l.foldl f n) := by
  induction l with
  | nil => exact refl
  | cons x l ih => exact fun n => (hf n x).trans (ih (f n x))

end OwnersAct

section
variable {n : Node} {i : Fin 16}

theorem resetOutput_sound (sound : isHeldOff (n.chan i) = false) :
    resetOutput i n = n.setChan i { n.chan i with trips := 0 } := by
  unfold resetOutput
  rw [sound]
  rfl

theorem resetOutput_held (held : isHeldOff (n.chan i) = true) : resetOutput i n =
    tellOwner i .reset (releaseOutput i (n.setChan i { n.chan i with trips := 0 })) := by
  unfold resetOutput
  rw [held]
  rfl

/-- The protection of an output after its reset. -/
theorem resetOutput_guard (n : Node) (i : Fin 16) :
    ((resetOutput i n).chan i).trips = 0 ∧ ((resetOutput i n).chan i).protection = .normal := by
  cases held : isHeldOff (n.chan i) with
  | false =>
    rw [resetOutput_sound held, Node.chan_setChan_self]
    exact ⟨rfl, by simpa [isHeldOff] using held⟩
  | true =>
    rw [resetOutput_held held]
    obtain ⟨-, protection, -, trips, -⟩ := releaseOutput_spec i (n.setChan i { n.chan i with trips := 0 })
    rw [Node.chan_setChan_self] at trips
    obtain ⟨trips', protection', -⟩ := guard_parts (((BankActs.refl (releaseOutput i
      (n.setChan i { n.chan i with trips := 0 }))).tellOwner i .reset).guards i)
    exact ⟨trips'.trans trips, protection'.trans protection⟩

theorem resetOutput_other {j : Fin 16} (other : j ≠ i) : ((resetOutput i n).chan j).guard = (n.chan j).guard := by
  have start : (n.setChan i { n.chan i with trips := 0 }).chan j = n.chan j := by
    rw [Node.chan_setChan, if_neg (Ne.symm other)]
  cases held : isHeldOff (n.chan i) with
  | false => rw [resetOutput_sound held, start]
  | true =>
    rw [resetOutput_held held, ((BankActs.refl _).tellOwner i .reset).guards j]
    obtain ⟨-, -, -, -, -, -, others, -⟩ := releaseOutput_spec i (n.setChan i { n.chan i with trips := 0 })
    rw [others j other, start]

theorem resetOutput_cfg (n : Node) (i : Fin 16) : (resetOutput i n).cfg = n.cfg := by
  obtain ⟨b, k, w, p, h, l, e⟩ := OwnersAct.resetOutput (n := n) i
  rw [e]
  rfl

end

/-- Every output reset in turn. -/
def resetAll (n : Node) : Node := channels.foldl (fun n i => if n.role i = .out then resetOutput i n else n) n

theorem resetAll_acts (n : Node) : OwnersAct n (resetAll n) :=
  OwnersAct.foldl (fun n i => by
    split
    · exact OwnersAct.resetOutput i
    · exact OwnersAct.refl n) channels n

theorem role_of_cfg {n m : Node} (h : m.cfg = n.cfg) (i : Fin 16) : m.role i = n.role i := by
  simp only [Node.role, h]

theorem resetAll_guard {n : Node} {ch : Fin 16} (out : n.role ch = .out) :
    ((resetAll n).chan ch).trips = 0 ∧ ((resetAll n).chan ch).protection = .normal := by
  obtain ⟨m, same, turn⟩ := foldl_turn (fun n => (n.cfg, (n.chan ch).guard))
    (f := fun n i => if n.role i = .out then resetOutput i n else n) (x := ch)
    (fun n i other => by
      split
      · exact Prod.ext (resetOutput_cfg n i) (resetOutput_other (Ne.symm other))
      · rfl) channels_nodup (mem_channels ch) n
  have role : m.role ch = .out := (role_of_cfg (congrArg Prod.fst same) ch).trans out
  have last : ((resetAll n).chan ch).guard = ((resetOutput ch m).chan ch).guard := by
    have at_ := congrArg Prod.snd turn
    dsimp only at at_
    rw [if_pos role] at at_
    exact at_
  obtain ⟨trips, protection, -⟩ := guard_parts last
  obtain ⟨zero, normal⟩ := resetOutput_guard m ch
  exact ⟨trips.trans zero, protection.trans normal⟩

/-- An answered reset. -/
theorem carry_owners {k m : Node} {x : RxFrame} {b : CommandBody} {r : Result} (acts : OwnersAct k m) :
    let o := k.carry x b (give r m)
    o = { m with ev := { m.ev with reply := k.owing x b r 0 } } ∧
    o = { k with bank := o.bank, claims := o.claims, pump := o.pump, heater := o.heater, lights := o.lights
                 ev := o.ev } := by
  obtain ⟨b', q, w, p, h, l, e⟩ := acts
  have is : k.carry x b (give r m) = { m with ev := { m.ev with reply := k.owing x b r 0 } } :=
    carry_frame (o := give r m) (by rw [give_node, e]; rfl)
  dsimp only
  rw [is]
  exact ⟨rfl, by rw [e]; rfl⟩

/-! ## AUX outputs (R178) -/

/-- With one output pending and every other off, the wanted amount is that output's. -/
theorem auxWant_one {n : Node} {ch : Fin 16} (aux : isAuxOut n ch = true) (rest : ∀ j, n.auxState j = .off) :
    auxWant (n.setAux ch .pending) = units (n.chanCfg ch).draw := by
  have sum : auxDraw (· != .off) (n.setAux ch .pending) = (n.chanCfg ch).draw := by
    unfold auxDraw channels
    rw [← Fin.sum_univ_def]
    rw [Finset.sum_eq_single ch]
    · have here : isAuxOut (n.setAux ch .pending) ch = true := aux
      rw [here, auxState_setAux_self]
      rfl
    · intro j _ other
      rw [auxState_setAux, if_neg (Ne.symm other), rest j]
      simp
    · exact fun h => absurd (Finset.mem_univ ch) h
  rw [auxWant, sum]

theorem auxClaim_files {n : Node} {w : Nat} (idle : (n.claim slotAux).state = .idle) (want : auxWant n = w) (pos : 0 < w) :
    (auxClaim n).claim slotAux =
      { state := .waiting, cls := 1, wanted := w, stamp := n.now, deadline := some (n.now + 3000) } := by
  unfold auxClaim
  dsimp only
  rw [if_pos idle, want, if_pos pos]
  have files : fileClaim slotAux 1 w (some auxWait) n = n.putClaim slotAux
      { state := .waiting, cls := 1, wanted := w, stamp := n.now, deadline := some (n.now + 3000) } true :=
    (if_neg (not_not_intro idle)).trans (if_neg (by decide))
  rw [files, claim_putClaim_self]

/-- The bank, the claims and the mark for the wait service alone are written. -/
theorem auxOff_acts (i : Fin 16) (n : Node) : ∃ b q w, auxOff i n =
    { n with bank := b, claims := q, ev := { n.ev with wait := w } } := by
  rw [auxOff_eq]
  have start : ∃ b, auxCleared i n = n.setBank b := by
    unfold auxCleared
    split
    · exact ⟨_, rfl⟩
    · exact ⟨_, rfl⟩
  obtain ⟨b, start⟩ := start
  obtain ⟨c, w, e⟩ := auxClaim_puts (auxCleared i n)
  rw [e, start]
  exact ⟨_, _, _, rfl⟩

theorem auxOn_acts (i : Fin 16) (n : Node) : ∃ q w, auxOn i n =
    { n with bank := (n.setAux i .pending).bank, claims := q, ev := { n.ev with wait := w } } := by
  obtain ⟨c, w, e⟩ := auxClaim_puts (n.setAux i .pending)
  unfold auxOn
  rw [e]
  exact ⟨_, _, rfl⟩

theorem auxOff_reply (i : Fin 16) (n : Node) : (auxOff i n).ev.reply = n.ev.reply := by
  obtain ⟨b, q, w, e⟩ := auxOff_acts i n
  rw [e]

theorem auxOn_reply (i : Fin 16) (n : Node) : (auxOn i n).ev.reply = n.ev.reply := by
  obtain ⟨q, w, e⟩ := auxOn_acts i n
  rw [e]

theorem carry_give {k m : Node} {x : RxFrame} {b : CommandBody} (r : Result) (h : m.ev.reply = k.ev.reply) :
    k.carry x b (give r m) = { m with ev := { m.ev with reply := k.owing x b r 0 } } := carry_frame h

/-- Settles O52: CHANNEL_RESET by `resetOutput_guard` and `resetAll_guard`, AUX_OUTPUT by its checks in order. -/
theorem bankCommands : Obligations.BankCommands := by
  unfold Obligations.BankCommands
  rintro s dt x rest b k rfl
  dsimp only
  refine ⟨fun a h args => ?_, fun a v h args held => ?_⟩
  · have acts : exec (.channelReset dt) s = .next (s.ended dt (s.rx.without rest)
        ((s.admitted dt x).carry x b (channelResetAct x.source b (s.admitted dt x)))) :=
      (rfl : exec (.channelReset dt) s = commandEvent dt 0x31 (fun _ => true)
        (runCommand none (hasLength 1) channelResetAct) s).trans
        (commandEvent_carries h rfl (hasLength_eq_true (by rw [args]; rfl)) rfl)
    refine ⟨_, acts, ?_⟩
    clear acts
    generalize s.admitted dt x = k
    have first : argOf b 0 = a.toNat := argOf_single args
    have far (h : 17 ≤ a.toNat) : channelResetAct x.source b k = give .refusedRange k := by
      unfold channelResetAct
      dsimp only
      rw [first]
      exact if_pos (by omega)
    have all (h : a.toNat = 16) : channelResetAct x.source b k = give .done (resetAll k) := by
      unfold channelResetAct
      dsimp only
      rw [first, if_neg (by omega)]
      exact if_pos h
    have one (ch : Fin 16) (h : a.toNat = ch.val) : channelResetAct x.source b k =
        if k.role ch = .out then give .done (resetOutput ch k) else give .refusedState k := by
      have channel : Fin.ofNat 16 (argOf b 0) = ch := by
        rw [first, h]
        exact Fin.ext (Nat.mod_eq_of_lt ch.isLt)
      unfold channelResetAct
      dsimp only
      rw [channel, first, if_neg (by omega), if_neg (by omega)]
    refine ⟨?_, fun h => ?_, fun ch h no => ?_, fun ch h out => ?_, fun h => ?_⟩
    · by_cases h17 : 17 ≤ a.toNat
      · rw [far h17]
        exact (carry_owners (OwnersAct.refl k)).2
      · by_cases h16 : a.toNat = 16
        · rw [all h16]
          exact (carry_owners (resetAll_acts k)).2
        · rw [one ⟨a.toNat, by omega⟩ rfl]
          split
          · exact (carry_owners (OwnersAct.resetOutput _)).2
          · exact (carry_owners (OwnersAct.refl k)).2
    · rw [far h, carry_refused]
    · rw [one ch h, if_neg no, carry_refused]
    · rw [one ch h, if_pos out]
      obtain ⟨is, -⟩ := carry_owners (k := k) (x := x) (b := b) (r := .done) (OwnersAct.resetOutput (n := k) ch)
      obtain ⟨zero, normal⟩ := resetOutput_guard k ch
      rw [is]
      refine ⟨rfl, zero, normal, fun sound => ?_⟩
      rw [resetOutput_sound sound]
      exact ⟨Node.chan_setChan_self .., rfl⟩
    · rw [all h]
      obtain ⟨is, -⟩ := carry_owners (k := k) (x := x) (b := b) (r := .done) (resetAll_acts k)
      have sound (ch : Fin 16) (out : k.role ch = .out) := resetAll_guard out
      generalize resetAll k = m at is sound ⊢
      rw [is]
      exact ⟨rfl, sound⟩
  · have acts : exec (.auxOutput dt) s = .next (s.ended dt (s.rx.without rest)
        ((s.admitted dt x).carry x b (auxOutputAct x.source b (s.admitted dt x)))) :=
      (rfl : exec (.auxOutput dt) s = commandEvent dt 0x30 (fun _ => true)
        (runCommand (some .aux) (hasLength 2) auxOutputAct) s).trans
        (commandEvent_carries h rfl (hasLength_eq_true (by rw [args]; rfl)) held)
    refine ⟨_, acts, ?_⟩
    clear acts
    generalize s.admitted dt x = k
    have first : argOf b 0 = a.toNat := by rw [argOf, args]; rfl
    have second : argOf b 1 = v.toNat := by rw [argOf, args]; rfl
    have far (h : 16 ≤ a.toNat ∨ 2 ≤ v.toNat) : auxOutputAct x.source b k = give .refusedRange k := by
      unfold auxOutputAct
      dsimp only
      rw [first, second]
      refine if_pos ?_
      rcases h with h | h
      · exact .inl (by omega)
      · exact .inr (.inl (by omega))
    have one (ch : Fin 16) (h : a.toNat = ch.val) (low : v.toNat ≤ 1) : auxOutputAct x.source b k =
        if isAuxOut k ch = false then give .refusedRange k
        else if v.toNat = 0 then give .done (if k.auxState ch = .off then k else auxOff ch k)
        else if k.auxState ch ≠ .off then give .done k
        else if k.isActive = false ∨ isHeldOff (k.chan ch) = true then give .refusedState k
        else give .accepted (auxOn ch k) := by
      have channel : Fin.ofNat 16 a.toNat = ch := by
        rw [h]
        exact Fin.ext (Nat.mod_eq_of_lt ch.isLt)
      unfold auxOutputAct
      dsimp only
      rw [first, second, channel]
      have near : ¬ 15 < a.toNat := by omega
      have bit : ¬ 1 < v.toNat := by omega
      simp only [near, bit, false_or, Bool.not_eq_true', Bool.or_eq_true]
    have offs (ch : Fin 16) := carry_give (x := x) (b := b) .done (auxOff_reply ch k)
    have ons (ch : Fin 16) := carry_give (x := x) (b := b) .accepted (auxOn_reply ch k)
    have still (r : Result) : k.carry x b (give r k) =
        { k with bank := (k.carry x b (give r k)).bank, claims := (k.carry x b (give r k)).claims
                 ev := (k.carry x b (give r k)).ev } := by
      rw [carry_refused]
    refine ⟨?_, fun h => by rw [far h, carry_refused], fun ch h low => ⟨fun no => ?_, fun yes zero => ?_,
      fun yes isOne on => ?_, fun yes isOne off barred => ?_, fun yes isOne off active sound => ?_⟩⟩
    · by_cases out : 16 ≤ a.toNat ∨ 2 ≤ v.toNat
      · rw [far out]
        exact still _
      · rw [one ⟨a.toNat, by omega⟩ rfl (by omega)]
        repeat' split
        · exact still _
        · exact still _
        · rw [offs]
          obtain ⟨b', q, w, e⟩ := auxOff_acts ⟨a.toNat, by omega⟩ k
          rw [e]
        · exact still _
        · exact still _
        · rw [ons]
          obtain ⟨q, w, e⟩ := auxOn_acts ⟨a.toNat, by omega⟩ k
          rw [e]
    · rw [one ch h low, if_pos no, carry_refused]
    · rw [one ch h low, if_neg (by simp [yes]), if_pos (by rw [zero]; rfl)]
      by_cases off : k.auxState ch = .off
      · rw [if_pos off, carry_refused]
        exact ⟨rfl, off, fun _ => rfl, fun on => (by rw [off] at on; cases on), fun _ _ => rfl⟩
      · rw [if_neg off, offs]
        obtain ⟨now, others, level, -⟩ := auxOff_spec ch k
        generalize auxOff ch k = m at now others level ⊢
        exact ⟨rfl, now, fun e => absurd e off, level, others⟩
    · rw [one ch h low, if_neg (by simp [yes]), if_neg (by rw [isOne]; decide), if_pos on, carry_refused]
    · rw [one ch h low, if_neg (by simp [yes]), if_neg (by rw [isOne]; decide), if_neg (not_not_intro off),
        if_pos barred, carry_refused]
    · rw [one ch h low, if_neg (by simp [yes]), if_neg (by rw [isOne]; decide), if_neg (not_not_intro off),
        if_neg (by simp [active, sound]), ons]
      have states (j : Fin 16) : (auxOn ch k).auxState j = (k.setAux ch .pending).auxState j := auxState_auxClaim ..
      obtain ⟨q, w, e⟩ := auxOn_acts ch k
      refine ⟨rfl, (states ch).trans (auxState_setAux_self ..), by rw [e]; rfl, fun j other => ?_,
        fun idle rest pos => ?_⟩
      · exact (states j).trans (by rw [auxState_setAux, if_neg (Ne.symm other)])
      · have some_ : 0 < units (k.chanCfg ch).draw := by
          unfold units
          omega
        exact auxClaim_files (n := k.setAux ch .pending) idle (auxWant_one yes rest) some_

end Sys2Proof.Machine
end

section
/-!
# Proofs: what the delivery of an input leaves (R171)

The heater, the AUX states and every input's accepted state and filter stay as they are (`Hears`), whichever owner the
input is delivered to.
-/
namespace Sys2Proof.Machine

/-- What no delivery of an input changes. -/
def Node.ears (n : Node) : Heater × Vector AuxState 16 × Vector (Option Bool × Option Nat) 16 :=
  (n.heater, n.bank.aux, n.bank.chans.map fun c => (c.accepted, c.filter))

/-- `m` comes from `n` by operations that an owner performs at the delivery of an input. -/
def Hears (n m : Node) : Prop := m.ears = n.ears

theorem ears_chan (n : Node) (i : Fin 16) : ((n.chan i).accepted, (n.chan i).filter) = n.ears.2.2[i] := by
  simp [Node.ears, Node.chan]

namespace Hears
variable {a n m : Node}

theorem refl (n : Node) : Hears n n := rfl

theorem trans (h : Hears a n) (h' : Hears n m) : Hears a m := Eq.trans h' h

theorem heater (h : Hears n m) : m.heater = n.heater := congrArg (·.1) h

theorem aux (h : Hears n m) : m.bank.aux = n.bank.aux := congrArg (·.2.1) h

theorem inputs (h : Hears n m) (i : Fin 16) :
    (m.chan i).accepted = (n.chan i).accepted ∧ (m.chan i).filter = (n.chan i).filter := by
  have both : ((m.chan i).accepted, (m.chan i).filter) = ((n.chan i).accepted, (n.chan i).filter) := by
    rw [ears_chan, ears_chan, show m.ears = n.ears from h]
  exact Prod.mk.inj both

theorem moves (h : MoveActs n m) : Hears n m := by
  obtain ⟨v, k, x, y, w, rfl⟩ := h
  rfl

theorem putClaim {i k w} (h : Hears a n) : Hears a (n.putClaim i k w) := h

theorem fileClaim {i k w d} (h : Hears a n) : Hears a (fileClaim i k w d n) := by
  obtain ⟨k, w, e⟩ := fileClaim_puts i k w d n
  rw [e]
  exact h.putClaim

theorem releaseClaim {i} (h : Hears a n) : Hears a (releaseClaim i n) := by
  obtain ⟨k, w, e⟩ := releaseClaim_puts i n
  rw [e]
  exact h.putClaim

theorem convertClaim {i k} (h : Hears a n) : Hears a (convertClaim i k n) := by
  obtain ⟨k, w, e⟩ := convertClaim_puts i k n
  rw [e]
  exact h.putClaim

theorem ask (i : Fin 16) (level : Nat) (h : Hears a n) : Hears a (ask i level n) := by
  refine h.trans (Prod.ext rfl (Prod.ext rfl (Vector.ext fun j hj => ?_)))
  have kept : (((Machine.ask i level n).chan ⟨j, hj⟩).accepted, ((Machine.ask i level n).chan ⟨j, hj⟩).filter) =
      ((n.chan ⟨j, hj⟩).accepted, (n.chan ⟨j, hj⟩).filter) := by
    rw [chan_ask]
    split
    next same =>
      obtain ⟨-, -, -, -, -, accepted, -, -, filter, -⟩ :=
        settleOutput_keeps n.now (n.chan i) { n.chan i with commanded := level }
      rw [accepted, filter, same]
    next => rfl
  rw [ears_chan, ears_chan] at kept
  exact kept

theorem setUnit {u v} (h : Hears a n) : Hears a (n.setUnit u v) := by cases u <;> exact h

theorem setList {l} (h : Hears a n) : Hears a (n.setList l) := h

theorem setFlag {f} (h : Hears a n) : Hears a (setFlag f n) := h

theorem bump {k} (h : Hears a n) : Hears a (bump k n) := h

/-! ## The motion controller -/

theorem report {e o} (h : Hears a n) : Hears a (report e o n) := h.trans (moves (MoveActs.refl n).report)

theorem endEntry {e o} (h : Hears a n) : Hears a (endEntry e o n) := h.trans (moves (MoveActs.refl n).endEntry)

theorem fileNext {c u} (h : Hears a n) : Hears a (fileNext c u n) := h.trans (moves (MoveActs.refl n).fileNext)

theorem finishMove {c u r} (h : Hears a n) : Hears a (finishMove c u r n) := h.trans (moves (MoveActs.refl n).finishMove)

theorem redirect {c u k} (h : Hears a n) : Hears a (redirect c u k n) := h.trans (moves (MoveActs.refl n).redirect)

theorem startMove {u d} (h : Hears a n) : Hears a (startMove u d n) := h.trans (moves (MoveActs.refl n).startMove)

theorem bridgeCoast {u} (h : Hears a n) : Hears a (bridgeCoast u n) := by
  rw [bridgeCoast_eq]
  exact h.trans (moves (MoveActs.refl n).setBridge)

theorem foldl {α : Type} {f : Node → α → Node} (hf : ∀ n x, Hears n (f n x)) (l : List α) :
    ∀ n, Hears n (l.foldl f n) := by
  induction l with
  | nil => exact refl
  | cons x l ih => exact fun n => (hf n x).trans (ih (f n x))

theorem endAll {u o} (h : Hears a n) : Hears a (endAll u o n) :=
  h.trans (foldl (fun n _ => (refl n).endEntry) _ n)

theorem faultUnit {c u k o} (h : Hears a n) : Hears a (faultUnit c u k o n) := by
  have ended : Hears a (Machine.endAll u o (Machine.releaseClaim (slotUnit u)
      ((upToDate c u (Machine.bridgeCoast u n)).setUnit u (atRest .fault k
        ((upToDate c u (Machine.bridgeCoast u n)).unit u).pos ((upToDate c u (Machine.bridgeCoast u n)).unit u))))) :=
    h.bridgeCoast.setUnit.setUnit.releaseClaim.endAll
  unfold Machine.faultUnit
  dsimp only
  generalize Machine.endAll u o _ = m at ended ⊢
  repeat' split
  all_goals exact ended

theorem safetyRequest {u o} (h : Hears a n) : Hears a (safetyRequest u o n) := by
  unfold Machine.safetyRequest
  dsimp only
  repeat' split
  · exact h
  · exact h
  · exact h
  · exact h
  · exact h.report.setList.convertClaim.redirect
  · exact h.report.setList.convertClaim.startMove
  · exact h.setList.fileNext

theorem safetyCheck {u} (h : Hears a n) : Hears a (safetyCheck u n) := by
  unfold Machine.safetyCheck
  repeat' split
  · exact h
  · exact h.safetyRequest
  · exact h.safetyRequest
  · exact h

theorem stopInMove {c u} (h : Hears a n) : Hears a (stopInMove c u n) := by
  unfold Machine.stopInMove
  dsimp only
  repeat' split
  · exact h.faultUnit
  · exact h.bridgeCoast.finishMove
  · exact h.bridgeCoast.finishMove
  · exact h.setUnit
  · exact h.setUnit
  · exact h
  · exact h

theorem stopAtRest {c u} (h : Hears a n) : Hears a (stopAtRest c u n) := by
  have rests : Hears a (n.setUnit u (restFromStops c n (n.unit u))) := h.setUnit
  unfold Machine.stopAtRest
  dsimp only
  repeat' split
  · exact h
  · exact rests.releaseClaim.endAll.safetyCheck
  · exact rests.safetyCheck
  · exact rests.releaseClaim.endAll
  · exact rests

theorem endStopChange {u f} (h : Hears a n) : Hears a (endStopChange u f n) := by
  unfold Machine.endStopChange
  dsimp only
  split
  · exact h
  · split
    · split
      · exact h.stopInMove.safetyCheck
      · exact h.stopInMove
    · split
      · exact h.stopAtRest.safetyCheck
      · exact h.stopAtRest

theorem interlockEntries {c u} (h : Hears a n) : Hears a (interlockEntries c u n) :=
  fileNext (h.trans (foldl (fun n e => by
    dsimp only
    split
    · exact (refl n).releaseClaim.endEntry
    · exact (refl n).endEntry) _ n))

theorem interlockUnit {o u} (h : Hears a n) : Hears a (interlockUnit o u n) := by
  unfold Machine.interlockUnit
  dsimp only
  repeat' split
  · exact h
  · exact h.interlockEntries
  · exact h.interlockEntries.safetyRequest

/-! ## The other owners -/

theorem pumpStop {c : PumpCfg} (h : Hears a n) : Hears a (pumpStop c n) := by
  unfold Machine.pumpStop
  dsimp only
  split
  · exact (h.ask c.output 0).releaseClaim
  · exact h.releaseClaim

theorem setPump {v} (h : Hears a n) : Hears a (n.setPump v) := h

theorem pumpFile {c : PumpCfg} (h : Hears a n) : Hears a (pumpFile c n) := by
  unfold Machine.pumpFile
  split
  · exact h.fileClaim.setPump
  · exact h

theorem pumpBegin {c : PumpCfg} (h : Hears a n) : Hears a (pumpBegin c n) := by
  unfold Machine.pumpBegin
  repeat' split
  · exact h
  · exact h.pumpFile
  · exact h

theorem pumpEvaluate {c : PumpCfg} (h : Hears a n) : Hears a (pumpEvaluate c n) := by
  have told : Hears a (if n.view.shed < 2 then n.setPump { n.pump with toldShed := false } else n) := by
    split
    · exact h
    · exact h
  have low {m : Node} (h : Hears a m) : Hears a (pumpLow m) := by
    unfold pumpLow
    dsimp only
    split
    · exact h
    · exact h
  unfold Machine.pumpEvaluate
  dsimp only
  generalize (if n.view.shed < 2 then n.setPump { n.pump with toldShed := false } else n) = m at told ⊢
  repeat' split
  · exact told.pumpStop.setPump
  · exact low told
  · exact told.pumpStop.setPump
  · exact told
  · exact told
  · exact told
  · exact pumpFile (n := pumpTo .idle none m) told
  · exact told

theorem pumpDemand {c : PumpCfg} (h : Hears a n) : Hears a (pumpDemand c n) := by
  unfold Machine.pumpDemand
  dsimp only
  repeat' split
  · exact h.pumpBegin.pumpEvaluate
  · exact h.setPump.pumpStop.setPump.pumpEvaluate
  · exact h.setPump.pumpEvaluate

theorem contactChange {c f} (h : Hears a n) : Hears a (contactChange c f n) := by
  unfold Machine.contactChange
  repeat' split
  all_goals exact h

theorem courtesyCheck (h : Hears a n) : Hears a (courtesyCheck n) := by
  obtain ⟨k, e⟩ := courtesyCheck_sets n
  rw [e]
  exact h

theorem refreshTravel (h : Hears a n) : Hears a (refreshTravel n) := by
  unfold Machine.refreshTravel motionTravel
  dsimp only
  repeat' split
  · exact h
  · exact interlockUnit (interlockUnit (n := tanksTravel _ _) h)
  · exact h

theorem deliver {ch f} (h : Hears a n) : Hears a (deliver ch f n) := by
  unfold Machine.deliver
  repeat' split
  · exact h.pumpDemand
  · exact h
  · exact h
  · exact h.contactChange
  · exact h
  · exact h
  · exact h.endStopChange
  · exact h
  · exact h.endStopChange
  · exact h
  · exact courtesyCheck (n := switchChange ch n) h
  · exact h.refreshTravel
  · exact h

end Hears

/-- What else no delivery changes; the travel view is the lone part of the view that it can. -/
theorem deliver_keeps (ch : Fin 16) (first : Bool) (n : Node) :
    ∃ v, JobKeeps (n.setView v) (deliver ch first n) := by
  have same {m : Node} (h : JobKeeps n m) : ∃ v, JobKeeps (n.setView v) m := ⟨n.view, h⟩
  unfold deliver
  repeat' split
  · exact same (JobKeeps.refl n).pumpDemand
  · exact same (JobKeeps.refl n)
  · exact same (JobKeeps.refl n)
  · exact same (JobKeeps.refl n).contactChange
  · exact same (JobKeeps.refl n)
  · exact same (JobKeeps.refl n)
  · exact same (JobKeeps.refl n).endStopChange
  · exact same (JobKeeps.refl n)
  · exact same (JobKeeps.refl n).endStopChange
  · exact same (JobKeeps.refl n)
  · exact same (JobKeeps.refl n).switchChange.courtesyCheck
  · exact ⟨_, refreshTravel_keeps n⟩
  · exact same (JobKeeps.refl n)

end Sys2Proof.Machine
end

section
/-!
# Proofs: inputs and what their owners do (O49)
-/
namespace Sys2Proof.Machine

/-! ## Accepted states -/

/-- The node with the instant state of an input accepted (R171). -/
def accepting (ch : Fin 16) (n : Node) : Node :=
  n.setChan ch { n.chan ch with filter := none, accepted := some (n.chan ch).instant }

section
variable {n : Node} {ch : Fin 16}

theorem acceptInput_eq : acceptInput ch n = if (n.chan ch).accepted = some (n.chan ch).instant then accepting ch n
    else deliver ch (n.chan ch).accepted.isNone (accepting ch n) := rfl

theorem acceptInput_changed (changed : (n.chan ch).accepted ≠ some (n.chan ch).instant) :
    acceptInput ch n = deliver ch (n.chan ch).accepted.isNone (accepting ch n) := if_neg changed

theorem accepting_active : (accepting ch n).inputActive ch = (n.chan ch).instant := by
  unfold Node.inputActive accepting
  rw [Node.chan_setChan_self]
  cases (n.chan ch).instant <;> rfl

theorem accepting_other {j : Fin 16} (other : j ≠ ch) : (accepting ch n).inputActive j = n.inputActive j := by
  unfold Node.inputActive accepting
  rw [Node.chan_setChan, if_neg (Ne.symm other)]

theorem accepting_guard (j : Fin 16) : isHeldOff ((accepting ch n).chan j) = isHeldOff (n.chan j) := by
  unfold accepting
  rw [Node.chan_setChan]
  split
  next same => rw [← same]; rfl
  next => rfl

/-- What every delivery leaves of an accepted input. -/
theorem acceptInput_keeps (ch : Fin 16) (n : Node) : let m := acceptInput ch n
    (m.chan ch).accepted = some (n.chan ch).instant ∧ (m.chan ch).filter = none ∧
    m.now = n.now ∧ m.cfg = n.cfg ∧ m.state = n.state ∧ m.tx = n.tx ∧ m.pub = n.pub ∧ m.battery = n.battery ∧
    m.wind = n.wind ∧ m.heater = n.heater ∧ m.bank.temps = n.bank.temps ∧ m.bank.aux = n.bank.aux := by
  have here : (accepting ch n).chan ch = { n.chan ch with filter := none, accepted := some (n.chan ch).instant } :=
    Node.chan_setChan_self ..
  have hears : Hears (accepting ch n) (acceptInput ch n) := by
    rw [acceptInput_eq]
    split
    · exact Hears.refl _
    · exact (Hears.refl _).deliver
  have keeps : ∃ v, JobKeeps ((accepting ch n).setView v) (acceptInput ch n) := by
    rw [acceptInput_eq]
    split
    · exact ⟨n.view, JobKeeps.refl _⟩
    · exact deliver_keeps ..
  obtain ⟨accepted, filter⟩ := hears.inputs ch
  obtain ⟨v, keeps⟩ := keeps
  rw [here] at accepted filter
  exact ⟨accepted, filter, keeps.now, keeps.cfg, keeps.state, keeps.tx, keeps.pub, keeps.battery, keeps.wind,
    hears.heater, keeps.temps, hears.aux⟩

theorem accepting_owner : (accepting ch n).owner ch = n.owner ch := rfl

end

/-! ## The pump's switch (R89) -/

theorem pumpInhibit_none {c : PumpCfg} {n : Node} : pumpInhibit c n = none ↔ frostInhibit n = false ∧
    greyInhibit n = false ∧ (usedFresh n).any (·.1) = false ∧ isHeldOff (n.chan c.output) = false ∧
    (n.pump.toldShed && decide (2 ≤ n.view.shed)) = false ∧ n.pump.toldNoEnergy = false := by
  unfold pumpInhibit
  cases frostInhibit n
  · cases greyInhibit n
    · cases (usedFresh n).any (·.1)
      · cases isHeldOff (n.chan c.output)
        · cases (n.pump.toldShed && decide (2 ≤ n.view.shed))
          · cases n.pump.toldNoEnergy
            · simp
            · simp
          · simp
        · simp
      · simp
    · simp
  · simp

/-- What the inhibits read. -/
structure SameInhibits (c : PumpCfg) (n m : Node) : Prop where
  frost : frostInhibit m = frostInhibit n
  grey : greyInhibit m = greyInhibit n
  fresh : usedFresh m = usedFresh n
  output : isHeldOff (m.chan c.output) = isHeldOff (n.chan c.output)
  view : m.view = n.view
  shed : m.pump.toldShed = true → n.pump.toldShed = true
  energy : m.pump.toldNoEnergy = true → n.pump.toldNoEnergy = true

theorem SameInhibits.none {c : PumpCfg} {n m : Node} (h : SameInhibits c n m) (free : pumpInhibit c n = none) :
    pumpInhibit c m = none := by
  obtain ⟨frost, grey, fresh, output, view, shed, energy⟩ := h
  obtain ⟨a, b, d, e, f, g⟩ := pumpInhibit_none.mp free
  refine pumpInhibit_none.mpr ⟨frost.trans a, grey.trans b, by rw [fresh, d], output.trans e, ?_, ?_⟩
  · rw [view]
    cases told : m.pump.toldShed
    · rfl
    · rw [shed told] at f
      exact f
  · cases told : m.pump.toldNoEnergy
    · rfl
    · rw [energy told] at g
      exact g

section
variable {c : PumpCfg} {n : Node}

theorem pumpCleared_same : SameInhibits c n (if n.view.shed < 2 then n.setPump { n.pump with toldShed := false } else n) := by
  split
  · exact ⟨rfl, rfl, rfl, rfl, rfl, nofun, id⟩
  · exact ⟨rfl, rfl, rfl, rfl, rfl, id, id⟩

/-- An evaluation that finds no inhibit leaves a pump that waits or is idle. -/
theorem pumpEvaluate_calm (free : pumpInhibit c n = none) (state : n.pump.state = .waiting ∨ n.pump.state = .idle) :
    ∃ p, pumpEvaluate c n = n.setPump p ∧ p.state = n.pump.state := by
  have calm := pumpCleared_same.none free
  have shape : ∃ p : Pump, (if n.view.shed < 2 then n.setPump { n.pump with toldShed := false } else n) = n.setPump p ∧
      p.state = n.pump.state := by
    split
    · exact ⟨_, rfl, rfl⟩
    · exact ⟨n.pump, rfl, rfl⟩
  obtain ⟨p, told, same⟩ := shape
  unfold pumpEvaluate
  dsimp only
  rw [told] at calm ⊢
  rw [calm]
  refine ⟨p, ?_, same⟩
  have state' : (n.setPump p).pump.state = n.pump.state := same
  rw [state']
  rcases state with s | s
  · rw [s]
  · rw [s]

/-- The switch that turns on starts a wait, the one that turns off ends the run (R89). -/
theorem pumpDemand_turns (free : pumpInhibit c n = none) :
    (demand c n = true → n.pump.state = .idle → n.pump.modeOn = true → n.isActive = true →
      (n.claim slotPump).state = .idle →
      (pumpDemand c n).pump.state = .waiting ∧ ((pumpDemand c n).claim slotPump).state = .waiting) ∧
    (demand c n = false → n.pump.state = .running → (pumpDemand c n).pump.state = .idle ∧
      ((pumpDemand c n).claim slotPump).state = .idle ∧ ((pumpDemand c n).chan c.output).commanded = 0) := by
  refine ⟨fun asks idle on active slot => ?_, fun rests run => ?_⟩
  · have files : pumpBegin c n = pumpTo .waiting none (fileClaim slotPump 1 (units c.draw) (some pumpWait) n) := by
      rw [pumpBegin_idle idle on, free]
      exact pumpFile_files active on asks idle
    have claim := fileClaim_pump (draw := units c.draw) slot
    obtain ⟨k, w, e⟩ := fileClaim_puts slotPump 1 (units c.draw) (some pumpWait) n
    rw [e] at files claim
    have still : pumpInhibit c (pumpTo .waiting none (n.putClaim slotPump k w)) = none :=
      SameInhibits.none (n := n) ⟨rfl, rfl, rfl, rfl, rfl, id, id⟩ free
    obtain ⟨p, evaluates, state⟩ := pumpEvaluate_calm still (.inl rfl)
    have is : pumpDemand c n = (pumpTo .waiting none (n.putClaim slotPump k w)).setPump p := by
      unfold pumpDemand
      rw [if_pos asks, files, evaluates]
    rw [is]
    refine ⟨state, ?_⟩
    have kept : ((pumpTo .waiting none (n.putClaim slotPump k w)).setPump p).claim slotPump =
        (n.putClaim slotPump k w).claim slotPump := rfl
    rw [kept, claim]
  · obtain ⟨b, k, w, stops, slot, off⟩ := pumpStop_shape c (n.setPump { n.pump with toldNoEnergy := false })
    have output : (((n.setPump { n.pump with toldNoEnergy := false }).setBank b).chan c.output).commanded = 0 := off run
    have guard : isHeldOff (((n.setPump { n.pump with toldNoEnergy := false }).setBank b).chan c.output) =
        isHeldOff (n.chan c.output) := by
      have acts := (BankActs.refl (n.setPump { n.pump with toldNoEnergy := false })).pumpStop (c := c)
      rw [stops] at acts
      exact isHeldOff_guard (acts.guards c.output)
    have still : pumpInhibit c (pumpTo .idle none
        (((n.setPump { n.pump with toldNoEnergy := false }).setBank b).putClaim slotPump k w)) = none :=
      SameInhibits.none (n := n) ⟨rfl, rfl, rfl, guard, rfl, id, nofun⟩ free
    obtain ⟨p, evaluates, state⟩ := pumpEvaluate_calm still (.inr rfl)
    have is : pumpDemand c n = (pumpTo .idle none
        (((n.setPump { n.pump with toldNoEnergy := false }).setBank b).putClaim slotPump k w)).setPump p := by
      unfold pumpDemand
      rw [if_neg (by simp [rests])]
      dsimp only
      rw [if_pos (.inr run), stops, evaluates]
    rw [is]
    refine ⟨state, ?_, output⟩
    have kept : ((pumpTo .idle none (((n.setPump { n.pump with toldNoEnergy := false }).setBank b).putClaim slotPump k
        w)).setPump p).claim slotPump = (Node.putClaim _ slotPump k w).claim slotPump := rfl
    rw [kept, claim_putClaim_self, slot]

end

/-! ## The end stops (R133, R143) -/

section
variable {u : MotionUnit} {c : UnitCfg} {n : Node}

/-- With no view that asks for it, a check requests nothing. -/
theorem safetyCheck_free (free : interlocked u n = false) : safetyCheck u n = n := by
  unfold interlocked at free
  rw [Bool.or_eq_false_iff] at free
  obtain ⟨travel, wind⟩ := free
  have calm : ¬ (u = .awning ∧ n.view.wind = true) := by
    rintro ⟨rfl, on⟩
    rw [on] at wind
    exact absurd wind (by simp)
  unfold safetyCheck
  rw [travel, if_neg (by simp : ¬ false = true), if_neg calm, ite_self]

theorem interlocked_view {m : Node} (h : m.view = n.view) : interlocked u m = interlocked u n := by
  simp only [interlocked, h]

/-- A stop of a unit at rest gives the unit its state and position (R133). -/
theorem stopAtRest_rests (known : stopsKnown c n = true) (sound : (n.unit u).state ≠ .fault)
    (free : interlocked u n = false) : ∃ tag out,
    (stopAtRest c u n).view = n.view ∧
    (stopAtRest c u n).unit u = (if (restFromStops c n (n.unit u)).state = .fault then
      (restFromStops c n (n.unit u)).reports tag out else restFromStops c n (n.unit u)) := by
  obtain ⟨m, rests⟩ : ∃ m, restFromStops c n (n.unit u) = m := ⟨_, rfl⟩
  have puts : n.setUnit u m = n.putMove u { n.movePart u with unit := m } := by
    have e := putMove_setUnit n u (n.movePart u) m
    rwa [putMove_self] at e
  unfold stopAtRest
  rw [rests, puts]
  have test : ¬ ((n.unit u).state = .fault ∨ (!stopsKnown c n) = true) := by simp [sound, known]
  rw [if_neg test]
  dsimp only
  rw [unit_putMove]
  by_cases fault : m.state = .fault
  · obtain ⟨tag, out, ends⟩ := endAll_putMove u .conflict n
      (MovePart.released { n.movePart u with unit := m })
    refine ⟨tag, out, ?_⟩
    simp only [if_pos fault, releaseClaim_putMove, ends]
    rw [safetyCheck_free (by rw [interlocked_view (view_putMove ..)]; exact free), ite_self, view_putMove, unit_putMove,
      released_unit]
    exact ⟨rfl, rfl⟩
  · refine ⟨0, .none, ?_⟩
    simp only [if_neg fault]
    rw [safetyCheck_free (by rw [interlocked_view (view_putMove ..)]; exact free), ite_self, view_putMove, unit_putMove]
    exact ⟨rfl, rfl⟩

theorem endStopChange_rest {first : Bool} (cfg : n.unitCfg u = some c) (still : isMoving (n.unit u) = false)
    (free : interlocked u (stopAtRest c u n) = false) : endStopChange u first n = stopAtRest c u n := by
  unfold endStopChange
  rw [cfg]
  dsimp only
  rw [still, if_neg (by simp : ¬ false = true), safetyCheck_free free, ite_self]

/-- What a stop at rest leaves of the unit (R133). -/
theorem endStopChange_rests {first : Bool} (cfg : n.unitCfg u = some c) (known : stopsKnown c n = true)
    (still : isMoving (n.unit u) = false) (sound : (n.unit u).state ≠ .fault) (free : interlocked u n = false) :
    let m := endStopChange u first n
    (((m.unit u).state, (m.unit u).pos) = match extStop c n, retStop c n with
      | false, true => (.retracted, some 0)
      | true, false => (.extended, some 1000)
      | true, true => (.fault, (m.unit u).pos)
      | false, false =>
        if (n.unit u).state = .retracted ∨ (n.unit u).state = .extended then (.partway, none)
        else ((n.unit u).state, (n.unit u).pos)) ∧
    (extStop c n = true → retStop c n = true → (m.unit u).cause = .endStopConflict) := by
  obtain ⟨tag, out, view, unit⟩ := stopAtRest_rests known sound free
  dsimp only
  rw [endStopChange_rest cfg still (by rw [interlocked_view view]; exact free), unit]
  unfold restFromStops
  cases ext : extStop c n
  · cases ret : retStop c n
    · by_cases ends : (n.unit u).state = .retracted ∨ (n.unit u).state = .extended
      · simp [ends, atRest]
      · simp only [if_neg ends, if_neg sound]
        exact ⟨trivial, nofun⟩
    · simp [atRest]
  · cases ret : retStop c n
    · simp [atRest]
    · simp [atRest, MoveUnit.reports]

end

/-! ## The end of a move at its stop (R143) -/

section
variable {u : MotionUnit} {c : UnitCfg} {n : Node} {a : Action} {station tag : Nat}

/-- A move of a single command entry that finishes. -/
theorem finishMove_single {p : MovePart} (list : p.list = [⟨u, a, .command station tag, .active⟩])
    (rest : MoveUnit → MoveUnit) : finishMove c u rest (n.putMove u p) = n.putMove u
      { MovePart.released { p with unit := rest p.unit } with list := [], unit := (rest p.unit).reports tag .done } := by
  have entry : p.list.find? (fun e => e.unit == u && e.state == .active) =
      some ⟨u, a, .command station tag, .active⟩ := by simp [list]
  have ends := endEntry_putMove (u := u) (e := ⟨u, a, .command station tag, .active⟩) (front := []) (behind := [])
    (p := MovePart.released { p with unit := rest p.unit }) rfl rfl (by rw [released_list]; exact list) nofun .done n
  unfold finishMove
  simp only [unit_putMove, putMove_setUnit, releaseClaim_putMove, list_putMove, released_list, entry, ends]
  rw [fileNext_of_none (by simp)]
  simp only [List.nil_append, released_unit]

/-- The stop of an extension ends its move. -/
theorem endStopChange_extends (cfg : n.unitCfg u = some c) (ext : extStop c n = true) (ret : retStop c n = false)
    (state : (n.unit u).state = .extending) (dir : (n.unit u).dir = .extend)
    (list : n.motion.list = [⟨u, a, .command station tag, .active⟩]) (sound : (n.bridge u).state ≠ .fault) :
    let m := endStopChange u false n
    (m.unit u).state = .extended ∧ (m.unit u).pos = some 1000 ∧ (m.unit u).outcome = .done ∧ (m.unit u).tag = tag ∧
    (m.bridge u).state = .coast ∧ m.motion.list = [] ∧ (m.claim (slotUnit u)).state = .idle := by
  have moving : isMoving (n.unit u) = true := by simp [isMoving, isDriving, state]
  have coasts : bridgeCoast u n = n.putMove u { n.movePart u with bridge := coasting n.now (n.bridge u) } := by
    have e := putMove_setBridge n u (n.movePart u) (coasting n.now (n.bridge u))
    rw [putMove_self] at e
    rw [bridgeCoast_eq, e]
  have stops : stopInMove c u n =
      finishMove c u (atRest .extended .none (some 1000)) (bridgeCoast u n) := by
    unfold stopInMove
    simp only [ext, ret, dir, Bool.false_eq_true, and_false, if_false, and_self, if_true]
  have is : endStopChange u false n = stopInMove c u n := by
    unfold endStopChange
    rw [cfg]
    dsimp only
    rw [moving]
    simp
  dsimp only
  rw [is, stops, coasts, finishMove_single (by exact list)]
  simp only [unit_putMove, bridge_putMove, list_putMove, claim_putMove, released_bridge]
  exact ⟨rfl, rfl, rfl, rfl, coasting_state sound, trivial, released_idle _⟩

end

/-! ## Pins -/

theorem pinChange_same {n : Node} {ch : Fin 16} {level : PinLevel}
    (reads : readsFree (n.chanCfg ch) level = false)
    (same : instantState (n.chanCfg ch) level n.free = (n.chan ch).instant) : pinChange ch level n = n := by
  unfold pinChange
  dsimp only
  rw [reads]
  exact if_pos same

theorem pinChange_new {n : Node} {ch : Fin 16} {level : PinLevel}
    (reads : readsFree (n.chanCfg ch) level = false)
    (new : instantState (n.chanCfg ch) level n.free ≠ (n.chan ch).instant) :
    pinChange ch level n = n.setChan ch { n.chan ch with
      instant := instantState (n.chanCfg ch) level n.free
      filter := if n.role ch = .inp then some n.now else (n.chan ch).filter } := by
  have role : (n.chanCfg ch).role = n.role ch := by
    unfold Node.chanCfg Node.role
    cases n.cfg <;> rfl
  unfold pinChange
  dsimp only
  rw [reads, role]
  exact if_neg new

theorem pinChange_free {n : Node} {ch : Fin 16} {level : PinLevel} (reads : readsFree (n.chanCfg ch) level = true) :
    pinChange ch level n = if instantState (n.chanCfg ch) level n.free = (n.chan ch).instant
      then { n with free := n.free + 1 }
      else Node.setChan { n with free := n.free + 1 } ch { n.chan ch with
        instant := instantState (n.chanCfg ch) level n.free
        filter := if n.role ch = .inp then some n.now else (n.chan ch).filter } := by
  have role : (n.chanCfg ch).role = n.role ch := by
    unfold Node.chanCfg Node.role
    cases n.cfg <;> rfl
  unfold pinChange
  dsimp only
  rw [reads, role]
  rfl

end Sys2Proof.Machine
end

section
/-!
# Proofs: the rows of the inputs (O49)
-/
namespace Sys2Proof.Machine

section
variable {s : State} {dt : Nat} {ch : Fin 16} (up : (s.found dt).up = true)
include up

theorem inputChange_acts (level : PinLevel) (digital : (s.found dt).role ch = .inp ∨ (s.found dt).role ch = .pulse) :
    exec (.inputChange dt ch level) s = .next (s.ended dt s.rx (pinChange ch level (s.found dt))) := by
  change execInputChange dt ch level s = _
  unfold execInputChange
  refine nodeEvent_found (fun n => by simp [isDigital]) up ?_
  unfold isDigital
  rcases digital with role | role
  · rw [role]
    rfl
  · rw [role]
    rfl

theorem inputAccepted_acts {f : Nat} (role : (s.found dt).role ch = .inp)
    (at_ : ((s.found dt).chan ch).filter = some f) (due : f + ((s.found dt).chanCfg ch).time ≤ (s.found dt).now) :
    exec (.inputAccepted dt ch) s = .next (s.ended dt s.rx (acceptInput ch (s.found dt))) := by
  change execInputAccepted dt ch s = _
  unfold execInputAccepted
  refine nodeEvent_found (fun n => by simp [filterDone]) up ?_
  unfold filterDone
  rw [role, at_, Bool.and_eq_true]
  exact ⟨rfl, reached_iff.mpr due⟩

theorem pulseCounted_acts (us : Nat) (role : (s.found dt).role ch = .pulse) :
    exec (.pulseCounted dt ch us) s = .next (s.ended dt s.rx (countPulse ch us (s.found dt))) := by
  change execPulseCounted dt ch us s = _
  unfold execPulseCounted
  exact nodeEvent_found (fun n => by simp) up (by rw [role]; rfl)

theorem ainConversion_acts {d : Nat} (value : Int) (role : (s.found dt).role ch = .ain)
    (at_ : ((s.found dt).chan ch).due = some d) (due : d ≤ (s.found dt).now) :
    exec (.ainConversion dt ch value) s = .next (s.ended dt s.rx ((s.found dt).setChan ch { (s.found dt).chan ch with
      reading := some (ainReading ((s.found dt).chanCfg ch).volt value), due := some (d + 100) })) := by
  have acts : exec (.ainConversion dt ch value) s = .next (s.ended dt s.rx ((s.found dt).setChan ch
      { (s.found dt).chan ch with
        reading := some (ainReading ((s.found dt).chanCfg ch).volt value)
        due := later ((s.found dt).chan ch).due ainPeriod })) := by
    change execAinConversion dt ch value s = _
    unfold execAinConversion
    refine nodeEvent_found (fun n => by simp) up ?_
    rw [role, at_, Bool.and_eq_true]
    exact ⟨rfl, reached_iff.mpr due⟩
  rw [at_] at acts
  exact acts

end

/-! ## The owners -/

section
variable {n : Node} {ch : Fin 16}

theorem acceptInput_still (h : (n.chan ch).accepted = some (n.chan ch).instant ∨ n.owner ch = none ∨
    n.owner ch = some .aux) : acceptInput ch n = accepting ch n := by
  rw [acceptInput_eq]
  split
  · rfl
  next changed =>
    unfold deliver
    rw [accepting_owner]
    rcases h with h | h | h
    · exact absurd h changed
    · rw [h]
    · rw [h]

/-- The pump's switch is delivered (R89). -/
theorem acceptInput_pump {c : PumpCfg} (mine : n.owner ch = some .pump) (cfg : n.pumpCfg = some c) (switch : c.switch = ch)
    (changed : (n.chan ch).accepted ≠ some (n.chan ch).instant) (free : pumpInhibit c n = none) :
    ((n.chan ch).instant = true → n.pump.state = .idle → n.pump.modeOn = true → n.isActive = true →
      (n.claim slotPump).state = .idle →
      (acceptInput ch n).pump.state = .waiting ∧ ((acceptInput ch n).claim slotPump).state = .waiting) ∧
    ((n.chan ch).instant = false → n.pump.state = .running → (acceptInput ch n).pump.state = .idle ∧
      ((acceptInput ch n).claim slotPump).state = .idle ∧ ((acceptInput ch n).chan c.output).commanded = 0) := by
  have told : acceptInput ch n = pumpDemand c (accepting ch n) := by
    rw [acceptInput_changed changed]
    unfold deliver
    rw [accepting_owner, mine]
    have cfg' : (accepting ch n).pumpCfg = some c := cfg
    dsimp only
    rw [cfg']
    exact if_pos switch
  have calm : pumpInhibit c (accepting ch n) = none :=
    SameInhibits.none (n := n) ⟨rfl, rfl, rfl, accepting_guard _, rfl, id, id⟩ free
  have asks : demand c (accepting ch n) = (n.chan ch).instant := by
    rw [demand, switch, accepting_active]
  obtain ⟨on, off⟩ := pumpDemand_turns calm
  rw [asks] at on off
  rw [told]
  exact ⟨on, off⟩

/-- The closed contact is delivered (R104). -/
theorem acceptInput_frost {c : FrostCfg} (mine : n.owner ch = some .frost) (cfg : n.frostCfg = some c)
    (contact : c.contact = ch) (was : (n.chan ch).accepted = some true) (open_ : (n.chan ch).instant = false)
    (state : n.frost.state = .armed ∨ n.frost.state = .countdown ∨ n.frost.state = .disarmed) :
    acceptInput ch n = { accepting ch n with
      frost := { n.frost with state := .drained, countdown := none, moveEnd := none } } := by
  have inactive : (accepting ch n).inputActive c.contact = false := by
    rw [contact, accepting_active, open_]
  have told : acceptInput ch n = contactChange c false (accepting ch n) := by
    rw [acceptInput_changed (by rw [was, open_]; simp), was]
    unfold deliver
    rw [accepting_owner, mine]
    have cfg' : (accepting ch n).frostCfg = some c := cfg
    dsimp only
    rw [cfg']
    exact if_pos contact
  have frost : (accepting ch n).frost.state = n.frost.state := rfl
  rw [told, contactChange, if_neg (by simp : ¬ false = true), inactive, frost]
  rcases state with s | s | s
  · rw [s]
    rfl
  · rw [s]
    rfl
  · rw [s]
    rfl

/-- An end stop is delivered (R133, R143). -/
theorem acceptInput_stop {u : MotionUnit} {c : UnitCfg} (mine : n.owner ch = some (unitDuty u)) (cfg : n.unitCfg u = some c)
    (stop : c.ext = ch ∨ c.ret = ch) (changed : (n.chan ch).accepted ≠ some (n.chan ch).instant) :
    acceptInput ch n = endStopChange u (n.chan ch).accepted.isNone (accepting ch n) := by
  have cfg' : (accepting ch n).unitCfg u = some c := cfg
  have is : isStopOf u ch (accepting ch n) = true := by
    unfold isStopOf
    rw [cfg']
    simpa using stop
  rw [acceptInput_changed changed]
  unfold deliver
  rw [accepting_owner, mine]
  cases u with
  | awning => exact if_pos is
  | step => exact if_pos is

/-- A wall switch is delivered (R161). -/
theorem acceptInput_lights {i : Nat} {c : LightCfg} {l : Light} (mine : n.owner ch = some .lights)
    (at_ : n.lamps[i]? = some (c, l)) (switch : c.switch = some ch) (on : (n.chan ch).instant = true)
    (was : (n.chan ch).accepted ≠ some true) :
    (acceptInput ch n).lights.channels[i]? = some { l with press := .down n.now } := by
  have told : acceptInput ch n = courtesyCheck (switchChange ch (accepting ch n)) := by
    rw [acceptInput_changed (by rw [on]; exact was)]
    unfold deliver
    rw [accepting_owner, mine]
  obtain ⟨k, sets⟩ := courtesyCheck_sets (switchChange ch (accepting ch n))
  have channels : (acceptInput ch n).lights.channels = (switchChange ch (accepting ch n)).lights.channels := by
    rw [told, sets]
    rfl
  have at' : (accepting ch n).lamps[i]? = some (c, l) := at_
  have active : (accepting ch n).inputActive ch = true := accepting_active.trans on
  rw [channels, switchChange, mapLamps_channels, at', Option.map_some]
  dsimp only
  rw [if_pos switch, active]
  rfl

/-- The travel input is delivered (R44). -/
theorem acceptInput_travel (mine : n.owner ch = some .travel) (held : n.has .travel = true)
    (cfg : n.cfg.bind (·.travel) = some ch) (changed : (n.chan ch).accepted ≠ some (n.chan ch).instant) :
    (acceptInput ch n).view.travel = ((n.chan ch).instant || n.view.peers.any (·.travel)) := by
  have told : acceptInput ch n = refreshTravel (accepting ch n) := by
    rw [acceptInput_changed changed]
    unfold deliver
    rw [accepting_owner, mine]
  have own : (accepting ch n).ownTravel = (n.chan ch).instant := by
    have held' : (accepting ch n).has .travel = true := held
    have cfg' : (accepting ch n).cfg.bind (·.travel) = some ch := cfg
    unfold Node.ownTravel
    rw [held', cfg', Bool.true_and]
    exact accepting_active
  have view := (refreshTravel_keeps (accepting ch n)).view
  rw [told, view, own]
  rfl

end

/-- Settles O49: pins by `pinChange_new` and `pinChange_free`; an accepted state by what every delivery leaves
(`acceptInput_keeps`) and by its owner. -/
theorem inputRows : Obligations.InputRows := by
  unfold Obligations.InputRows
  rintro s dt n ch rfl up
  dsimp only
  refine ⟨fun level digital device => ?_, fun digital bare => ?_, fun f role at_ due => ?_, fun us role => ?_,
    fun d value role at_ due => ?_⟩
  · have bound : readsFree ((s.found dt).chanCfg ch) level = false := by
      rcases device with h | h
      · simp [readsFree, h]
      · simp [readsFree, h]
    have state : instantState ((s.found dt).chanCfg ch) level (s.found dt).free =
        xor (level == .high || (level == .floating && ((s.found dt).chanCfg ch).pull == .up))
          ((s.found dt).chanCfg ch).activeLow := by
      unfold instantState
      cases level with
      | low => rfl
      | high => rfl
      | floating =>
        cases pull : ((s.found dt).chanCfg ch).pull with
        | none => exact absurd bound (by simp [readsFree, pull])
        | up => rfl
        | down => rfl
    rw [← state, inputChange_acts up level digital]
    exact ⟨fun same => by rw [pinChange_same bound same], fun new => by rw [pinChange_new bound new]⟩
  · have free : readsFree ((s.found dt).chanCfg ch) .floating = true := by simp [readsFree, bare]
    refine ⟨instantState ((s.found dt).chanCfg ch) .floating (s.found dt).free, fun same => ?_, fun new => ?_⟩
    · rw [inputChange_acts up .floating digital, pinChange_free free, if_pos same]
    · rw [inputChange_acts up .floating digital, pinChange_free free, if_neg new]
  · refine ⟨_, inputAccepted_acts up role at_ due, ?_⟩
    generalize s.found dt = n
    obtain ⟨accepted, filter, now, cfg, state, tx, pub, battery, wind, heater, temps, aux⟩ := acceptInput_keeps ch n
    refine ⟨accepted, filter, now, cfg, state, tx, pub, battery, wind, heater, temps, aux, acceptInput_still,
      fun c mine cfg switch changed free => acceptInput_pump mine cfg switch changed free,
      fun c mine cfg contact was open_ state => acceptInput_frost mine cfg contact was open_ state,
      fun u c mine cfg stop changed => ?_, fun u c a st tag mine cfg ext apart on was ret extending dir list sound => ?_,
      fun i c l mine at_ switch on was => acceptInput_lights mine at_ switch on was,
      fun mine held cfg changed => acceptInput_travel mine held cfg changed⟩
    · have told := acceptInput_stop mine cfg stop changed
      have unit : (accepting ch n).unit u = n.unit u := by unfold accepting; simp
      refine ⟨told, fun known still sound free => ?_⟩
      have rests := endStopChange_rests (n := accepting ch n) (first := (n.chan ch).accepted.isNone) cfg known
        (by rw [unit]; exact still) (by rw [unit]; exact sound) free
      rw [unit] at rests
      rw [told]
      exact rests
    · have told := acceptInput_stop mine cfg (.inl ext) (by rw [was, on]; simp)
      rw [was] at told
      have unit : (accepting ch n).unit u = n.unit u := by unfold accepting; simp
      have bridge : (accepting ch n).bridge u = n.bridge u := by unfold accepting; simp
      have extended : extStop c (accepting ch n) = true := by rw [extStop, ext, accepting_active, on]
      have away : retStop c (accepting ch n) = false := by
        rw [retStop, accepting_other apart]
        exact ret
      rw [told]
      exact endStopChange_extends (n := accepting ch n) cfg extended away (by rw [unit]; exact extending)
        (by rw [unit]; exact dir) list (by rw [bridge]; exact sound)
  · exact pulseCounted_acts up us role
  · exact ainConversion_acts up value role at_ due

end Sys2Proof.Machine
end

section
/-! # The transmit queue: where a frame is placed (R187) -/

namespace Sys2Proof.Machine

theorem isAnswer_iff (e : TxEntry) : isAnswer e = true ↔ kindOf e.frame = .reply ∨ kindOf e.frame = .report := by
  simp [isAnswer]

theorem isAnswer_eq_false {e : TxEntry} (h : kindOf e.frame ≠ .reply ∧ kindOf e.frame ≠ .report) :
    isAnswer e = false := by simpa [isAnswer] using h

theorem dropYoungest_none {q : List TxEntry} (h : ∀ y ∈ q, isAnswer y = false) : dropYoungest q = none := by
  induction q with
  | nil => rfl
  | cons e rest ih =>
    obtain ⟨he, hr⟩ := List.forall_mem_cons.mp h
    simp [dropYoungest, ih hr, he]

/-- The youngest answer is the one with no answer behind it. -/
theorem dropYoungest_youngest {older younger : List TxEntry} {e : TxEntry} (he : isAnswer e = true)
    (h : ∀ y ∈ younger, isAnswer y = false) : dropYoungest (older ++ e :: younger) = some (older ++ younger) := by
  induction older with
  | nil => simp [dropYoungest, dropYoungest_none h, he]
  | cons x rest ih => simp [dropYoungest, ih]

theorem lastOfKind_eq_none {k : Kind} {q : List TxEntry} (h : ∀ y ∈ q, kindOf y.frame ≠ k) : lastOfKind k q = none := by
  simpa [lastOfKind] using h

theorem lastOfKind_only {k : Kind} {q : List TxEntry} {e : TxEntry}
    (h : (q.filter fun y => kindOf y.frame == k) = [e]) : lastOfKind k q = some e := by
  rw [lastOfKind, ← List.head?_filter, List.filter_reverse, h]
  rfl

theorem queuedPart_mem {t : Transmitter} {e : TxEntry} (h : e ∈ queuedPart t) : e ∈ t.queue := by
  rw [← Fit.locked_queued t]
  exact List.mem_append_right _ h

/-- With ids of their own, the entry that carries an entry's id is that entry. -/
theorem replaceFrame_eq {q : List TxEntry} {e : TxEntry} (f : Frame) (ids : (q.map (·.id)).Nodup) (he : e ∈ q) :
    replaceFrame e.id f q = q.map fun y => if y = e then { e with frame := f } else y := by
  refine List.map_congr_left fun y hy => ?_
  have same : y.id = e.id ↔ y = e := ⟨fun h => List.inj_on_of_nodup_map ids hy he h, fun h => h ▸ rfl⟩
  by_cases h : y = e
  · subst h; simp
  · rw [if_neg h, if_neg fun hi => h (same.mp hi)]

/-- Without one of the queued entries the queue is the locked entry with the others. -/
theorem erase_queued {t : Transmitter} {older younger : List TxEntry} {e : TxEntry} (ids : (t.queue.map (·.id)).Nodup)
    (h : queuedPart t = older ++ e :: younger) : t.queue.erase e = lockedPart t ++ (older ++ younger) := by
  have whole : t.queue = (lockedPart t ++ older) ++ e :: younger := by
    rw [List.append_assoc, ← h, Fit.locked_queued]
  have absent : e ∉ lockedPart t ++ older := by
    have := List.Nodup.of_map _ ids
    rw [whole, List.nodup_append] at this
    exact fun hm => this.2.2 e hm e List.mem_cons_self rfl
  rw [whole, List.erase_append_right _ absent, List.erase_cons_head, List.append_assoc]

section
variable {f : Frame} {n : Node}

theorem placePeriodic_replaces {e : TxEntry} (fits : queueFits n = true)
    (h : ((queuedPart n.tx).filter fun y => kindOf y.frame == kindOf f) = [e]) :
    placePeriodic f n = ({ n with tx := { n.tx with
      queue := n.tx.queue.map fun y => if y = e then { e with frame := f } else y } }, some e.id) := by
  have he : e ∈ queuedPart n.tx := List.mem_of_mem_filter (h ▸ List.mem_singleton_self e)
  unfold placePeriodic
  rw [lastOfKind_only h, ← replaceFrame_eq f ((Fit.queue_iff n).mp fits).2.1 (queuedPart_mem he)]
  rfl

theorem placePeriodic_appends (h : ∀ y ∈ queuedPart n.tx, kindOf y.frame ≠ kindOf f)
    (room : n.tx.queue.length < queueLimit) : placePeriodic f n = appendFrame n.tx.queue f n := by
  unfold placePeriodic
  rw [lastOfKind_eq_none h]
  exact if_pos room

theorem placePeriodic_pushes {e : TxEntry} {older younger : List TxEntry}
    (h : ∀ y ∈ queuedPart n.tx, kindOf y.frame ≠ kindOf f) (full : ¬ n.tx.queue.length < queueLimit)
    (queued : queuedPart n.tx = older ++ e :: younger) (he : isAnswer e = true)
    (hy : ∀ y ∈ younger, isAnswer y = false) :
    placePeriodic f n = appendFrame (lockedPart n.tx ++ (older ++ younger)) f (bump .queueDrops n) := by
  unfold placePeriodic
  rw [lastOfKind_eq_none h, queued, dropYoungest_youngest he hy]
  exact if_neg full

theorem placePeriodic_drops (h : ∀ y ∈ queuedPart n.tx, kindOf y.frame ≠ kindOf f)
    (full : ¬ n.tx.queue.length < queueLimit) (hy : ∀ y ∈ queuedPart n.tx, isAnswer y = false) :
    placePeriodic f n = (bump .queueDrops n, none) := by
  unfold placePeriodic
  rw [lastOfKind_eq_none h, dropYoungest_none hy]
  exact if_neg full

theorem placeAnswer_appends (room : n.tx.queue.length < queueLimit) :
    placeAnswer f n = appendFrame n.tx.queue f n := if_pos room

theorem placeAnswer_drops (full : ¬ n.tx.queue.length < queueLimit) :
    placeAnswer f n = (bump .queueDrops n, none) := if_neg full
end

/-- Settles O57: each way of placing a frame is one branch of `placePeriodic` or `placeAnswer`; that the entries have
ids of their own identifies the entry that is replaced or pushed out. -/
theorem framesArePlaced : Obligations.FramesArePlaced := by
  unfold Obligations.FramesArePlaced
  intro n f fits tx queued fresh
  obtain ⟨-, ids, -, -⟩ := (Fit.queue_iff n).mp fits
  have full (h : tx.queue.length = 6) : ¬ n.tx.queue.length < queueLimit := by
    rw [h]; decide
  refine ⟨fun e => placePeriodic_replaces fits, placePeriodic_appends, fun older e younger other six parts he hy => ?_,
    fun other six => placePeriodic_drops (fun y m => (other y m).1) (full six)
      fun y m => isAnswer_eq_false (other y m).2,
    placeAnswer_appends, fun six => placeAnswer_drops (full six)⟩
  rw [placePeriodic_pushes other (full six) parts ((isAnswer_iff e).mpr he) fun y m => isAnswer_eq_false (hy y m)]
  exact ⟨rfl, congrArg (· ++ [fresh]) (erase_queued ids parts).symm, counter_bump .queueDrops n⟩

end Sys2Proof.Machine
end

section
/-! # The receiver: faults of a character and the rows that take and discard frames (R183 to R186) -/

namespace Sys2Proof.Machine

/-- The 1s of a character below its first `k + 1` bits are its start bit and the `k` bits behind it. -/
theorem onesBelow_succ_eq (c : BitVec 11) (k : Nat) :
    onesBelow c (k + 1) = onesBelow c 1 + (List.range k).countP fun j => c.getLsbD (j + 1) := by
  induction k with
  | zero => rfl
  | succ k ih =>
    have last : onesBelow c (k + 1 + 1) = onesBelow c (k + 1) + (c.getLsbD (k + 1)).toNat := rfl
    rw [last, ih, List.range_succ, List.countP_append, List.countP_singleton]
    cases c.getLsbD (k + 1) <;> simp [Nat.add_assoc]

theorem parityError_iff (c : BitVec 11) :
    parityError c = true ↔ ((List.range 9).countP fun j => c.getLsbD (j + 1)) % 2 = 1 := by
  rw [parityError, onesBelow_succ_eq c 9, Nat.add_sub_cancel_left, beq_iff_eq]

theorem characterFault_iff (index : Nat) (c : BitVec 11) : characterFault index c = true ↔
    c.getLsbD 10 = false ∨ ((List.range 9).countP fun j => c.getLsbD (j + 1)) % 2 = 1 ∨
    (index = 0 ∧ c.extractLsb' 1 8 ≠ 0xC3#8) ∨ (index = 3 ∧ 28 < (c.extractLsb' 1 8).toNat) := by
  rw [← parityError_iff, characterFault]
  simp [framingError, charByte, or_assoc]

/-- An occasion that does not read the last temperature may be asked of the node that the event finds. -/
theorem event_found {dt : Nat} {occ : Receiver → Node → Bool} {body : Receiver → Node → Receiver × Node} {s : State}
    (reads : ∀ rx n, occ rx (keepTemp n) = occ rx n) (up : (s.found dt).up = true)
    (h : occ s.rx (s.found dt) = true) :
    event dt occ body s = .next (s.ended dt (body s.rx (s.found dt)).1 (body s.rx (s.found dt)).2) :=
  event_acts up ((reads _ _).symm.trans h)

section
variable {s : State} {dt : Nat} (up : (s.found dt).up = true)
include up

theorem frameBegin_acts {bits : Nat} (enough : 16 ≤ bits) (calm : (s.found dt).tx.attempt = .none) :
    exec (.frameBegin dt bits) s =
      .next (s.ended dt (beginFrame s.rx (s.found dt)).1 (beginFrame s.rx (s.found dt)).2) := by
  change execFrameBegin dt bits s = _
  unfold execFrameBegin
  refine event_found (fun _ n => by simp) up ?_
  simp [calm, idleBitsMin, enough]

theorem frameCharacterFault_acts {index : Nat} {c : BitVec 11} (fault : characterFault index c = true)
    (busy : s.rx.phase ≠ .idle) : exec (.frameCharacterFault dt index c) s = .next (s.ended dt
      (discardFrame .bad s.rx (s.found dt)).1 (discardFrame .bad s.rx (s.found dt)).2) := by
  change execFrameCharacterFault dt index c s = _
  unfold execFrameCharacterFault
  refine event_found (fun _ _ => rfl) up ?_
  simp [fault, busy]

theorem frameBroken_acts {us : Nat} (gap : 900 < us) (busy : s.rx.phase ≠ .idle) :
    exec (.frameBroken dt us) s = .next (s.ended dt
      (discardFrame .broken s.rx (s.found dt)).1 (discardFrame .broken s.rx (s.found dt)).2) := by
  change execFrameBroken dt us s = _
  unfold execFrameBroken
  refine event_found (fun _ _ => rfl) up ?_
  simp [gap, busy, breakUs]

theorem frameComplete_acts (bytes : List Byte) (busy : s.rx.phase ≠ .idle) :
    exec (.frameComplete dt bytes) s = .next (s.ended dt
      (completeFrame bytes s.rx (s.found dt)).1 (completeFrame bytes s.rx (s.found dt)).2) := by
  change execFrameComplete dt bytes s = _
  unfold execFrameComplete
  refine event_found (fun _ _ => rfl) up ?_
  simp [busy]
end

section
variable {rx : Receiver} (n : Node)

/-- A frame that fills a buffer is counted when it is discarded. -/
theorem discardFrame_filling (k : Counter) (h : rx.phase = .filling) :
    discardFrame k rx n = ({ rx with phase := .idle }, bump k n) := by
  rw [discardFrame, if_pos h]

/-- A frame that was being dropped is not. -/
theorem discardFrame_dropping (k : Counter) (h : rx.phase = .dropping) :
    discardFrame k rx n = ({ rx with phase := .idle }, n) := by
  rw [discardFrame, if_neg (by simp [h])]

theorem completeFrame_good {bytes : List Byte} {source : Nat} {f : Frame} (h : rx.phase = .filling)
    (good : readFrame bytes = some (source, f)) : completeFrame bytes rx n =
      ({ arrival := rx.arrival ++ [{ stamp := n.now, source := source, frame := f }], phase := .idle },
        bump .good n) := by
  simp [completeFrame, h, good]

theorem completeFrame_bad {bytes : List Byte} (bad : readFrame bytes = none) :
    completeFrame bytes rx n = discardFrame .bad rx n := by
  simp [completeFrame, bad]

theorem completeFrame_dropping {bytes : List Byte} (h : rx.phase = .dropping) :
    completeFrame bytes rx n = discardFrame .bad rx n := by
  simp [completeFrame, h]
end

/-- Settles O53: each row is one branch of `beginFrame`, `discardFrame` or `completeFrame`. -/
theorem receiveRows : Obligations.ReceiveRows := by
  unfold Obligations.ReceiveRows
  refine ⟨characterFault_iff, ?_⟩
  intro s dt n hn up rx idle
  subst hn
  have filling (h : rx.phase = .filling) : s.rx.phase ≠ .idle := fun e => nomatch h.symm.trans e
  have dropping (h : rx.phase = .dropping) : s.rx.phase ≠ .idle := fun e => nomatch h.symm.trans e
  refine ⟨fun bits enough calm => ⟨fun free => ?_, fun full => ?_⟩,
    fun index c fault => ⟨fun h => ?_, fun h => ?_⟩, fun us gap => ⟨fun h => ?_, fun h => ?_⟩,
    fun bytes => ⟨fun source f h good => ?_, fun h bad => ?_, fun h => ?_⟩⟩
  · rw [frameBegin_acts up enough calm, beginFrame, if_pos (show s.rx.arrival.length < bufferCount from free)]
  · rw [frameBegin_acts up enough calm, beginFrame, if_neg (show ¬ s.rx.arrival.length < bufferCount from not_lt.mpr full)]
  · rw [frameCharacterFault_acts up fault (filling h), discardFrame_filling _ _ h]
  · rw [frameCharacterFault_acts up fault (dropping h), discardFrame_dropping _ _ h]
  · rw [frameBroken_acts up gap (filling h), discardFrame_filling _ _ h]
  · rw [frameBroken_acts up gap (dropping h), discardFrame_dropping _ _ h]
  · rw [frameComplete_acts up bytes (filling h), completeFrame_good _ h good]
  · rw [frameComplete_acts up bytes (filling h), completeFrame_bad _ bad, discardFrame_filling _ _ h]
  · rw [frameComplete_acts up bytes (dropping h), completeFrame_dropping _ h, discardFrame_dropping _ _ h]

end Sys2Proof.Machine
end

section
/-!
# The transmitter (R53, R54, R188 to R191)

The transmitter's rows write the queue, the claims that a DRAW carries and the counters; what they do to the claims is
said once for the folds over the slots.
-/

namespace Sys2Proof.Machine

/-! ## The claims of a carrying frame -/

/-- A fold over the slots that writes each claim from itself and the time alone. -/
theorem foldl_claims {body : Node → Fin 8 → Node} (g : Nat → Claim → Claim)
    (h : ∀ n i, body n i = n.setClaim i (g n.now (n.claim i))) (n : Node) :
    slots.foldl body n = { n with claims := (slots.foldl body n).claims } ∧
    ∀ i, (slots.foldl body n).claim i = g n.now (n.claim i) := by
  have frame : ∀ (l : List (Fin 8)) (m : Node), l.foldl body m = { m with claims := (l.foldl body m).claims } := by
    intro l
    induction l with
    | nil => exact fun _ => rfl
    | cons i l ih =>
      intro m
      rw [List.foldl_cons, ih (body m i), h m i]
      rfl
  refine ⟨frame slots n, fun i => ?_⟩
  obtain ⟨m, same, turn⟩ := foldl_turn (fun m => (m.now, m.claim i)) (f := body) (x := i) (l := slots)
    (fun m j other => by rw [h m j]; exact Prod.ext rfl (Node.claim_setClaim_other _ _ other))
    (by rw [slots_eq]; exact List.nodup_finRange 8) (by rw [slots_eq]; exact List.mem_finRange i) n
  obtain ⟨now, claim⟩ := Prod.ext_iff.mp same
  rw [show (slots.foldl body n).claim i = (body m i).claim i from congrArg (·.2) turn, h m i,
    Node.claim_setClaim_self, show m.now = n.now from now, show m.claim i = n.claim i from claim]

/-- The claims are rewritten, and every claim of them that meets a test is the one made from it. -/
structure Rewrites (p : Claim → Prop) (f : Claim → Claim) (n m : Node) : Prop where
  frame : m = { n with claims := m.claims }
  meets : ∀ i, p (n.claim i) → m.claim i = f (n.claim i)
  other : ∀ i, ¬ p (n.claim i) → m.claim i = n.claim i

/-- A claim that is asked for in an entry and has no settle window yet (R53). -/
def travels (entry : Option Nat) (c : Claim) : Prop := c.state = .asking ∧ c.settle = none ∧ c.carrier = entry

theorem foldl_travels {entry : Option Nat} {body : Node → Fin 8 → Node} (g : Nat → Claim → Claim)
    (h : ∀ n i, body n i = if (n.claim i).state = .asking ∧ (n.claim i).settle = none ∧ (n.claim i).carrier = entry
      then n.setClaim i (g n.now (n.claim i)) else n) (n : Node) :
    Rewrites (travels entry) (g n.now) n (slots.foldl body n) := by
  obtain ⟨frame, claims⟩ := foldl_claims (body := body)
    (fun now c => if c.state = .asking ∧ c.settle = none ∧ c.carrier = entry then g now c else c)
    (fun n i => by
      rw [h n i]
      split
      · rfl
      · exact (putClaim_self n i).symm) n
  exact ⟨frame, fun i c => (claims i).trans (if_pos c), fun i c => (claims i).trans (if_neg c)⟩

theorem carrierSent_rewrites (entry : Nat) (n : Node) :
    Rewrites (travels (some entry)) (fun c => { c with settle := some (n.now + 80) }) n (carrierSent entry n) :=
  foldl_travels (fun now c => { c with settle := some (now + 80) }) (fun _ _ => rfl) n

theorem carrierGivenUp_rewrites (entry : Option Nat) (n : Node) :
    Rewrites (travels entry) backToWaiting n (carrierGivenUp entry n) :=
  foldl_travels (fun _ => backToWaiting) (fun _ _ => rfl) n

theorem carrierMoved_rewrites (entry new : Nat) (n : Node) :
    Rewrites (travels (some entry)) (fun c => { c with carrier := some new }) n (carrierMoved entry new n) :=
  foldl_travels (fun _ c => { c with carrier := some new }) (fun _ _ => rfl) n

/-! ## Counters -/

theorem ofNat_counterPlace (k : Counter) : Counter.ofNat (counterPlace k).val = k := by cases k <;> rfl

theorem counterPlace_injective {j k : Counter} (h : counterPlace j = counterPlace k) : j = k := by
  rw [← ofNat_counterPlace j, h, ofNat_counterPlace]

theorem counter_bump_ne {j k : Counter} (other : j ≠ k) (n : Node) : counter k (bump j n) = counter k n := by
  have apart : (counterPlace j).val ≠ (counterPlace k).val :=
    Fin.val_ne_of_ne fun h => other (counterPlace_injective h)
  simp only [counter, bump, Fin.getElem_fin, Vector.getElem_set_ne _ _ apart]

theorem counter_of_counters {n m : Node} (h : m.cmd.counters = n.cmd.counters) (k : Counter) :
    counter k m = counter k n := by
  rw [counter, counter, h]

/-! ## The link's parts of the node -/

/-- The node with its transmitter, its claims and its counters written. -/
def Node.putLink (n : Node) (t : Transmitter) (c : Vector Claim 8) (w : Vector Nat 12) : Node :=
  { n with tx := t, claims := c, cmd := { n.cmd with counters := w } }

theorem Rewrites.putLink {p : Claim → Prop} {f : Claim → Claim} {n m : Node} {t : Transmitter} {c : Vector Claim 8}
    {w : Vector Nat 12} (h : Rewrites p f (n.putLink t c w) m) : m = n.putLink t m.claims w := h.frame

/-! ## An attempt that has failed (R189, R190) -/

section
variable {e : TxEntry} {rest : List TxEntry} {n : Node} (head : n.tx.queue = e :: rest)
include head

theorem dropHead_eq : dropHead n = { n with tx := { n.tx with queue := rest, attempt := .none } } := by
  simp [dropHead, head, Node.setTx]

theorem failHead_gives (speaks : n.state ≠ some .silent) (last : 7 ≤ e.attempts) : failHead n = giveUp e n := by
  unfold failHead
  rw [head]
  simp only [speaks, if_false]
  exact if_pos (show 8 ≤ e.attempts + 1 by omega)

theorem failHead_requeues (speaks : n.state ≠ some .silent) (more : e.attempts < 7) :
    failHead n = requeueHead e rest n := by
  unfold failHead
  rw [head]
  simp only [speaks, if_false]
  exact if_neg (show ¬ 8 ≤ e.attempts + 1 by omega)

/-- An entry that is given up leaves the queue; the claims its DRAW carried return to WAITING. -/
theorem giveUp_spec : let m := giveUp e n
    Rewrites (fun c => kindOf e.frame = .draw ∧ travels (some e.id) c) backToWaiting
      (n.putLink { n.tx with queue := rest, attempt := .none } n.claims (bump .giveUps n).cmd.counters) m := by
  have base : bump .giveUps (dropHead n) =
      n.putLink { n.tx with queue := rest, attempt := .none } n.claims (bump .giveUps n).cmd.counters := by
    rw [dropHead_eq head]
    rfl
  unfold giveUp
  rw [base]
  by_cases draw : kindOf e.frame = .draw
  · obtain ⟨frame, meets, other⟩ := carrierGivenUp_rewrites (some e.id)
      (n.putLink { n.tx with queue := rest, attempt := .none } n.claims (bump .giveUps n).cmd.counters)
    simp only [draw, if_true, true_and]
    exact ⟨frame, meets, other⟩
  · simp only [draw, if_false, false_and]
    exact ⟨rfl, fun _ h => h.elim, fun _ _ => rfl⟩

/-- A sent entry leaves the queue and is counted; the claims its DRAW carried have their settle windows. -/
theorem frameSent_spec (speaks : n.state ≠ some .silent) : let m := frameSent n
    Rewrites (fun c => kindOf e.frame = .draw ∧ travels (some e.id) c) (fun c => { c with settle := some (n.now + 80) })
      (n.putLink { n.tx with queue := rest, attempt := .none } n.claims (bump .good n).cmd.counters) m := by
  have base : bump .good (dropHead n) =
      n.putLink { n.tx with queue := rest, attempt := .none } n.claims (bump .good n).cmd.counters := by
    rw [dropHead_eq head]
    rfl
  have same : (dropHead n).state = n.state := rfl
  unfold frameSent
  rw [head]
  simp only [same, speaks, if_false]
  rw [base]
  by_cases draw : kindOf e.frame = .draw
  · obtain ⟨frame, meets, other⟩ := carrierSent_rewrites e.id
      (n.putLink { n.tx with queue := rest, attempt := .none } n.claims (bump .good n).cmd.counters)
    simp only [draw, if_true, true_and]
    exact ⟨frame, meets, other⟩
  · simp only [draw, if_false, false_and]
    exact ⟨rfl, fun _ h => h.elim, fun _ _ => rfl⟩
end

/-- A newer frame of the periodic kind of an entry (R187). -/
def newerThan (e x : TxEntry) : Prop := isPeriodic (kindOf e.frame) = true ∧ kindOf x.frame = kindOf e.frame

theorem newerOf_none {e : TxEntry} {rest : List TxEntry} (h : ∀ x ∈ rest, ¬ newerThan e x) : newerOf e rest = none := by
  unfold newerOf
  split
  · rename_i periodic
    exact List.find?_eq_none.mpr fun x m same => h x m ⟨periodic, by simpa using same⟩
  · rfl

theorem newerOf_some {e x : TxEntry} {front behind : List TxEntry} (newer : newerThan e x)
    (first : ∀ y ∈ front, ¬ newerThan e y) : newerOf e (front ++ x :: behind) = some x := by
  obtain ⟨periodic, same⟩ := newer
  have unlike : front.find? (fun y => kindOf y.frame == kindOf e.frame) = none :=
    List.find?_eq_none.mpr fun y m h => first y m ⟨periodic, by simpa using h⟩
  rw [newerOf, if_pos periodic, List.find?_append, unlike, List.find?_cons_of_pos (by simpa using same)]
  rfl

theorem requeueHead_alone {e : TxEntry} {rest : List TxEntry} {n : Node} (h : ∀ x ∈ rest, ¬ newerThan e x) :
    requeueHead e rest n = { n with
      tx := { n.tx with queue := { e with attempts := e.attempts + 1 } :: rest, attempt := .none } } := by
  unfold requeueHead
  rw [newerOf_none h]
  rfl

/-- The newer frame takes the head's place, and the claims it carries go with it (log entry 40). -/
theorem requeueHead_newer {e x : TxEntry} {front behind : List TxEntry} {n : Node} (newer : newerThan e x)
    (first : ∀ y ∈ front, ¬ newerThan e y) (own : ∀ y ∈ front ++ behind, y.id ≠ x.id) :
    let t := { n.tx with queue := { e with frame := x.frame, attempts := e.attempts + 1 } :: (front ++ behind)
                         attempt := .none }
    Rewrites (travels (some x.id)) (fun c => { c with carrier := some e.id })
      (n.putLink t n.claims n.cmd.counters) (requeueHead e (front ++ x :: behind) n) := by
  have without : (front ++ x :: behind).filter (fun y => y.id != x.id) = front ++ behind := by
    rw [List.filter_append, List.filter_cons_of_neg (by simp), ← List.filter_append]
    exact List.filter_eq_self.mpr fun y m => by simpa using own y m
  have moved : requeueHead e (front ++ x :: behind) n = carrierMoved x.id e.id (n.setTx { n.tx with
      queue := { e with frame := x.frame, attempts := e.attempts + 1 } :: (front ++ x :: behind).filter (·.id != x.id)
      attempt := .none }) := by
    unfold requeueHead
    rw [newerOf_some newer first]
  rw [moved, without]
  exact carrierMoved_rewrites x.id e.id _

/-! ## The rows -/

theorem bitSent_head {e : TxEntry} {rest : List TxEntry} {n : Node} (head : n.tx.queue = e :: rest) (k : Nat) :
    bitSent k n = sentBit (frameBytes n.rankNumber e.frame) k := by
  rw [bitSent, head]
  rfl

theorem sendsNow_of {n : Node} {number : Nat} (named : n.station = some number)
    (h : n.isActive = true ∨ n.state = some .listening ∨ n.state = some .listenOnly) : sendsNow n = true := by
  rcases h with h | h | h <;> simp [sendsNow, h, named]

/-- A node that sends and has a free transmitter may start when the line has been idle for its own slot (R188). -/
theorem mayStart_iff {bits number t : Nat} {rx : Receiver} {n : Node} (queued : n.tx.queue ≠ [])
    (calm : n.tx.attempt = .none) (able : n.tx.jabber = false) (named : n.station = some number)
    (sends : n.isActive = true ∨ n.state = some .listening ∨ n.state = some .listenOnly)
    (since : n.tx.since = some t) : mayStart bits rx n = true ↔
      rx.phase = .idle ∧ 16 + 4 * number ≤ bits ∧ 16 + 4 * number ≤ (n.now - t) * 384 / 10 := by
  have idle : attemptIdle n = 16 + 4 * number := by
    rw [attemptIdle, Node.rankNumber, named]
    rfl
  simp [mayStart, queued, calm, able, sendsNow_of named sends, measured, since, idle, bitTimes, and_assoc]

section
variable {s : State} {dt : Nat}

theorem mayStart_keepTemp (bits : Nat) (rx : Receiver) (n : Node) : mayStart bits rx (keepTemp n) = mayStart bits rx n := by
  simp [mayStart, sendsNow, attemptIdle, measured, Node.isActive]
  rfl

theorem attemptStart_acts {bits : Nat} (up : (s.found dt).up = true) (may : mayStart bits s.rx (s.found dt) = true) :
    exec (.attemptStart dt bits) s =
      .next (s.ended dt s.rx { s.found dt with tx := { (s.found dt).tx with attempt := .sending } }) := by
  change execAttemptStart dt bits s = _
  unfold execAttemptStart
  exact event_found (mayStart_keepTemp bits) up may

theorem attemptStart_waits {bits : Nat} (may : mayStart bits s.rx (s.found dt) = false) :
    exec (.attemptStart dt bits) s = .next { s with node := advance dt s.node } := by
  change execAttemptStart dt bits s = _
  unfold execAttemptStart
  exact event_waits (.inr ((mayStart_keepTemp bits _ _).symm.trans may))

theorem collision_keepTemp (k : Nat) (read : Bool) (n : Node) :
    ((keepTemp n).tx.attempt == .sending && bitSent k (keepTemp n) == some true && !read) =
      (n.tx.attempt == .sending && bitSent k n == some true && !read) := by
  simp [bitSent]

theorem collision_acts {k : Nat} (up : (s.found dt).up = true) (sending : (s.found dt).tx.attempt = .sending)
    (recessive : bitSent k (s.found dt) = some true) : exec (.collision dt k false) s =
      .next (s.ended dt s.rx { s.found dt with tx := { (s.found dt).tx with attempt := .jamming } }) := by
  change execCollision dt k false s = _
  unfold execCollision
  refine nodeEvent_found (collision_keepTemp k false) up ?_
  simp [sending, recessive]

theorem collision_waits {k : Nat} {read : Bool} (h : bitSent k (s.found dt) ≠ some true ∨ read = true) :
    exec (.collision dt k read) s = .next { s with node := advance dt s.node } := by
  change execCollision dt k read s = _
  unfold execCollision
  refine nodeEvent_waits (collision_keepTemp k read) ?_
  rcases h with h | h <;> simp [h]

variable (up : (s.found dt).up = true)
include up

theorem jamEnd_acts {bits : Nat} (jamming : (s.found dt).tx.attempt = .jamming) (long : 22 ≤ bits) :
    exec (.jamEnd dt bits) s = .next (s.ended dt s.rx (failHead (bump .collisions (s.found dt)))) := by
  change execJamEnd dt bits s = _
  unfold execJamEnd
  refine nodeEvent_found (fun n => by simp) up ?_
  simp [jamming, jamBitTimes, long]

theorem frameSent_acts (sending : (s.found dt).tx.attempt = .sending) :
    exec (.frameSent dt) s = .next (s.ended dt s.rx (frameSent (s.found dt))) := by
  change execFrameSent dt s = _
  unfold execFrameSent
  refine nodeEvent_found (fun n => by simp) up ?_
  simp [sending]

theorem jabberCut_acts {us : Nat} (able : (s.found dt).tx.jabber = false) (long : 20000 ≤ us) :
    exec (.jabberCut dt us) s = .next (s.ended dt s.rx (cutDriver (s.found dt))) := by
  change execJabberCut dt us s = _
  unfold execJabberCut
  refine nodeEvent_found (fun n => by simp) up ?_
  simp [able, jabberUs, long]

theorem jabberRecoveryEnd_acts {ms : Nat} (cut : (s.found dt).tx.jabber = true) (long : 1000 ≤ ms) :
    exec (.jabberRecoveryEnd dt ms) s = .next (s.ended dt s.rx { s.found dt with
      tx := { (s.found dt).tx with jabber := false, since := some (s.found dt).now } }) := by
  change execJabberRecoveryEnd dt ms s = _
  unfold execJabberRecoveryEnd
  refine nodeEvent_found (fun n => by simp) up ?_
  simp [cut, recoveryTime, long]
end

/-! ## What the rows leave -/

/-- An attempt that has failed writes the transmitter, the claims and the counters alone. -/
theorem failHead_frame (n : Node) : ∃ t c w, failHead n = n.putLink t c w := by
  unfold failHead
  split
  · exact ⟨_, _, _, rfl⟩
  rename_i e rest head
  split
  · exact ⟨_, _, _, rfl⟩
  split
  · exact ⟨_, _, _, (giveUp_spec head).frame⟩
  · unfold requeueHead
    split
    · exact ⟨_, _, _, (carrierMoved_rewrites _ _ _).frame⟩
    · exact ⟨_, _, _, rfl⟩

theorem failHead_attempt (n : Node) : (failHead n).tx.attempt = .none := by
  unfold failHead
  split
  · rfl
  rename_i e rest head
  split
  · rfl
  split
  · rw [(giveUp_spec head).frame]
    rfl
  · unfold requeueHead
    split
    · rw [(carrierMoved_rewrites _ _ _).frame]
      rfl
    · rfl

/-- What the end of a jam leaves (R189, R190). -/
theorem jamEnd_spec {e : TxEntry} {rest : List TxEntry} {n : Node} (head : n.tx.queue = e :: rest)
    (speaks : n.state ≠ some .silent) : let m := failHead (bump .collisions n)
    (e.attempts < 7 → (∀ x ∈ rest, ¬ newerThan e x) →
      m.tx = { n.tx with queue := { e with attempts := e.attempts + 1 } :: rest, attempt := .none } ∧
      m.claims = n.claims ∧ m.cmd.counters = (bump .collisions n).cmd.counters) ∧
    (∀ x front behind, e.attempts < 7 → rest = front ++ x :: behind → newerThan e x →
      (∀ y ∈ front, ¬ newerThan e y) → (∀ y ∈ front ++ behind, y.id ≠ x.id) →
      Rewrites (travels (some x.id)) (fun c => { c with carrier := some e.id })
        (n.putLink { n.tx with queue := { e with frame := x.frame, attempts := e.attempts + 1 } :: (front ++ behind)
                               attempt := .none } n.claims (bump .collisions n).cmd.counters) m) ∧
    (7 ≤ e.attempts →
      Rewrites (fun c => kindOf e.frame = .draw ∧ travels (some e.id) c) backToWaiting
        (n.putLink { n.tx with queue := rest, attempt := .none } n.claims
          (bump .giveUps (bump .collisions n)).cmd.counters) m) := by
  have head' : (bump .collisions n).tx.queue = e :: rest := head
  refine ⟨fun more alone => ?_, fun x front behind more parts newer first own => ?_, fun last => ?_⟩
  · rw [failHead_requeues head' speaks more, requeueHead_alone alone]
    exact ⟨rfl, rfl, rfl⟩
  · subst parts
    rw [failHead_requeues head' speaks more]
    exact requeueHead_newer (n := bump .collisions n) newer first own
  · rw [failHead_gives head' speaks last]
    exact giveUp_spec head'

/-- With no attempt under way the cut leaves the queue alone. -/
theorem cutDriver_calm {n : Node} (calm : n.tx.attempt = .none) :
    cutDriver n = (bump .jabber (setFlag .jabber n)).setTx { n.tx with jabber := true } :=
  congrArg (fun k : Node => k.setTx { k.tx with jabber := true })
    (if_pos (show (bump .jabber (setFlag .jabber n)).tx.attempt = .none from calm))

/-- An attempt under way has failed at the cut. -/
theorem cutDriver_busy {n : Node} (busy : n.tx.attempt ≠ .none) : cutDriver n =
    (failHead (bump .jabber (setFlag .jabber n))).setTx
      { (failHead (bump .jabber (setFlag .jabber n))).tx with jabber := true } :=
  congrArg (fun k : Node => k.setTx { k.tx with jabber := true })
    (if_neg (show ¬ (bump .jabber (setFlag .jabber n)).tx.attempt = .none from busy))

theorem counter_setTx (k : Counter) (n : Node) (t : Transmitter) : counter k (n.setTx t) = counter k n := rfl

/-- What the cut of the driver leaves (R191). -/
theorem cutDriver_spec (n : Node) : let m := cutDriver n
    m.tx.jabber = true ∧ m.tx.attempt = .none ∧
    m = { n with tx := m.tx, claims := m.claims, cmd := { n.cmd with counters := m.cmd.counters, flags := m.cmd.flags } } ∧
    hasFlag .jabber m = true := by
  have flagged : hasFlag .jabber (setFlag .jabber n) = true := hasFlag_setFlag (.inl rfl)
  by_cases calm : n.tx.attempt = .none
  · rw [cutDriver_calm calm]
    exact ⟨rfl, calm, rfl, flagged⟩
  · have rests : (failHead (bump .jabber (setFlag .jabber n))).tx.attempt = .none := failHead_attempt _
    obtain ⟨t, c, w, frame⟩ := failHead_frame (bump .jabber (setFlag .jabber n))
    rw [cutDriver_busy calm]
    rw [frame] at rests ⊢
    exact ⟨rfl, rests, rfl, flagged⟩

theorem counter_carrierMoved (k : Counter) (a b : Nat) (n : Node) : counter k (carrierMoved a b n) = counter k n :=
  counter_of_counters (congrArg (·.cmd.counters) (carrierMoved_rewrites a b n).frame) k

/-- A failed attempt counts nothing but a frame that is given up. -/
theorem counter_failHead {k : Counter} (other : .giveUps ≠ k) (n : Node) : counter k (failHead n) = counter k n := by
  unfold failHead
  split
  · rfl
  rename_i e rest head
  split
  · rfl
  split
  · rw [(giveUp_spec head).frame]
    exact counter_bump_ne other n
  · unfold requeueHead
    split
    · rw [counter_carrierMoved, counter_setTx]
    · exact counter_setTx k n _

/-- The queue and the count that a cut leaves. -/
theorem cutDriver_counts (n : Node) : let m := cutDriver n
    counter .jabber m = min (counter .jabber n + 1) 65535 ∧ (n.tx.attempt = .none → m.tx.queue = n.tx.queue) ∧
    (∀ e rest, n.tx.attempt ≠ .none → n.tx.queue = e :: rest → n.state ≠ some .silent → e.attempts < 7 →
      (∀ x ∈ rest, ¬ newerThan e x) → m.tx.queue = { e with attempts := e.attempts + 1 } :: rest) := by
  have counted : counter .jabber (bump .jabber (setFlag .jabber n)) = min (counter .jabber n + 1) 65535 :=
    counter_bump .jabber (setFlag .jabber n)
  refine ⟨?_, fun calm => by rw [cutDriver_calm calm]; rfl, fun e rest busy head speaks more alone => ?_⟩
  · by_cases calm : n.tx.attempt = .none
    · rw [cutDriver_calm calm, counter_setTx, counted]
    · rw [cutDriver_busy calm, counter_setTx, counter_failHead (by decide), counted]
  · rw [cutDriver_busy busy, failHead_requeues (n := bump .jabber (setFlag .jabber n)) head speaks more,
      requeueHead_alone alone]
    rfl

/-- Settles O54: each row's occasion and body, and what a failed attempt, a sent frame and a cut of the driver leave. -/
theorem transmitRows : Obligations.TransmitRows := by
  unfold Obligations.TransmitRows
  intro s dt n hn up tx carried back waits newer
  subst hn
  refine ⟨fun bits number t queued calm able named sends since => ?_, fun k e rest sending head => ?_,
    fun bits e rest jamming long head speaks => ?_, fun e rest sending head speaks => ?_,
    fun us able long => ?_, fun ms cut long => jabberRecoveryEnd_acts up cut long⟩
  · have may := mayStart_iff (bits := bits) (rx := s.rx) queued calm able named sends since
    refine ⟨fun free line own => attemptStart_acts up (may.mpr ⟨free, line, own⟩), fun missing =>
      attemptStart_waits (Bool.eq_false_iff.mpr fun h => ?_)⟩
    obtain ⟨free, line, own⟩ := may.mp h
    rcases missing with h | h | h
    · exact h free
    · exact absurd line (not_le.mpr h)
    · exact absurd own (not_le.mpr h)
  · have place := bitSent_head head k
    exact ⟨fun recessive => collision_acts up sending (place.trans recessive),
      fun h => collision_waits (.inl (place ▸ h)), collision_waits (.inr rfl)⟩
  · obtain ⟨alone, merged, given⟩ := jamEnd_spec head speaks
    obtain ⟨t, c, w, frame⟩ := failHead_frame (bump .collisions (s.found dt))
    have kept : counter .giveUps (bump .collisions (s.found dt)) = counter .giveUps (s.found dt) :=
      counter_bump_ne (by decide) _
    refine ⟨_, jamEnd_acts up jamming long, by rw [frame]; rfl,
      (counter_failHead (by decide) _).trans (counter_bump .collisions _), fun more h => ?_,
      fun x front behind more parts newer first own => ?_, fun last => ?_⟩
    · obtain ⟨tx, claims, counters⟩ := alone more h
      exact ⟨tx, claims, (counter_of_counters counters .giveUps).trans kept⟩
    · obtain ⟨shape, meets, other⟩ := merged x front behind more parts newer first own
      refine ⟨by rw [shape]; rfl, ?_, fun i => ⟨fun h => meets i h.2, fun h draw => other i fun c => h ⟨draw, c⟩⟩⟩
      rw [shape]
      exact kept
    · obtain ⟨shape, meets, other⟩ := given last
      refine ⟨by rw [shape]; rfl, ?_, fun i => ⟨meets i, other i⟩⟩
      rw [shape, ← kept]
      exact counter_bump .giveUps (bump .collisions (s.found dt))
  · obtain ⟨shape, meets, other⟩ := frameSent_spec head speaks
    refine ⟨_, frameSent_acts up sending, by rw [shape]; rfl, ?_, fun i => ⟨meets i, other i⟩⟩
    rw [shape]
    exact counter_bump .good (s.found dt)
  · obtain ⟨jabber, attempt, frame, flagged⟩ := cutDriver_spec (s.found dt)
    obtain ⟨counted, calm, busy⟩ := cutDriver_counts (s.found dt)
    exact ⟨_, jabberCut_acts up able long, jabber, attempt, frame, flagged, counted, calm, busy⟩

end Sys2Proof.Machine
end

section
/-! # Characters, payload lengths and CHECK (R183, R184) -/

namespace Sys2Proof.Machine

/-! ## Characters (R183) -/

theorem onesBelow_eq_countP (c : BitVec 11) (k : Nat) : onesBelow c k = (List.range k).countP fun j => c.getLsbD j := by
  induction k with
  | zero => rfl
  | succ k ih =>
    have last : onesBelow c (k + 1) = onesBelow c k + (c.getLsbD k).toNat := rfl
    rw [last, ih, List.range_succ, List.countP_append, List.countP_singleton]
    cases c.getLsbD k <;> simp

/-- The bits of a byte that are 1, by count. -/
def onesOf (b : Byte) : Nat := (List.range 8).countP fun j => b.getLsbD j

theorem oddOnes_eq (b : Byte) : oddOnes b = (onesOf b % 2 == 1) := by
  have same : onesBelow (b.setWidth 11) 8 = onesOf b := by
    rw [onesBelow_eq_countP, onesOf]
    refine List.countP_congr fun j m => ?_
    have low : j < 8 := List.mem_range.mp m
    simp [BitVec.getLsbD_setWidth, show j < 11 by omega]
  rw [oddOnes, same]

/-- The bits of a character, from the start bit up. -/
theorem sentChar_getLsbD (b : Byte) (j : Nat) : (sentChar b).getLsbD j =
    if j < 1 then (0#1).getLsbD j else if j - 1 < 8 then b.getLsbD (j - 1)
    else if j - 1 - 8 < 1 then (BitVec.ofBool (oddOnes b)).getLsbD (j - 1 - 8) else (1#1).getLsbD (j - 1 - 8 - 1) := by
  have front : (1#1 ++ BitVec.ofBool (oddOnes b) ++ b : BitVec (1 + 1 + 8)).getLsbD (j - 1) =
      if j - 1 < 8 then b.getLsbD (j - 1) else if j - 1 - 8 < 1 then (BitVec.ofBool (oddOnes b)).getLsbD (j - 1 - 8)
      else (1#1).getLsbD (j - 1 - 8 - 1) := by
    rw [BitVec.getLsbD_append, BitVec.getLsbD_append]
  rw [← front]
  exact (BitVec.getLsbD_append (x := (1#1 ++ BitVec.ofBool (oddOnes b) ++ b : BitVec (1 + 1 + 8))) (y := 0#1)).trans
    (by split <;> simp [*])

theorem sentChar_start (b : Byte) : (sentChar b).getLsbD 0 = false := sentChar_getLsbD b 0

theorem sentChar_data (b : Byte) {j : Nat} (low : j < 8) : (sentChar b).getLsbD (j + 1) = b.getLsbD j := by
  rw [sentChar_getLsbD, if_neg (by omega), Nat.add_sub_cancel, if_pos low]

theorem sentChar_parity (b : Byte) : (sentChar b).getLsbD 9 = oddOnes b := by
  rw [sentChar_getLsbD]
  cases oddOnes b <;> rfl

theorem sentChar_stop (b : Byte) : (sentChar b).getLsbD 10 = true := sentChar_getLsbD b 10

theorem sentChar_even (b : Byte) : ((List.range 9).countP fun j => (sentChar b).getLsbD (j + 1)) % 2 = 0 := by
  have data : ((List.range 8).countP fun j => (sentChar b).getLsbD (j + 1)) = onesOf b :=
    List.countP_congr fun j m => by rw [sentChar_data b (List.mem_range.mp m)]
  rw [List.range_succ, List.countP_append, data, List.countP_singleton, sentChar_parity, oddOnes_eq]
  split
  · rename_i odd
    have := beq_iff_eq.mp odd
    omega
  · rename_i even
    have : ¬ onesOf b % 2 = 1 := by simpa using even
    omega

theorem charByte_sentChar (b : Byte) : charByte (sentChar b) = b := by
  refine BitVec.eq_of_getLsbD_eq fun j low => ?_
  rw [charByte, BitVec.getLsbD_extractLsb', Nat.add_comm 1 j, sentChar_data b low]
  simp [low]

theorem sentBit_at (bytes : List Byte) {i j : Nat} (low : j < 11) :
    sentBit bytes (11 * i + j) = bytes[i]?.map fun b => (sentChar b).getLsbD j := by
  rw [sentBit, show (11 * i + j) / 11 = i by omega, show (11 * i + j) % 11 = j by omega]

/-! ## Payload lengths (section 12.3) -/

theorem length_flatMap_const {α : Type} {f : α → List Byte} {w : Nat} (h : ∀ x, (f x).length = w) (l : List α) :
    (l.flatMap f).length = w * l.length := by
  induction l with
  | nil => rfl
  | cons x l ih => rw [List.flatMap_cons, List.length_append, h x, ih, List.length_cons, Nat.mul_succ, Nat.add_comm]

theorem length_draw (claims : List DrawClaim) : (payload (.draw claims)).length = 1 + 3 * claims.length := by
  rw [payload, List.length_cons, length_flatMap_const (w := 3) (fun _ => rfl), Nat.add_comm]

/-- The bytes of the frost part of a TANKS frame. -/
def frostBytes : Option (Nat × Option Int) → List Byte
  | some (state, temp) => byte state :: tempWord temp
  | none => []

/-- The bytes of the wind part of a MOTION frame. -/
def windBytes : Option Nat → List Byte
  | some speed => word speed
  | none => []

theorem payload_tanks (tanks : List TankBody) (frost : Option (Nat × Option Int)) : payload (.tanks tanks frost) =
    withSpare .tanks 0x7C (tanks.length + bit 7 frost.isSome) :: (tanks.flatMap tankBytes ++ frostBytes frost) := by
  cases frost <;> rfl

theorem payload_motion (units : List UnitBody) (wind : Option Nat) : payload (.motion units wind) =
    withSpare .motion 0x7C (units.length + bit 7 wind.isSome) :: (units.flatMap unitBytes ++ windBytes wind) := by
  cases wind <;> rfl

theorem length_tanks (tanks : List TankBody) (frost : Option (Nat × Option Int)) :
    (payload (.tanks tanks frost)).length = 1 + 3 * tanks.length + if frost.isSome then 3 else 0 := by
  rw [payload_tanks, List.length_cons, List.length_append, length_flatMap_const (w := 3) (fun _ => rfl)]
  cases frost
  · simp [frostBytes]; omega
  · simp [frostBytes, tempWord, signedWord, word]; omega

theorem length_motion (units : List UnitBody) (wind : Option Nat) :
    (payload (.motion units wind)).length = 1 + 6 * units.length + if wind.isSome then 2 else 0 := by
  rw [payload_motion, List.length_cons, List.length_append, length_flatMap_const (w := 6) (fun _ => rfl)]
  cases wind
  · simp [windBytes]; omega
  · simp [windBytes, word]; omega

theorem length_lights (channels : List LightBody) :
    (payload (.lights channels)).length = 1 + 2 * channels.length := by
  rw [payload, List.length_cons, length_flatMap_const (w := 2) (fun _ => rfl), Nat.add_comm]

theorem length_command (b : CommandBody) : (payload (.command b)).length = 3 + b.args.length := by
  rw [payload, List.length_append]
  rfl

theorem length_quantities (start count : Nat) (values : List Int) :
    (payload (.report (.quantities start count values))).length = 3 + 4 * values.length := by
  rw [payload, reportBytes, List.length_append, length_flatMap_const (w := 4) (fun _ => rfl)]
  rfl

theorem length_counters (start count : Nat) (values : List Nat) :
    (payload (.report (.counters start count values))).length = 3 + 2 * values.length := by
  rw [payload, reportBytes, List.length_append, length_flatMap_const (w := 2) (fun _ => rfl)]
  rfl

/-- No payload is longer than LENGTH may say (R184). -/
theorem length_payload_le {f : Frame} (fits : fitsPayload f = true) : (payload f).length ≤ 28 := by
  cases f with
  | presence b => exact Nat.le_of_ble_eq_true rfl
  | draw claims =>
    simp only [fitsPayload, Bool.and_eq_true, decide_eq_true_eq] at fits
    rw [length_draw]
    omega
  | allowance b => exact Nat.le_of_ble_eq_true rfl
  | tanks tanks frost =>
    simp only [fitsPayload, Bool.and_eq_true, decide_eq_true_eq] at fits
    rw [length_tanks]
    split <;> omega
  | climate b => exact Nat.le_of_ble_eq_true rfl
  | motion units wind =>
    simp only [fitsPayload, Bool.and_eq_true, decide_eq_true_eq] at fits
    rw [length_motion]
    split <;> omega
  | lights channels =>
    simp only [fitsPayload, Bool.and_eq_true, decide_eq_true_eq] at fits
    rw [length_lights]
    omega
  | command b =>
    simp only [fitsPayload, Bool.and_eq_true, decide_eq_true_eq] at fits
    rw [length_command]
    omega
  | reply b => exact Nat.le_of_ble_eq_true rfl
  | report b =>
    cases b with
    | quantities start count values =>
      simp only [fitsPayload, Bool.and_eq_true, decide_eq_true_eq] at fits
      rw [length_quantities]
      omega
    | counters start count values =>
      simp only [fitsPayload, Bool.and_eq_true, decide_eq_true_eq] at fits
      rw [length_counters]
      omega
    | flags start count flags => exact Nat.le_of_ble_eq_true rfl

/-! ## CHECK (R184) -/

theorem byte_toNat (v : Nat) : (byte v).toNat = v % 256 := BitVec.toNat_ofNat v 8

theorem kindCode_lt (k : Kind) : kindCode k < 256 := by cases k <;> decide

theorem length_frameBytes (source : Nat) (f : Frame) : (frameBytes source f).length = (payload f).length + 5 := by
  simp [frameBytes, frameBody]

theorem byteSum_append (p q : List Byte) : byteSum (p ++ q) = byteSum p + byteSum q := by
  simp [byteSum]

section
variable {source : Nat} {f : Frame} (named : source ≤ 14) (fits : fitsPayload f = true)
include named fits

theorem byteSum_frameBody : byteSum (frameBody source f) =
    source + kindCode (kindOf f) + (payload f).length + ((payload f).map BitVec.toNat).sum := by
  have short := length_payload_le fits
  have code := kindCode_lt (kindOf f)
  simp only [byteSum, frameBody, List.map_append, List.map_cons, List.map_nil, List.sum_append, List.sum_cons,
    List.sum_nil, byte_toNat]
  omega

/-- CHECK makes the sum 0x5C. -/
theorem byteSum_frameBytes : byteSum ((frameBytes source f).drop 1) % 256 = 0x5C := by
  have whole : (frameBytes source f).drop 1 = frameBody source f ++ [checkByte (frameBody source f)] := rfl
  have check : byteSum [checkByte (frameBody source f)] = (0x5C + 256 - byteSum (frameBody source f) % 256) % 256 := by
    simp [byteSum, checkByte, byte_toNat]
  rw [whole, byteSum_append, check]
  omega

theorem map_frameBytes : let sum := byteSum (frameBody source f) % 256
    (frameBytes source f).map BitVec.toNat = [0xC3, source, kindCode (kindOf f), (payload f).length] ++
      (payload f).map BitVec.toNat ++ [(0x5C + 256 - sum) % 256] := by
  have short := length_payload_le fits
  have code := kindCode_lt (kindOf f)
  simp only [frameBytes, frameBody, checkByte, List.map_append, List.map_cons, List.map_nil, byte_toNat,
    List.cons_append, List.nil_append, Nat.mod_eq_of_lt (show source < 256 by omega), Nat.mod_eq_of_lt code,
    Nat.mod_eq_of_lt (show (payload f).length < 256 by omega)]
  rfl
end

/-- Settles O55: the bytes of a frame one by one, CHECK by the sum of the rest, and the bits of a character. -/
theorem checkMakesTheSum : Obligations.CheckMakesTheSum := by
  unfold Obligations.CheckMakesTheSum
  refine ⟨fun source f _ named fits => ?_, by decide, rfl, fun b => ?_, fun bytes i j low => ⟨fun b at_ => ?_, fun past => ?_⟩⟩
  · have sum := byteSum_frameBody named fits
    refine ⟨length_payload_le fits, length_frameBytes source f, ?_, byteSum_frameBytes named fits⟩
    have bytes := map_frameBytes named fits
    rw [sum] at bytes
    exact bytes
  · refine ⟨sentChar_start b, fun j => sentChar_data b, sentChar_even b, sentChar_stop b, charByte_sentChar b, ?_, ?_⟩
    · rw [framingError, sentChar_stop]
      rfl
    · have even := sentChar_even b
      exact Bool.eq_false_iff.mpr fun odd => by
        have := (parityError_iff _).mp odd
        omega
  · rw [sentBit_at bytes low, at_]
    rfl
  · rw [sentBit_at bytes low, List.getElem?_eq_none past]
    rfl

end Sys2Proof.Machine
end

section
/-!
# Frames read back (section 12.2, section 12.3)

A field is read back from its bytes by what the bytes are from its place on; the items of a list are read back one by
one, since all of a kind are equally long.
-/

namespace Sys2Proof.Machine

/-! ## Fields of bytes -/

/-- A part of a byte that no spare bit touches. -/
theorem withSpare_part {kind : Kind} {mask v : Nat} (lo w : Nat) (room : lo + w ≤ 8) (clear : mask / 2 ^ lo % 2 ^ w = 0) :
    (withSpare kind mask v).toNat / 2 ^ lo % 2 ^ w = v / 2 ^ lo % 2 ^ w := by
  refine Nat.eq_of_testBit_eq fun i => ?_
  by_cases low : i < w
  · have unmasked : mask.testBit (i + lo) = false := by
      have := congrArg (·.testBit i) clear
      simpa [Nat.testBit_mod_two_pow, Nat.testBit_div_two_pow, low] using this
    have narrow : i + lo < 8 := by omega
    simp only [Nat.testBit_mod_two_pow, Nat.testBit_div_two_pow, low, decide_true, Bool.true_and]
    rw [← BitVec.getLsbD, withSpare, BitVec.getLsbD_or, BitVec.getLsbD_and, byte, byte, BitVec.getLsbD_ofNat,
      BitVec.getLsbD_ofNat, unmasked]
    simp [narrow]
  · simp [Nat.testBit_mod_two_pow, low]

theorem testBit_eq (v k : Nat) : v.testBit k = decide (v / 2 ^ k % 2 = 1) := Nat.testBit_eq_decide_div_mod_eq

theorem withSpare_bit {kind : Kind} {mask v : Nat} (k : Nat) (room : k + 1 ≤ 8) (clear : mask / 2 ^ k % 2 ^ 1 = 0) :
    (withSpare kind mask v).getLsbD k = decide (v / 2 ^ k % 2 = 1) := by
  rw [BitVec.getLsbD, testBit_eq]
  have part := withSpare_part (kind := kind) (v := v) k 1 room clear
  rw [show (2 : Nat) ^ 1 = 2 from rfl] at part
  rw [part]

theorem bit_eq (k : Nat) (b : Bool) : bit k b = 2 ^ k * b.toNat := by cases b <;> simp [bit]

theorem byte_of_fits {v : Nat} (fits : fitsByte v = true) : (byte v).toNat = v := by
  rw [byte_toNat, Nat.mod_eq_of_lt (of_decide_eq_true fits)]

theorem word_value (v : Nat) : (byte v).toNat + 256 * (byte (v / 256)).toNat = v % 65536 := by
  rw [byte_toNat, byte_toNat]
  omega

/-! ## Fields by what stands from their place on -/

section
variable {p l : List Byte} {i : Nat}

theorem byteAt_of_drop {x : Byte} (h : p.drop i = x :: l) : byteAt p i = x.toNat := by
  rw [← Nat.add_zero i, ← byteAt_drop, h]
  rfl

theorem bitAt_of_drop {x : Byte} (h : p.drop i = x :: l) (k : Nat) : bitAt p i k = x.getLsbD k := by
  rw [bitAt_eq, byteAt_of_drop h, BitVec.getLsbD]

theorem wordAt_of_drop_mod {v : Nat} (h : p.drop i = word v ++ l) : wordAt p i = v % 65536 := by
  rw [← Nat.add_zero i, ← wordAt_drop, h]
  exact word_value v

theorem wordAt_of_drop {v : Nat} (h : p.drop i = word v ++ l) (fits : v < 65536) : wordAt p i = v := by
  rw [wordAt_of_drop_mod h, Nat.mod_eq_of_lt fits]

theorem longAt_of_drop {v : Nat} (h : p.drop i = long v ++ l) (fits : v < 4294967296) : longAt p i = v := by
  have low : wordAt p i = v % 65536 := wordAt_of_drop_mod (l := word (v / 65536) ++ l) (by rw [h, long, List.append_assoc])
  have high : wordAt p (i + 2) = v / 65536 % 65536 :=
    wordAt_of_drop_mod (l := l) (by rw [← List.drop_drop, h]; rfl)
  rw [longAt, low, high]
  omega

theorem signedAt_of_drop {v : Int} (h : p.drop i = signedWord v ++ l) (fits : -32768 ≤ v ∧ v ≤ 32767) :
    signedAt p i = v := by
  have value : wordAt p i = (v % 65536).toNat := wordAt_of_drop h (by omega)
  rw [signedAt, value, signed]
  split <;> omega

theorem tempAt_of_drop {v : Option Int} (h : p.drop i = tempWord v ++ l) (fits : fitsTemp v = true) : tempAt p i = v := by
  cases v with
  | none => rw [tempAt, signedAt_of_drop (v := -32768) h (by decide), if_pos rfl]
  | some v =>
    have range : -32767 ≤ v ∧ v ≤ 32767 := of_decide_eq_true fits
    rw [tempAt, signedAt_of_drop (v := v) h (by omega), if_neg (by omega)]

theorem levelAt_of_drop {v : Option Nat} (h : p.drop i = levelWord v ++ l) (fits : fitsLevel v = true) :
    levelAt p i = v := by
  cases v with
  | none => rw [levelAt, wordAt_of_drop (v := 0xFFFF) h (by decide), if_pos rfl]
  | some v =>
    have range : v < 0xFFFF := of_decide_eq_true fits
    rw [levelAt, wordAt_of_drop (v := v) h (by omega), if_neg (by omega)]

theorem signedLong_of_drop {v : Int} (h : p.drop i = signedLong v ++ l)
    (fits : -2147483648 ≤ v ∧ v ≤ 2147483647) : signed 32 (longAt p i) = v := by
  have value : longAt p i = (v % 4294967296).toNat := longAt_of_drop h (by omega)
  rw [value, signed]
  split <;> omega
end

/-! ## Items of a list -/

/-- What stands from the place of an item on. -/
theorem drop_flatMap {α : Type} {f : α → List Byte} {w : Nat} (h : ∀ x, (f x).length = w) :
    ∀ {l : List α} {k : Nat} (hk : k < l.length) (tail : List Byte),
      ∃ t, (l.flatMap f ++ tail).drop (w * k) = f l[k] ++ t
  | x :: l, 0, _, tail => ⟨l.flatMap f ++ tail, by simp⟩
  | x :: l, k + 1, hk, tail => by
    obtain ⟨t, ht⟩ := drop_flatMap h (l := l) (k := k) (by simpa using hk) tail
    refine ⟨t, ?_⟩
    rw [List.flatMap_cons, List.append_assoc, Nat.mul_succ, Nat.add_comm, ← List.drop_drop,
      List.drop_left' (h x), ht]
    rfl

/-- Items of one length each are read back when each is from its own bytes. -/
theorem range_map_read {α : Type} {f : α → List Byte} {w c : Nat} {read : Nat → α} {items : List α}
    {p tail : List Byte} (len : ∀ x, (f x).length = w) (body : p.drop c = items.flatMap f ++ tail)
    (each : ∀ x ∈ items, ∀ k l, p.drop (c + w * k) = f x ++ l → read k = x) :
    (List.range items.length).map read = items := by
  refine List.ext_getElem (by simp) fun k _ hk => ?_
  obtain ⟨t, ht⟩ := drop_flatMap len hk tail
  rw [List.getElem_map, List.getElem_range]
  exact each _ (List.getElem_mem hk) k t (by rw [← List.drop_drop, body, ht])

/-! ## Bits and parts of a byte -/

theorem withSpare_bool {kind : Kind} {mask v : Nat} {b : Bool} (k : Nat) (room : k + 1 ≤ 8)
    (clear : mask / 2 ^ k % 2 ^ 1 = 0) (value : v / 2 ^ k % 2 = b.toNat) : (withSpare kind mask v).getLsbD k = b := by
  rw [withSpare_bit k room clear, value]
  cases b <;> rfl

theorem byte_bool {v : Nat} {b : Bool} (k : Nat) (room : k + 1 ≤ 8) (value : v / 2 ^ k % 2 = b.toNat) :
    (byte v).getLsbD k = b := by
  have inside : (byte v).getLsbD k = decide (v / 2 ^ k % 2 = 1) := by
    rw [byte, BitVec.getLsbD_ofNat, testBit_eq]
    simp [show k < 8 by omega]
  rw [inside, value]
  cases b <;> rfl

/-- What stands at a later place. -/
theorem drop_later {p q : List Byte} {i j : Nat} (m : Nat) (h : p.drop i = q) (e : j = i + m) : p.drop j = q.drop m := by
  rw [e, ← List.drop_drop, h]

/-! ## Items -/

section
variable {p l : List Byte} {k : Nat}

theorem readClaim_eq {d : DrawClaim} (h : p.drop (1 + 3 * k) = drawClaimBytes d ++ l) (fits : fitsClaim d = true) :
    readClaim p k = d := by
  simp only [fitsClaim, Bool.and_eq_true, decide_eq_true_eq] at fits
  obtain ⟨⟨⟨slot, cls⟩, held⟩, asked⟩ := fits
  have flag := Bool.toNat_lt d.asking
  have head : byteAt p (1 + 3 * k) = (withSpare .draw 0x40 (d.slot % 8 + 8 * (d.cls % 8) + bit 7 d.asking)).toNat :=
    byteAt_of_drop h
  have slotPart : byteAt p (1 + 3 * k) % 8 = d.slot := by
    have part := withSpare_part (kind := .draw) (mask := 0x40) (v := d.slot % 8 + 8 * (d.cls % 8) + bit 7 d.asking)
      0 3 (by decide) (by decide)
    rw [← head, bit_eq] at part
    omega
  have clsPart : byteAt p (1 + 3 * k) / 8 % 8 = d.cls := by
    have part := withSpare_part (kind := .draw) (mask := 0x40) (v := d.slot % 8 + 8 * (d.cls % 8) + bit 7 d.asking)
      3 3 (by decide) (by decide)
    rw [← head, bit_eq] at part
    omega
  have askingPart : bitAt p (1 + 3 * k) 7 = d.asking := by
    rw [bitAt_of_drop h]
    refine withSpare_bool 7 (by decide) (by decide) ?_
    rw [bit_eq]
    omega
  have heldPart : byteAt p (2 + 3 * k) = d.held :=
    (byteAt_of_drop (drop_later 1 h (by omega))).trans (byte_of_fits held)
  have askedPart : byteAt p (3 + 3 * k) = d.asked :=
    (byteAt_of_drop (drop_later 2 h (by omega))).trans (byte_of_fits asked)
  rw [readClaim, slotPart, clsPart, askingPart, heldPart, askedPart]

theorem readTank_eq {t : TankBody} (h : p.drop (1 + 3 * k) = tankBytes t ++ l) (code : t.kind < 4)
    (level : fitsLevel t.level = true) : readTank p k = t := by
  have b2 := Bool.toNat_lt t.heldMark
  have b3 := Bool.toNat_lt t.probeFault
  have b4 := Bool.toNat_lt t.senderFault
  have b5 := Bool.toNat_lt t.low
  have b6 := Bool.toNat_lt t.empty
  have b7 := Bool.toNat_lt t.full
  have kindPart : byteAt p (1 + 3 * k) % 4 = t.kind := by
    rw [byteAt_of_drop h, byte_toNat]
    simp only [bit_eq]
    omega
  have flags (j : Nat) (b : Bool) (room : j + 1 ≤ 8) (value : (t.kind % 4 + bit 2 t.heldMark + bit 3 t.probeFault +
      bit 4 t.senderFault + bit 5 t.low + bit 6 t.empty + bit 7 t.full) / 2 ^ j % 2 = b.toNat) :
      bitAt p (1 + 3 * k) j = b := (bitAt_of_drop h j).trans (byte_bool j room value)
  simp only [bit_eq] at flags
  have levelPart : levelAt p (1 + 3 * k + 1) = t.level := levelAt_of_drop (drop_later 1 h rfl) level
  rw [readTank, kindPart, flags 2 t.heldMark (by decide) (by omega), flags 3 t.probeFault (by decide) (by omega),
    flags 4 t.senderFault (by decide) (by omega), flags 5 t.low (by decide) (by omega),
    flags 6 t.empty (by decide) (by omega), flags 7 t.full (by decide) (by omega), levelPart]

theorem readUnit_eq {u : UnitBody} (h : p.drop (1 + 6 * k) = unitBytes u ++ l) (fits : fitsUnit u = true) :
    readUnit p k = u := by
  simp only [fitsUnit, Bool.and_eq_true, decide_eq_true_eq] at fits
  obtain ⟨⟨⟨⟨⟨code, state⟩, cause⟩, pos⟩, tag⟩, outcome⟩ := fits
  have second : byteAt p (1 + 6 * k + 1) = (withSpare .motion 0xC0 (u.state % 16 + 16 * (u.cause % 4))).toNat :=
    byteAt_of_drop (drop_later 1 h rfl)
  have statePart : byteAt p (1 + 6 * k + 1) % 16 = u.state := by
    have part := withSpare_part (kind := .motion) (mask := 0xC0) (v := u.state % 16 + 16 * (u.cause % 4))
      0 4 (by decide) (by decide)
    rw [← second] at part
    omega
  have causePart : byteAt p (1 + 6 * k + 1) / 16 % 4 = u.cause := by
    have part := withSpare_part (kind := .motion) (mask := 0xC0) (v := u.state % 16 + 16 * (u.cause % 4))
      4 2 (by decide) (by decide)
    rw [← second] at part
    omega
  have kindPart : byteAt p (1 + 6 * k) = u.kind := (byteAt_of_drop h).trans (byte_of_fits code)
  have posPart : levelAt p (1 + 6 * k + 2) = u.pos :=
    levelAt_of_drop (l := [byte u.tag, byte u.outcome] ++ l) (drop_later 2 h rfl) pos
  have tagPart : byteAt p (1 + 6 * k + 4) = u.tag := (byteAt_of_drop (drop_later 4 h rfl)).trans (byte_of_fits tag)
  have outcomePart : byteAt p (1 + 6 * k + 5) = u.outcome :=
    (byteAt_of_drop (drop_later 5 h rfl)).trans (byte_of_fits outcome)
  rw [readUnit, kindPart, statePart, causePart, posPart, tagPart, outcomePart]

theorem readLight_eq {b : LightBody} (h : p.drop (1 + 2 * k) = lightBytes b ++ l) (level : fitsByte b.level = true) :
    readLight p k = b := by
  have b0 := Bool.toNat_lt b.capped
  have b1 := Bool.toNat_lt b.shed
  have b2 := Bool.toNat_lt b.degraded
  have later := drop_later 1 h (show 2 + 2 * k = 1 + 2 * k + 1 by omega)
  have flags (j : Nat) (v : Bool) (room : j + 1 ≤ 8) (clear : 0xF8 / 2 ^ j % 2 ^ 1 = 0)
      (value : (bit 0 b.capped + bit 1 b.shed + bit 2 b.degraded) / 2 ^ j % 2 = v.toNat) : bitAt p (2 + 2 * k) j = v :=
    (bitAt_of_drop later j).trans (withSpare_bool j room clear value)
  simp only [bit_eq] at flags
  have levelPart : byteAt p (1 + 2 * k) = b.level := (byteAt_of_drop h).trans (byte_of_fits level)
  rw [readLight, levelPart, flags 0 b.capped (by decide) (by decide) (by omega),
    flags 1 b.shed (by decide) (by decide) (by omega), flags 2 b.degraded (by decide) (by decide) (by omega)]
end

/-! ## Payloads -/

theorem readPresence_eq {b : PresenceBody} (fits : fitsPayload (.presence b) = true) :
    readPresence (payload (.presence b)) = some (.presence b) := by
  simp only [fitsPayload, Bool.and_eq_true] at fits
  obtain ⟨⟨node, cause⟩, ident⟩ := fits
  have b0 := Bool.toNat_lt b.flagAny
  have b1 := Bool.toNat_lt b.orphaned
  have b2 := Bool.toNat_lt b.unconfigured
  have b3 := Bool.toNat_lt b.conflict
  have b4 := Bool.toNat_lt b.travel
  have b5 := Bool.toNat_lt b.wind
  generalize hp : payload (.presence b) = p
  have whole : p.drop 0 = presenceBytes b ++ [] := by rw [← hp]; rfl
  have dutyWord : readDuties p 1 = b.duties := by
    have low : byteAt p 1 = b.duties.toNat % 256 := (byteAt_of_drop (drop_later 1 whole rfl)).trans (byte_toNat _)
    have second : byteAt p (1 + 1) = (withSpare .presence 0xF8 (b.duties.toNat / 256)).toNat :=
      byteAt_of_drop (drop_later 2 whole rfl)
    have high : byteAt p (1 + 1) % 8 = b.duties.toNat / 256 % 8 := by
      have part := withSpare_part (kind := .presence) (mask := 0xF8) (v := b.duties.toNat / 256) 0 3 (by decide)
        (by decide)
      rw [← second] at part
      omega
    have range := b.duties.isLt
    refine BitVec.eq_of_toNat_eq ?_
    rw [readDuties, BitVec.toNat_ofNat, wordAt, low]
    omega
  have marks (j : Nat) (v : Bool) (room : j + 1 ≤ 8) (clear : 0xF0 / 2 ^ j % 2 ^ 1 = 0)
      (value : (bit 0 b.flagAny + bit 1 b.orphaned + bit 2 b.unconfigured + bit 3 b.conflict) / 2 ^ j % 2 = v.toNat) :
      bitAt p 4 j = v := (bitAt_of_drop (drop_later 4 whole rfl) j).trans (withSpare_bool j room clear value)
  have views (j : Nat) (v : Bool) (room : j + 1 ≤ 8) (clear : 0xFC / 2 ^ j % 2 ^ 1 = 0)
      (value : (bit 0 b.travel + bit 1 b.wind) / 2 ^ j % 2 = v.toNat) : bitAt p 5 j = v :=
    (bitAt_of_drop (drop_later 5 whole rfl) j).trans (withSpare_bool j room clear value)
  simp only [bit_eq] at marks views
  have nodePart : byteAt p 0 = b.node := (byteAt_of_drop whole).trans (byte_of_fits node)
  have causePart : byteAt p 3 = b.cause := (byteAt_of_drop (drop_later 3 whole rfl)).trans (byte_of_fits cause)
  have identPart : wordAt p 6 = b.ident := wordAt_of_drop (drop_later 6 whole rfl) (of_decide_eq_true ident)
  rw [readPresence, if_pos (by rw [← hp]; rfl), nodePart, dutyWord, causePart,
    marks 0 b.flagAny (by decide) (by decide) (by omega), marks 1 b.orphaned (by decide) (by decide) (by omega),
    marks 2 b.unconfigured (by decide) (by decide) (by omega), marks 3 b.conflict (by decide) (by decide) (by omega),
    views 0 b.travel (by decide) (by decide) (by omega), views 1 b.wind (by decide) (by decide) (by omega), identPart]

theorem readDraw_eq {claims : List DrawClaim} (fits : fitsPayload (.draw claims) = true) :
    readDraw (payload (.draw claims)) = some (.draw claims) := by
  simp only [fitsPayload, Bool.and_eq_true, decide_eq_true_eq, List.all_eq_true] at fits
  obtain ⟨few, each⟩ := fits
  have size := length_draw claims
  generalize hp : payload (.draw claims) = p at size
  have whole : p.drop 0 = byte claims.length :: claims.flatMap drawClaimBytes := by rw [← hp]; rfl
  have count : byteAt p 0 = claims.length := by
    rw [byteAt_of_drop whole, byte_toNat]
    omega
  have items : (List.range claims.length).map (readClaim p) = claims :=
    range_map_read (w := 3) (c := 1) (tail := []) (fun _ => rfl)
      ((drop_later 1 whole rfl).trans (List.append_nil _).symm) fun d m k l h => readClaim_eq h (each d m)
  rw [readDraw]
  simp only [count, size, few, and_self, if_true, items]

theorem readAllowance_eq {b : AllowanceBody} (fits : fitsPayload (.allowance b) = true) :
    readAllowance (payload (.allowance b)) = some (.allowance b) := by
  simp only [fitsPayload, fitsSigned, Bool.and_eq_true, decide_eq_true_eq] at fits
  obtain ⟨⟨⟨⟨⟨⟨⟨allowance, shed⟩, band⟩, soc⟩, voltage⟩, current⟩, temp⟩, minutes⟩ := fits
  have b0 := Bool.toNat_lt b.unsynced
  have b1 := Bool.toNat_lt b.charge
  have b2 := Bool.toNat_lt b.overdraw
  have b3 := Bool.toNat_lt b.tempInvalid
  generalize hp : payload (.allowance b) = p
  have whole : p.drop 0 = allowanceBytes b ++ [] := by rw [← hp]; rfl
  have marks (j : Nat) (v : Bool) (room : j + 1 ≤ 8) (clear : 0xF0 / 2 ^ j % 2 ^ 1 = 0)
      (value : (bit 0 b.unsynced + bit 1 b.charge + bit 2 b.overdraw + bit 3 b.tempInvalid) / 2 ^ j % 2 = v.toNat) :
      bitAt p 4 j = v := (bitAt_of_drop (drop_later 4 whole rfl) j).trans (withSpare_bool j room clear value)
  simp only [bit_eq] at marks
  have allowancePart : wordAt p 0 = b.allowance := wordAt_of_drop (drop_later 0 whole rfl) (of_decide_eq_true allowance)
  have shedPart : byteAt p 2 = b.shed := (byteAt_of_drop (drop_later 2 whole rfl)).trans (byte_of_fits shed)
  have bandPart : byteAt p 3 = b.band := (byteAt_of_drop (drop_later 3 whole rfl)).trans (byte_of_fits band)
  have socPart : wordAt p 5 = b.soc := wordAt_of_drop (drop_later 5 whole rfl) (of_decide_eq_true soc)
  have voltagePart : wordAt p 7 = b.voltage := wordAt_of_drop (drop_later 7 whole rfl) (of_decide_eq_true voltage)
  have currentPart : signedAt p 9 = b.current := signedAt_of_drop (drop_later 9 whole rfl) current
  have tempPart : signedAt p 11 = b.temp := signedAt_of_drop (drop_later 11 whole rfl) temp
  have minutesPart : wordAt p 13 = b.minutes := wordAt_of_drop (drop_later 13 whole rfl) (of_decide_eq_true minutes)
  rw [readAllowance, if_pos (by rw [← hp]; rfl), allowancePart, shedPart, bandPart,
    marks 0 b.unsynced (by decide) (by decide) (by omega), marks 1 b.charge (by decide) (by decide) (by omega),
    marks 2 b.overdraw (by decide) (by decide) (by omega), marks 3 b.tempInvalid (by decide) (by decide) (by omega),
    socPart, voltagePart, currentPart, tempPart, minutesPart]

theorem readClimate_eq {b : ClimateBody} (fits : fitsPayload (.climate b) = true) :
    readClimate (payload (.climate b)) = some (.climate b) := by
  simp only [fitsPayload, fitsSigned, Bool.and_eq_true, decide_eq_true_eq] at fits
  obtain ⟨⟨⟨⟨⟨⟨⟨state, level⟩, mode⟩, setpoint⟩, cabin⟩, exhaust⟩, reason⟩, attempts⟩ := fits
  generalize hp : payload (.climate b) = p
  have whole : p.drop 0 = climateBytes b ++ [] := by rw [← hp]; rfl
  have statePart : byteAt p 0 = b.state := (byteAt_of_drop (drop_later 0 whole rfl)).trans (byte_of_fits state)
  have levelPart : byteAt p 1 = b.level := (byteAt_of_drop (drop_later 1 whole rfl)).trans (byte_of_fits level)
  have modePart : byteAt p 2 = b.mode := (byteAt_of_drop (drop_later 2 whole rfl)).trans (byte_of_fits mode)
  have setpointPart : signedAt p 3 = b.setpoint := signedAt_of_drop (drop_later 3 whole rfl) setpoint
  have cabinPart : tempAt p 5 = b.cabin := tempAt_of_drop (drop_later 5 whole rfl) cabin
  have exhaustPart : tempAt p 7 = b.exhaust := tempAt_of_drop (drop_later 7 whole rfl) exhaust
  have reasonPart : byteAt p 9 = b.reason := (byteAt_of_drop (drop_later 9 whole rfl)).trans (byte_of_fits reason)
  have attemptsPart : byteAt p 10 = b.attempts :=
    (byteAt_of_drop (drop_later 10 whole rfl)).trans (byte_of_fits attempts)
  rw [readClimate, if_pos (by rw [← hp]; rfl), statePart, levelPart, modePart, setpointPart, cabinPart, exhaustPart,
    reasonPart, attemptsPart]

/-- The count and the presence bit at the head of a TANKS or a MOTION. -/
theorem counted_head {p rest : List Byte} {kind : Kind} {n : Nat} {part : Bool}
    (h : p.drop 0 = withSpare kind 0x7C (n + bit 7 part) :: rest) (few : n < 4) :
    byteAt p 0 % 4 = n ∧ bitAt p 0 7 = part := by
  have flag := Bool.toNat_lt part
  refine ⟨?_, (bitAt_of_drop h 7).trans (withSpare_bool 7 (by decide) (by decide) ?_)⟩
  · have low := withSpare_part (kind := kind) (mask := 0x7C) (v := n + bit 7 part) 0 2 (by decide) (by decide)
    rw [← byteAt_of_drop h, bit_eq] at low
    omega
  · rw [bit_eq]
    omega

theorem readTanks_eq {tanks : List TankBody} {frost : Option (Nat × Option Int)}
    (fits : fitsPayload (.tanks tanks frost) = true) :
    readTanks (payload (.tanks tanks frost)) = some (.tanks tanks frost) := by
  simp only [fitsPayload, Bool.and_eq_true, decide_eq_true_eq, List.all_eq_true] at fits
  obtain ⟨⟨few, each⟩, part⟩ := fits
  have size := length_tanks tanks frost
  have bytes := payload_tanks tanks frost
  generalize payload (.tanks tanks frost) = p at size bytes
  have whole : p.drop 0 = _ := bytes
  obtain ⟨count, present⟩ := counted_head whole (by omega)
  have body : p.drop 1 = tanks.flatMap tankBytes ++ frostBytes frost := drop_later 1 whole rfl
  have items : (List.range tanks.length).map (readTank p) = tanks :=
    range_map_read (w := 3) (fun _ => rfl) body fun t m k l h => readTank_eq h (each t m).1 (each t m).2
  have tail : p.drop (1 + 3 * tanks.length) = frostBytes frost := by
    rw [← List.drop_drop, body]
    exact List.drop_left' (length_flatMap_const (w := 3) (fun _ => rfl) tanks)
  rw [readTanks]
  simp only [count, present, size, items]
  cases frost with
  | none => simp
  | some f =>
    obtain ⟨state, temp⟩ := f
    simp only [Option.all_some, Bool.and_eq_true] at part
    have statePart : byteAt p (1 + 3 * tanks.length) = state := (byteAt_of_drop tail).trans (byte_of_fits part.1)
    have tempPart : tempAt p (2 + 3 * tanks.length) = temp :=
      tempAt_of_drop (l := []) ((drop_later 1 tail (by omega)).trans (List.append_nil _).symm) part.2
    simp [statePart, tempPart]

theorem readMotion_eq {units : List UnitBody} {wind : Option Nat} (fits : fitsPayload (.motion units wind) = true) :
    readMotion (payload (.motion units wind)) = some (.motion units wind) := by
  simp only [fitsPayload, Bool.and_eq_true, decide_eq_true_eq, List.all_eq_true] at fits
  obtain ⟨⟨few, each⟩, part⟩ := fits
  have size := length_motion units wind
  have bytes := payload_motion units wind
  generalize payload (.motion units wind) = p at size bytes
  have whole : p.drop 0 = _ := bytes
  obtain ⟨count, present⟩ := counted_head whole (by omega)
  have body : p.drop 1 = units.flatMap unitBytes ++ windBytes wind := drop_later 1 whole rfl
  have items : (List.range units.length).map (readUnit p) = units :=
    range_map_read (w := 6) (fun _ => rfl) body fun u m k l h => readUnit_eq h (each u m)
  have tail : p.drop (1 + 6 * units.length) = windBytes wind := by
    rw [← List.drop_drop, body]
    exact List.drop_left' (length_flatMap_const (w := 6) (fun _ => rfl) units)
  rw [readMotion]
  simp only [count, present, size, items, gt_iff_lt, not_lt.mpr few, if_false]
  cases wind with
  | none => simp
  | some speed =>
    have speedPart : wordAt p (1 + 6 * units.length) = speed :=
      wordAt_of_drop (l := []) (tail.trans (List.append_nil _).symm) (of_decide_eq_true part)
    simp [speedPart]

theorem readLights_eq {channels : List LightBody} (fits : fitsPayload (.lights channels) = true) :
    readLights (payload (.lights channels)) = some (.lights channels) := by
  simp only [fitsPayload, Bool.and_eq_true, decide_eq_true_eq, List.all_eq_true] at fits
  obtain ⟨few, each⟩ := fits
  have size := length_lights channels
  generalize hp : payload (.lights channels) = p at size
  have whole : p.drop 0 = byte channels.length :: channels.flatMap lightBytes := by rw [← hp]; rfl
  have count : byteAt p 0 = channels.length := by
    rw [byteAt_of_drop whole, byte_toNat]
    omega
  have items : (List.range channels.length).map (readLight p) = channels :=
    range_map_read (w := 2) (c := 1) (tail := []) (fun _ => rfl)
      ((drop_later 1 whole rfl).trans (List.append_nil _).symm) fun b m k l h => readLight_eq h (each b m)
  rw [readLights]
  simp only [count, size, few, and_self, if_true, items]

theorem readCommand_eq {b : CommandBody} (fits : fitsPayload (.command b) = true) :
    readCommand (payload (.command b)) = some (.command b) := by
  simp only [fitsPayload, Bool.and_eq_true, decide_eq_true_eq] at fits
  obtain ⟨⟨⟨target, tag⟩, code⟩, args⟩ := fits
  have size := length_command b
  generalize hp : payload (.command b) = p at size
  have whole : p.drop 0 = [byte b.target, byte b.tag, byte b.code] ++ b.args := by rw [← hp]; rfl
  have targetPart : byteAt p 0 = b.target := (byteAt_of_drop whole).trans (byte_of_fits target)
  have tagPart : byteAt p 1 = b.tag := (byteAt_of_drop (drop_later 1 whole rfl)).trans (byte_of_fits tag)
  have codePart : byteAt p 2 = b.code := (byteAt_of_drop (drop_later 2 whole rfl)).trans (byte_of_fits code)
  have argsPart : p.drop 3 = b.args := drop_later 3 whole rfl
  rw [readCommand, if_pos (by omega), targetPart, tagPart, codePart, argsPart]

theorem readReply_eq {b : ReplyBody} (fits : fitsPayload (.reply b) = true) :
    readReply (payload (.reply b)) = some (.reply b) := by
  simp only [fitsPayload, fitsSigned, Bool.and_eq_true, decide_eq_true_eq] at fits
  obtain ⟨⟨⟨⟨requester, tag⟩, code⟩, result⟩, detail⟩ := fits
  generalize hp : payload (.reply b) = p
  have whole : p.drop 0 = [byte b.requester, byte b.tag, byte b.code, byte b.result] ++ signedWord b.detail ++ [] := by
    rw [← hp]; rfl
  have requesterPart : byteAt p 0 = b.requester := (byteAt_of_drop whole).trans (byte_of_fits requester)
  have tagPart : byteAt p 1 = b.tag := (byteAt_of_drop (drop_later 1 whole rfl)).trans (byte_of_fits tag)
  have codePart : byteAt p 2 = b.code := (byteAt_of_drop (drop_later 2 whole rfl)).trans (byte_of_fits code)
  have resultPart : byteAt p 3 = b.result := (byteAt_of_drop (drop_later 3 whole rfl)).trans (byte_of_fits result)
  have detailPart : signedAt p 4 = b.detail := signedAt_of_drop (drop_later 4 whole rfl) detail
  rw [readReply, if_pos (by rw [← hp]; rfl), requesterPart, tagPart, codePart, resultPart, detailPart]

end Sys2Proof.Machine
end

section
/-! # Good frames (R185): what a payload of a kind may be, and the parts of a run of characters -/

namespace Sys2Proof.Machine

/-! ## Reports and the payload by its kind -/

theorem readReport_eq {b : ReportBody} (fits : fitsPayload (.report b) = true) :
    readReport (payload (.report b)) = some (.report b) := by
  cases b with
  | quantities start count values =>
    simp only [fitsPayload, Bool.and_eq_true, decide_eq_true_eq, List.all_eq_true] at fits
    obtain ⟨⟨⟨startFits, rfl⟩, few⟩, each⟩ := fits
    have size := length_quantities start values.length values
    generalize hp : payload (.report (.quantities start values.length values)) = p at size
    have whole : p.drop 0 = [byte 0, byte start, byte values.length] ++ values.flatMap signedLong := by rw [← hp]; rfl
    have codePart : byteAt p 0 = 0 := byteAt_of_drop whole
    have startPart : byteAt p 1 = start := (byteAt_of_drop (drop_later 1 whole rfl)).trans (byte_of_fits startFits)
    have countPart : byteAt p 2 = values.length := by
      rw [byteAt_of_drop (drop_later 2 whole rfl), byte_toNat]
      omega
    have items : ((List.range values.length).map fun k => signed 32 (longAt p (3 + 4 * k))) = values :=
      range_map_read (w := 4) (c := 3) (tail := []) (fun _ => rfl)
        ((drop_later 3 whole rfl).trans (List.append_nil _).symm) fun v m k l h => signedLong_of_drop h (each v m)
    simp [readReport, size, codePart, startPart, countPart, items]
  | counters start count values =>
    simp only [fitsPayload, Bool.and_eq_true, decide_eq_true_eq, List.all_eq_true] at fits
    obtain ⟨⟨⟨startFits, rfl⟩, twelve⟩, each⟩ := fits
    have size := length_counters start 12 values
    generalize hp : payload (.report (.counters start 12 values)) = p at size
    have whole : p.drop 0 = [byte 1, byte start, byte 12] ++ values.flatMap word := by rw [← hp]; rfl
    have codePart : byteAt p 0 = 1 := byteAt_of_drop whole
    have startPart : byteAt p 1 = start := (byteAt_of_drop (drop_later 1 whole rfl)).trans (byte_of_fits startFits)
    have countPart : byteAt p 2 = 12 := byteAt_of_drop (drop_later 2 whole rfl)
    have items : ((List.range values.length).map fun k => wordAt p (3 + 2 * k)) = values :=
      range_map_read (w := 2) (c := 3) (tail := []) (fun _ => rfl)
        ((drop_later 3 whole rfl).trans (List.append_nil _).symm) fun v m k l h =>
          wordAt_of_drop h (of_decide_eq_true (each v m))
    rw [twelve] at size items
    simp [readReport, size, codePart, startPart, countPart, items]
  | flags start count flags =>
    simp only [fitsPayload, Bool.and_eq_true, decide_eq_true_eq] at fits
    obtain ⟨startFits, rfl⟩ := fits
    generalize hp : payload (.report (.flags start 16 flags)) = p
    have size : p.length = 5 := by rw [← hp]; rfl
    have whole : p.drop 0 = [byte 2, byte start, byte 16] ++ word flags.toNat ++ [] := by rw [← hp]; rfl
    have codePart : byteAt p 0 = 2 := byteAt_of_drop whole
    have startPart : byteAt p 1 = start := (byteAt_of_drop (drop_later 1 whole rfl)).trans (byte_of_fits startFits)
    have countPart : byteAt p 2 = 16 := byteAt_of_drop (drop_later 2 whole rfl)
    have flagsPart : wordAt p 3 = flags.toNat := wordAt_of_drop (drop_later 3 whole rfl) flags.isLt
    simp [readReport, size, codePart, startPart, countPart, flagsPart]

/-- Every payload is read back by its kind. -/
theorem readPayload_payload {f : Frame} (fits : fitsPayload f = true) :
    readPayload (kindCode (kindOf f)) (payload f) = some f := by
  cases f with
  | presence b => exact readPresence_eq fits
  | draw claims => exact readDraw_eq fits
  | allowance b => exact readAllowance_eq fits
  | tanks tanks frost => exact readTanks_eq fits
  | climate b => exact readClimate_eq fits
  | motion units wind => exact readMotion_eq fits
  | lights channels => exact readLights_eq fits
  | command b => exact readCommand_eq fits
  | reply b => exact readReply_eq fits
  | report b => exact readReport_eq fits

/-! ## The payloads that are read -/

/-- The first byte, when there is one, meets a test. -/
def headMeets (d : List Byte) (p : Byte → Prop) : Prop := ∃ n, d.head? = some n ∧ p n

/-- The size of the part that bit 7 of a byte announces. -/
def announced (n : Byte) (size : Nat) : Nat := if n.toNat.testBit 7 then size else 0

theorem headMeets_nil (p : Byte → Prop) : headMeets [] p ↔ False := by simp [headMeets]

theorem headMeets_cons (x : Byte) (l : List Byte) (p : Byte → Prop) : headMeets (x :: l) p ↔ p x := by
  simp [headMeets]

/-- What a payload must be for its kind (section 12.3). -/
def allowedPayload (kind : Nat) (d : List Byte) : Prop :=
  (kind = 0x11 ∧ d.length = 8) ∨
  (kind = 0x12 ∧ headMeets d fun n => n.toNat ≤ 8 ∧ d.length = 1 + 3 * n.toNat) ∨
  (kind = 0x13 ∧ d.length = 15) ∨
  (kind = 0x14 ∧ headMeets d fun n => d.length = 1 + 3 * (n.toNat % 4) + announced n 3) ∨
  (kind = 0x15 ∧ d.length = 11) ∨
  (kind = 0x16 ∧ headMeets d fun n => n.toNat % 4 ≤ 2 ∧ d.length = 1 + 6 * (n.toNat % 4) + announced n 2) ∨
  (kind = 0x17 ∧ headMeets d fun n => n.toNat ≤ 8 ∧ d.length = 1 + 2 * n.toNat) ∨
  (kind = 0x21 ∧ 3 ≤ d.length ∧ d.length ≤ 11) ∨
  (kind = 0x22 ∧ d.length = 6) ∨
  (kind = 0x23 ∧ ∃ count : Byte, d[2]? = some count ∧ headMeets d fun n =>
    (n = 0 ∧ d.length = 3 + 4 * count.toNat) ∨ (n = 1 ∧ d.length = 27 ∧ count = 12) ∨
    (n = 2 ∧ d.length = 5 ∧ count = 16))

theorem isSome_ite {α : Type} {p : Prop} [Decidable p] (a : α) : (if p then some a else none).isSome = true ↔ p := by
  split <;> simp [*]

theorem readDraw_isSome (d : List Byte) :
    (readDraw d).isSome = true ↔ headMeets d fun n => n.toNat ≤ 8 ∧ d.length = 1 + 3 * n.toNat := by
  cases d with
  | nil => exact (iff_false_right (headMeets_nil _).mp).mpr (by decide)
  | cons x l =>
    rw [headMeets_cons]
    exact isSome_ite _

theorem readLights_isSome (d : List Byte) :
    (readLights d).isSome = true ↔ headMeets d fun n => n.toNat ≤ 8 ∧ d.length = 1 + 2 * n.toNat := by
  cases d with
  | nil => exact (iff_false_right (headMeets_nil _).mp).mpr (by decide)
  | cons x l =>
    rw [headMeets_cons]
    exact isSome_ite _

theorem readTanks_isSome (d : List Byte) :
    (readTanks d).isSome = true ↔ headMeets d fun n => d.length = 1 + 3 * (n.toNat % 4) + announced n 3 := by
  cases d with
  | nil => exact (iff_false_right (headMeets_nil _).mp).mpr (by decide)
  | cons x l =>
    have head : byteAt (x :: l) 0 = x.toNat := rfl
    have mark : bitAt (x :: l) 0 7 = x.toNat.testBit 7 := rfl
    rw [headMeets_cons, readTanks, head, mark, announced]
    split
    · exact isSome_ite _
    · exact (isSome_ite _).trans (and_iff_right (Nat.succ_pos _))

theorem readMotion_isSome (d : List Byte) : (readMotion d).isSome = true ↔
    headMeets d fun n => n.toNat % 4 ≤ 2 ∧ d.length = 1 + 6 * (n.toNat % 4) + announced n 2 := by
  cases d with
  | nil => exact (iff_false_right (headMeets_nil _).mp).mpr (by decide)
  | cons x l =>
    have head : byteAt (x :: l) 0 = x.toNat := rfl
    have mark : bitAt (x :: l) 0 7 = x.toNat.testBit 7 := rfl
    rw [headMeets_cons, readMotion, head, mark, announced]
    by_cases few : x.toNat % 4 ≤ 2
    · rw [if_neg (not_lt.mpr few), and_iff_right few]
      split
      · exact isSome_ite _
      · exact (isSome_ite _).trans (and_iff_right (Nat.succ_pos _))
    · rw [if_pos (not_le.mp few)]
      simp [few]

theorem readReport_isSome (d : List Byte) : (readReport d).isSome = true ↔
    ∃ count : Byte, d[2]? = some count ∧ headMeets d fun n =>
      (n = 0 ∧ d.length = 3 + 4 * count.toNat) ∨ (n = 1 ∧ d.length = 27 ∧ count = 12) ∨
      (n = 2 ∧ d.length = 5 ∧ count = 16) := by
  match d with
  | [] => simp [readReport]
  | [x] => simp [readReport]
  | [x, y] => simp [readReport]
  | x :: y :: count :: l =>
    have code : byteAt (x :: y :: count :: l) 0 = x.toNat := rfl
    have number : byteAt (x :: y :: count :: l) 2 = count.toNat := rfl
    have same (v : Byte) (k : Nat) (h : v.toNat = k) (b : Byte) : b.toNat = k ↔ b = v := by
      rw [← h, BitVec.toNat_inj]
    have third : (x :: y :: count :: l)[2]? = some count := rfl
    simp only [third, Option.some.injEq, exists_eq_left', headMeets_cons]
    rw [readReport, code, number, if_neg (by simp)]
    simp only [same 0 0 rfl x, same 1 1 rfl x, same 2 2 rfl x, same 12 12 rfl count, same 16 16 rfl count]
    by_cases zero : x = 0
    · subst zero
      simp [isSome_ite]
    by_cases one : x = 1
    · subst one
      simp [isSome_ite]
    by_cases two : x = 2
    · subst two
      simp [isSome_ite]
    simp only [zero, one, two, if_false, false_and, or_self, Option.isSome_none, Bool.false_eq_true]

theorem readPayload_isSome (kind : Nat) (d : List Byte) :
    (readPayload kind d).isSome = true ↔ allowedPayload kind d := by
  unfold readPayload
  split
  · simp [allowedPayload, readPresence, isSome_ite, *]
  split
  · simp [allowedPayload, readDraw_isSome, *]
  split
  · simp [allowedPayload, readAllowance, isSome_ite, *]
  split
  · simp [allowedPayload, readTanks_isSome, *]
  split
  · simp [allowedPayload, readClimate, isSome_ite, *]
  split
  · simp [allowedPayload, readMotion_isSome, *]
  split
  · simp [allowedPayload, readLights_isSome, *]
  split
  · simp [allowedPayload, readCommand, isSome_ite, *]
  split
  · simp [allowedPayload, readReply, isSome_ite, *]
  split
  · simp [allowedPayload, readReport_isSome, *]
  · simp [allowedPayload, *]

/-! ## The parts of a run of characters -/

/-- A run of characters with the parts of a frame whose LENGTH is the length of its payload. -/
theorem readFrame_parts (source kind length check : Byte) (data : List Byte) (size : data.length = length.toNat) :
    readFrame ([0xC3, source, kind, length] ++ data ++ [check]) =
      if length.toNat ≤ 28 ∧ byteSum (([0xC3, source, kind, length] ++ data ++ [check]).drop 1) % 256 = 0x5C then
        (readPayload kind.toNat data).map fun f => (source.toNat, f)
      else none := by
  have lengthPart : byteAt ([0xC3, source, kind, length] ++ data ++ [check]) 3 = length.toNat := rfl
  have kindPart : byteAt ([0xC3, source, kind, length] ++ data ++ [check]) 2 = kind.toNat := rfl
  have sourcePart : byteAt ([0xC3, source, kind, length] ++ data ++ [check]) 1 = source.toNat := rfl
  have syncPart : byteAt ([0xC3, source, kind, length] ++ data ++ [check]) 0 = 0xC3 := rfl
  have total : ([0xC3, source, kind, length] ++ data ++ [check]).length = length.toNat + 5 := by
    simp [size]
  have dataPart : (([0xC3, source, kind, length] ++ data ++ [check]).drop 4).take length.toNat = data := by
    rw [← size]
    exact List.take_left
  rw [readFrame, lengthPart, kindPart, sourcePart, syncPart, total]
  simp only [dataPart, true_and]

/-- A run of characters that begins with SYNC and is as long as LENGTH says has the parts of a frame. -/
theorem exists_parts {bytes : List Byte} (sync : byteAt bytes 0 = 0xC3) (total : bytes.length = byteAt bytes 3 + 5) :
    ∃ (source kind length : Byte) (data : List Byte) (check : Byte),
      bytes = [0xC3, source, kind, length] ++ data ++ [check] ∧ data.length = length.toNat := by
  match bytes with
  | first :: source :: kind :: length :: rest =>
    have size : rest.length = length.toNat + 1 := by
      have : rest.length + 1 + 1 + 1 + 1 = length.toNat + 5 := total
      omega
    have begins : first = 0xC3 := BitVec.eq_of_toNat_eq sync
    have filled : rest ≠ [] := List.ne_nil_of_length_eq_add_one size
    refine ⟨source, kind, length, rest.dropLast, rest.getLast filled, ?_, by simp [size]⟩
    rw [begins, List.append_assoc, List.dropLast_append_getLast]
    rfl
  | [] | [_] | [_, _] | [_, _, _] =>
    simp only [List.length_cons, List.length_nil] at total
    omega

/-- What is read begins with SYNC and is as long as LENGTH says. -/
theorem readFrame_begins {bytes : List Byte} (read : (readFrame bytes).isSome = true) :
    byteAt bytes 0 = 0xC3 ∧ bytes.length = byteAt bytes 3 + 5 := by
  unfold readFrame at read
  split at read
  · rename_i good
    exact ⟨good.1, good.2.2.1⟩
  · cases read

theorem frameBytes_parts (source : Nat) (f : Frame) : frameBytes source f =
    [0xC3, byte source, byte (kindCode (kindOf f)), byte (payload f).length] ++ payload f ++
      [checkByte (frameBody source f)] := by
  simp [frameBytes, frameBody]

theorem readFrame_frameBytes {source : Nat} {f : Frame} (named : source ≤ 14) (fits : fitsPayload f = true) :
    readFrame (frameBytes source f) = some (source, f) := by
  have short := length_payload_le fits
  have code : (byte (kindCode (kindOf f))).toNat = kindCode (kindOf f) := by
    rw [byte_toNat, Nat.mod_eq_of_lt (kindCode_lt _)]
  have size : (byte (payload f).length).toNat = (payload f).length := by
    rw [byte_toNat, Nat.mod_eq_of_lt (by omega)]
  have number : (byte source).toNat = source := by
    rw [byte_toNat, Nat.mod_eq_of_lt (by omega)]
  have sum := byteSum_frameBytes named fits
  rw [frameBytes_parts] at sum ⊢
  rw [readFrame_parts _ _ _ _ _ size.symm, if_pos ⟨by omega, sum⟩, code, readPayload_payload fits, number]
  rfl

/-- Which runs of characters are a good frame. -/
theorem readFrame_isSome (bytes : List Byte) : (readFrame bytes).isSome = true ↔
    ∃ (source kind length : Byte) (data : List Byte) (check : Byte),
      bytes = [0xC3, source, kind, length] ++ data ++ [check] ∧ data.length = length.toNat ∧ length.toNat ≤ 28 ∧
      byteSum (bytes.drop 1) % 256 = 0x5C ∧ allowedPayload kind.toNat data := by
  constructor
  · intro read
    obtain ⟨sync, total⟩ := readFrame_begins read
    obtain ⟨source, kind, length, data, check, rfl, size⟩ := exists_parts sync total
    rw [readFrame_parts source kind length check data size] at read
    split at read
    · rename_i good
      rw [Option.isSome_map] at read
      exact ⟨source, kind, length, data, check, rfl, size, good.1, good.2, (readPayload_isSome _ _).mp read⟩
    · cases read
  · rintro ⟨source, kind, length, data, check, rfl, size, short, sum, fits⟩
    rw [readFrame_parts source kind length check data size, if_pos ⟨short, sum⟩, Option.isSome_map]
    exact (readPayload_isSome _ _).mpr fits

/-- Settles O56: a frame's characters have its parts, and its payload is read back by its kind; a run of characters is
read exactly when it has the parts of a frame with a payload that its kind allows. -/
theorem framesReadBack : Obligations.FramesReadBack :=
  ⟨fun _ _ _ named fits => readFrame_frameBytes named fits, readFrame_isSome⟩

end Sys2Proof.Machine
end

section
/-!
# The end of an event: the marks, and the placing of frames

What the blocks tell one another and the wait service leave of the marks of the event (`Node.marks`); what each placing
of a frame keeps of the queue (`Stage`), so that a frame queued at its turn still stands at the end of the event.
-/

namespace Sys2Proof.Machine

/-! ## The marks of an event -/

@[simp] theorem marks_ask (n : Node) (i) (l) : (ask i l n).marks = n.marks := rfl
@[simp] theorem marks_setClaim (n : Node) (i) (c) : (n.setClaim i c).marks = n.marks := rfl
@[simp] theorem marks_wantWait (n : Node) : n.wantWait.marks = n.marks := rfl
@[simp] theorem marks_setPump (n : Node) (p) : (n.setPump p).marks = n.marks := rfl
@[simp] theorem marks_setFrost (n : Node) (f) : (n.setFrost f).marks = n.marks := rfl
@[simp] theorem marks_setHeater (n : Node) (h) : (n.setHeater h).marks = n.marks := rfl
@[simp] theorem marks_setLamps (n : Node) (l) : (n.setLamps l).marks = n.marks := rfl
@[simp] theorem marks_putClaim (n : Node) (i) (c) (w) : (n.putClaim i c w).marks = n.marks := rfl
@[simp] theorem marks_fileClaim (n : Node) (i cls w wait) : (fileClaim i cls w wait n).marks = n.marks := by
  obtain ⟨c, m, e⟩ := fileClaim_puts i cls w wait n
  rw [e, marks_putClaim]
@[simp] theorem marks_releaseClaim (n : Node) (i) : (releaseClaim i n).marks = n.marks := by
  obtain ⟨c, m, e⟩ := releaseClaim_puts i n
  rw [e, marks_putClaim]
@[simp] theorem marks_lightClaim (n : Node) (main w) : (lightClaim main w n).marks = n.marks := by
  obtain ⟨c, m, e⟩ := lightClaim_puts main w n
  rw [e, marks_putClaim]

theorem marks_heaterCheck (n : Node) : (heaterCheck n).marks = n.marks := by
  unfold heaterCheck standbyCheck startCheck ventCheck setReason; repeat' split
  all_goals simp

theorem marks_frostCheck (n : Node) : (frostCheck n).marks = n.marks := by
  unfold frostCheck frostEvaluate frostTo beginMove; dsimp only; repeat' split
  all_goals simp

theorem marks_pumpFile (c : PumpCfg) (n : Node) : (pumpFile c n).marks = n.marks := by
  unfold pumpFile pumpTo; split <;> simp

theorem marks_pumpStop (c : PumpCfg) (n : Node) : (pumpStop c n).marks = n.marks := by
  unfold pumpStop; dsimp only; split <;> simp

theorem marks_pumpEvaluate (c : PumpCfg) (n : Node) : (pumpEvaluate c n).marks = n.marks := by
  have start : (if n.view.shed < 2 then n.setPump { n.pump with toldShed := false } else n).marks = n.marks := by
    split <;> simp
  unfold pumpEvaluate pumpLow; dsimp only
  generalize (if n.view.shed < 2 then n.setPump { n.pump with toldShed := false } else n) = k at start ⊢
  repeat' split
  all_goals simp only [pumpTo, marks_pumpFile, marks_pumpStop, marks_setPump, start]

theorem marks_pumpCheck (n : Node) : (pumpCheck n).marks = n.marks := by
  unfold pumpCheck; split
  · rfl
  · exact marks_pumpEvaluate _ _

theorem marks_courtesyCheck (n : Node) : (courtesyCheck n).marks = n.marks := by
  obtain ⟨k, e⟩ := courtesyCheck_sets n
  rw [e]
  rfl

theorem marks_darken (rows : List (LightCfg × Light)) (n : Node) : (darken rows n).marks = n.marks := by
  unfold darken
  induction rows generalizing n with
  | nil => rfl
  | cons x rows ih =>
    rw [List.foldl_cons, ih]
    split <;> simp

theorem marks_lightsUpdate (n : Node) : (lightsUpdate n).marks = n.marks := by
  unfold lightsUpdate; dsimp only; split
  · rfl
  · simp [lightShare, marks_darken]

/-- The blocks tell one another without marks but that for the wait service. -/
theorem marks_propagate (n0 n : Node) : (propagate n0 n).marks = n.marks := by
  rw [propagate_eq, marks_lightsUpdate, toldCourtesy, ite_keeps Node.marks _ courtesyCheck _ (marks_courtesyCheck _),
    toldPump, ite_keeps Node.marks _ pumpCheck _ (marks_pumpCheck _), toldFrost,
    ite_keeps Node.marks _ frostCheck _ (marks_frostCheck _), toldHeater,
    ite_keeps Node.marks _ heaterCheck _ (marks_heaterCheck _)]

/-- The wait service adds the mark for a DRAW at most. -/
theorem serveWaits_ev (n : Node) : (serveWaits n).ev = n.ev ∨ (serveWaits n).ev = { n.ev with draw := true } := by
  have turn (p : Node × List (Fin 8)) (i : Fin 8) : (waitTurn p i).1.ev = p.1.ev := by
    unfold waitTurn; dsimp only; repeat' split
    all_goals rfl
  have fold : ∀ (l : List (Fin 8)) (p : Node × List (Fin 8)), (l.foldl waitTurn p).1.ev = p.1.ev := by
    intro l
    induction l with
    | nil => exact fun _ => rfl
    | cons x _ ih => exact fun p => (ih _).trans (turn p x)
  unfold serveWaits waitService; dsimp only; repeat' split
  · exact .inl (fold _ _)
  · exact .inr (by rw [Node.setEv]; exact congrArg (fun e : Event => { e with draw := true }) (fold _ _))
  · exact .inl rfl
  · exact .inl rfl

/-- The node of an event as its frames find it. -/
def told (n0 n : Node) : Node := serveWaits (propagate n0 n)

theorem finish_eq (n0 n : Node) : finish n0 n = restartCheck (queueFrames n0 (told n0 n)) := rfl

theorem told_keeps (n0 n : Node) : JobKeeps n (told n0 n) := by
  have ite (b : Bool) (f : Node → Node) (k : Node) (h : JobKeeps k (f k)) : JobKeeps k (if b then f k else k) := by
    split
    · exact h
    · exact JobKeeps.refl k
  have waits (k : Node) : JobKeeps k (serveWaits k) := by
    unfold serveWaits
    split
    · exact (JobKeeps.refl k).waitService
    · exact JobKeeps.refl k
  refine JobKeeps.trans ?_ (waits _)
  rw [propagate_eq]
  refine (((JobKeeps.trans ?_ (ite _ frostCheck _ (JobKeeps.refl _).frostCheck)).trans
    (ite _ pumpCheck _ (JobKeeps.refl _).pumpCheck)).trans
    (ite _ courtesyCheck _ (JobKeeps.refl _).courtesyCheck)).trans (JobKeeps.refl _).lightsUpdate
  exact ite _ heaterCheck _ (JobKeeps.refl _).heaterCheck

theorem told_core (n0 n : Node) : (told n0 n).core = n.core :=
  (core_of_rest (rest_serveWaits _)).trans (core_propagate n0 n)

/-- The marks for the frames of a kind other than DRAW stand as the effect left them. -/
theorem told_marks (n0 n : Node) : { (told n0 n).ev with wait := false, draw := false } = { n.ev with wait := false, draw := false } := by
  have kept : { (propagate n0 n).ev with wait := false } = { n.ev with wait := false } := marks_propagate n0 n
  have both : { (propagate n0 n).ev with wait := false, draw := false } = { n.ev with wait := false, draw := false } :=
    congrArg (fun e : Event => { e with draw := false }) kept
  rcases serveWaits_ev (propagate n0 n) with h | h
  · rw [told, h, both]
  · rw [told, h, ← both]

theorem told_mark {α : Type} (look : Event → α) (n0 n : Node)
    (reads : ∀ e : Event, look { e with wait := false, draw := false } = look e) :
    look (told n0 n).ev = look n.ev := by
  rw [← reads, told_marks, reads]

theorem told_draw {n0 n : Node} (h : n.ev.draw = true) : (told n0 n).ev.draw = true := by
  have kept : (propagate n0 n).marks.draw = n.marks.draw := congrArg Event.draw (marks_propagate n0 n)
  have kept : (propagate n0 n).ev.draw = n.ev.draw := kept
  rcases serveWaits_ev (propagate n0 n) with e | e
  · rw [told, e, kept, h]
  · rw [told, e]

/-! ## The queue under a placing -/

/-- The entries have ids of their own, and the next id is new. -/
structure OwnIds (t : Transmitter) : Prop where
  nodup : (t.queue.map (·.id)).Nodup
  below : ∀ e ∈ t.queue, e.id < t.nextId

theorem OwnIds.of_fits {n : Node} (h : queueFits n = true) : OwnIds n.tx := by
  obtain ⟨-, nodup, below, -⟩ := (Fit.queue_iff n).mp h
  exact ⟨nodup, below⟩

theorem OwnIds.nil {t : Transmitter} (h : t.queue = []) : OwnIds t := ⟨by simp [h], by simp [h]⟩

theorem OwnIds.one {t : Transmitter} {e : TxEntry} (h : t.queue = [e]) (below : e.id < t.nextId) : OwnIds t :=
  ⟨by simp [h], by simpa [h] using below⟩

/-- What placing frames of some kinds keeps of a queue. -/
structure Queues (kinds : List Kind) (t u : Transmitter) : Prop where
  longer : t.queue.length ≤ u.queue.length
  shorter : u.queue.length ≤ t.queue.length + kinds.length
  own : OwnIds t → OwnIds u
  entry : ∀ e ∈ t.queue, OwnIds t → kindOf e.frame ∉ kinds → (isAnswer e = false ∨ u.queue.length < 6) → e ∈ u.queue
  ids : ∀ e ∈ t.queue, u.queue.length < 6 → ∃ e' ∈ u.queue, e'.id = e.id
  attempt : u.attempt = t.attempt

namespace Queues
variable {ks ls : List Kind} {t u v : Transmitter}

theorem refl (t : Transmitter) : Queues [] t t :=
  ⟨le_refl _, le_refl _, fun o => o, fun _ m _ _ _ => m, fun e m _ => ⟨e, m, rfl⟩, rfl⟩

theorem trans (h : Queues ks t u) (k : Queues ls u v) : Queues (ks ++ ls) t v where
  longer := h.longer.trans k.longer
  shorter := by
    have := h.shorter
    have := k.shorter
    rw [List.length_append]
    omega
  own := fun o => k.own (h.own o)
  entry := fun e m o other safe => by
    rw [List.mem_append, not_or] at other
    have := k.longer
    exact k.entry e (h.entry e m o other.1 (safe.imp_right fun l => by omega)) (h.own o) other.2 safe
  ids := fun e m short => by
    have := k.longer
    obtain ⟨e', m', same⟩ := h.ids e m (by omega)
    obtain ⟨e'', m'', same'⟩ := k.ids e' m' short
    exact ⟨e'', m'', same'.trans same⟩
  attempt := k.attempt.trans h.attempt

theorem weaken {k : Kind} (h : Queues [] t u) : Queues [k] t u where
  longer := h.longer
  shorter := h.shorter.trans (Nat.le_succ _)
  own := h.own
  entry := fun e m o _ => h.entry e m o (by simp)
  ids := h.ids
  attempt := h.attempt
end Queues

/-- The queue after an entry has been appended to a part of it. -/
theorem queues_append {t : Transmitter} {q : List TxEntry} (f : Frame) (part : q.Sublist t.queue)
    (short : t.queue.length ≤ q.length + 1) (kept : ∀ e ∈ t.queue, isAnswer e = false ∨ q.length + 1 < 6 → e ∈ q) :
    Queues [kindOf f] t { t with queue := q ++ [{ id := t.nextId, frame := f }], nextId := t.nextId + 1 } := by
  have size : (q ++ [({ id := t.nextId, frame := f } : TxEntry)]).length = q.length + 1 := by simp
  have less := part.length_le
  refine ⟨by rw [size]; exact short, by rw [size, List.length_singleton]; omega, fun o => ⟨?_, ?_⟩,
    fun e m _ _ safe => List.mem_append_left _ (kept e m (by rwa [size] at safe)), fun e m room => ?_, rfl⟩
  · have below : ∀ i ∈ q.map (·.id), i ≠ t.nextId := fun i m => by
      obtain ⟨e, me, rfl⟩ := List.mem_map.mp m
      exact Nat.ne_of_lt (o.below e (part.subset me))
    simp only [List.map_append, List.map_cons, List.map_nil]
    exact List.nodup_append.mpr ⟨(part.map _).nodup o.nodup, List.nodup_singleton _,
      fun i m j mj => List.mem_singleton.mp mj ▸ below i m⟩
  · intro e m
    rcases List.mem_append.mp m with old | new
    · exact Nat.lt_succ_of_lt (o.below e (part.subset old))
    · rw [List.mem_singleton.mp new]
      exact Nat.lt_succ_self _
  · rw [size] at room
    exact ⟨e, List.mem_append_left _ (kept e m (.inr room)), rfl⟩

theorem queues_replace {t : Transmitter} {e : TxEntry} {f : Frame} (he : e ∈ t.queue)
    (same : kindOf e.frame = kindOf f) : Queues [kindOf f] t { t with queue := replaceFrame e.id f t.queue } := by
  have size : (replaceFrame e.id f t.queue).length = t.queue.length := by simp [replaceFrame]
  have ids : (replaceFrame e.id f t.queue).map (·.id) = t.queue.map (·.id) := by
    simp only [replaceFrame, List.map_map]
    refine List.map_congr_left fun x _ => ?_
    simp only [Function.comp]
    split <;> rfl
  refine ⟨by rw [size], by rw [size]; exact Nat.le_succ _, fun o => ⟨by rw [ids]; exact o.nodup, fun x m => ?_⟩,
    fun x m o other _ => ?_, fun x m _ => ?_, rfl⟩
  · have : x.id ∈ t.queue.map (·.id) := ids ▸ List.mem_map_of_mem m
    obtain ⟨y, my, hy⟩ := List.mem_map.mp this
    exact hy ▸ o.below y my
  · have apart : x.id ≠ e.id := fun h => by
      have : x = e := List.inj_on_of_nodup_map o.nodup m he h
      rw [this, same] at other
      simp at other
    exact List.mem_map.mpr ⟨x, m, if_neg apart⟩
  · have : x.id ∈ (replaceFrame e.id f t.queue).map (·.id) := ids ▸ List.mem_map_of_mem m
    obtain ⟨y, my, hy⟩ := List.mem_map.mp this
    exact ⟨y, my, hy⟩

theorem lastOfKind_some {k : Kind} {q : List TxEntry} {e : TxEntry} (h : lastOfKind k q = some e) :
    e ∈ q ∧ kindOf e.frame = k := by
  have found := List.mem_of_find?_eq_some h
  have test := List.find?_some h
  exact ⟨List.mem_reverse.mp found, by simpa using test⟩

theorem dropYoungest_keeps {q rest : List TxEntry} (h : dropYoungest q = some rest) :
    q.length = rest.length + 1 ∧ ∀ e ∈ q, isAnswer e = false → e ∈ rest := by
  induction q generalizing rest with
  | nil => cases h
  | cons x q ih =>
    simp only [dropYoungest] at h
    split at h
    · rename_i rest' found
      cases h
      obtain ⟨size, kept⟩ := ih found
      refine ⟨by simp [size], fun e m plain => ?_⟩
      rcases List.mem_cons.mp m with rfl | m
      · exact List.mem_cons_self
      · exact List.mem_cons_of_mem _ (kept e m plain)
    · split at h
      · rename_i answer
        cases h
        refine ⟨rfl, fun e m plain => ?_⟩
        rcases List.mem_cons.mp m with rfl | m
        · rw [answer] at plain
          cases plain
        · exact m
      · cases h

/-- A placing writes the transmitter and the count of drops. -/
theorem placePeriodic_queues (f : Frame) (n : Node) : Queues [kindOf f] n.tx (placePeriodic f n).1.tx := by
  unfold placePeriodic
  split
  · rename_i e found
    obtain ⟨m, same⟩ := lastOfKind_some found
    exact queues_replace (queuedPart_mem m) same
  split
  · rename_i room
    exact queues_append f (List.Sublist.refl _) (Nat.le_succ _) fun e m _ => m
  · rename_i full
    split
    · rename_i rest found
      obtain ⟨size, kept⟩ := dropYoungest_keeps found
      have part : (lockedPart n.tx ++ rest).Sublist n.tx.queue := by
        conv_rhs => rw [← Fit.locked_queued n.tx]
        exact (List.Sublist.refl _).append (Fit.dropYoungest_sublist found).1
      have length : n.tx.queue.length = (lockedPart n.tx ++ rest).length + 1 := by
        rw [← Fit.locked_queued n.tx, List.length_append, List.length_append, size]
        omega
      refine queues_append (t := (bump .queueDrops n).tx) f part length.le fun e m safe => ?_
      have plain : isAnswer e = false := safe.resolve_right fun short => full (length ▸ short)
      have m : e ∈ lockedPart n.tx ++ queuedPart n.tx := by rw [Fit.locked_queued]; exact m
      rcases List.mem_append.mp m with m | m
      · exact List.mem_append_left _ m
      · exact List.mem_append_right _ (kept e m plain)
    · exact (Queues.refl n.tx).weaken

theorem placeAnswer_queues (f : Frame) (n : Node) : Queues [kindOf f] n.tx (placeAnswer f n).1.tx := by
  unfold placeAnswer
  split
  · exact queues_append f (List.Sublist.refl _) (Nat.le_succ _) fun e m _ => m
  · exact (Queues.refl n.tx).weaken

/-- With room in the queue the frame stands in it. -/
theorem placePeriodic_stands {f : Frame} {n : Node} (room : n.tx.queue.length < 6) :
    ∃ e ∈ (placePeriodic f n).1.tx.queue, e.frame = f ∧ (placePeriodic f n).2 = some e.id := by
  unfold placePeriodic
  split
  · rename_i e found
    refine ⟨{ e with frame := f }, ?_, rfl, rfl⟩
    exact List.mem_map.mpr ⟨e, queuedPart_mem (lastOfKind_some found).1, if_pos rfl⟩
  rw [if_pos (show n.tx.queue.length < queueLimit from room)]
  exact ⟨{ id := n.tx.nextId, frame := f }, List.mem_append_right _ (List.mem_singleton_self _), rfl, rfl⟩

theorem placeAnswer_stands {f : Frame} {n : Node} (room : n.tx.queue.length < 6) :
    ∃ e ∈ (placeAnswer f n).1.tx.queue, e.frame = f ∧ (placeAnswer f n).2 = some e.id := by
  rw [placeAnswer_appends room]
  exact ⟨{ id := n.tx.nextId, frame := f }, List.mem_append_right _ (List.mem_singleton_self _), rfl, rfl⟩

end Sys2Proof.Machine
end

section
/-!
# The end of an event: the frames of each kind

Each turn of `queueFrames` either changes nothing or places the frame of its kind (`Stage`, `Sends`); what a turn reads of
the node no other turn writes.
-/

namespace Sys2Proof.Machine

/-! ## One turn -/

/-- The node with its transmitter, its moments of publication, its claims and its counters written. -/
def Node.putTail (n : Node) (t : Transmitter) (p : Published) (c : Vector Claim 8) (w : Vector Nat 12) : Node :=
  { n with tx := t, pub := p, claims := c, cmd := { n.cmd with counters := w } }

/-- The moment at which a kind was published last. -/
def Published.moment (p : Published) : Kind → Option Nat
  | .presence => p.presence | .draw => p.draw | .allowance => p.allowance | .tanks => p.tanks | .climate => p.climate
  | .motion => p.motion | .lights => p.lights | .command | .reply | .report => none

/-- `m` comes from `n` by turns that may place frames of some kinds. -/
structure Stage (kinds : List Kind) (n m : Node) : Prop where
  shape : m = n.putTail m.tx m.pub m.claims m.cmd.counters
  queue : Queues kinds n.tx m.tx
  moment : ∀ k ∉ kinds, m.pub.moment k = n.pub.moment k
  listed : .draw ∉ kinds → m.claims = n.claims ∧ m.pub.list = n.pub.list

namespace Stage
variable {ks ls : List Kind} {n m o : Node}

theorem refl (n : Node) : Stage [] n n := ⟨rfl, Queues.refl _, fun _ _ => rfl, fun _ => ⟨rfl, rfl⟩⟩

theorem trans (h : Stage ks n m) (k : Stage ls m o) : Stage (ks ++ ls) n o where
  shape := by
    have e := k.shape
    rw [h.shape] at e
    exact e
  queue := h.queue.trans k.queue
  moment := fun i other => by
    rw [List.mem_append, not_or] at other
    exact (k.moment i other.2).trans (h.moment i other.1)
  listed := fun other => by
    rw [List.mem_append, not_or] at other
    obtain ⟨claims, list⟩ := h.listed other.1
    obtain ⟨claims', list'⟩ := k.listed other.2
    exact ⟨claims'.trans claims, list'.trans list⟩

theorem weaken {k : Kind} (h : Stage [] n m) : Stage [k] n m where
  shape := h.shape
  queue := h.queue.weaken
  moment := fun i _ => h.moment i (by simp)
  listed := fun _ => h.listed (by simp)

theorem now (h : Stage ks n m) : m.now = n.now := by
  rw [h.shape]
  rfl

theorem ev (h : Stage ks n m) : m.ev = n.ev := by
  rw [h.shape]
  rfl
end Stage

theorem placePeriodic_shape (f : Frame) (n : Node) :
    ∃ t w, (placePeriodic f n).1 = n.putTail t n.pub n.claims w := by
  unfold placePeriodic
  repeat' split
  all_goals exact ⟨_, _, rfl⟩

theorem placeAnswer_shape (f : Frame) (n : Node) : ∃ t w, (placeAnswer f n).1 = n.putTail t n.pub n.claims w := by
  unfold placeAnswer
  split
  all_goals exact ⟨_, _, rfl⟩

/-- Placing a frame, whatever its kind's moment becomes. -/
theorem stage_place {f : Frame} {n : Node} (mark : Published → Published)
    (other : ∀ p, ∀ k, k ≠ kindOf f → (mark p).moment k = p.moment k) (list : kindOf f ≠ .draw → ∀ p, (mark p).list = p.list) :
    Stage [kindOf f] n ((placePeriodic f n).1.setPub (mark (placePeriodic f n).1.pub)) := by
  have queue := placePeriodic_queues f n
  obtain ⟨t, w, shape⟩ := placePeriodic_shape f n
  rw [shape] at queue ⊢
  exact ⟨rfl, queue, fun k h => other n.pub k (by simpa using h), fun h => ⟨rfl, list (fun e => h (e ▸ List.mem_singleton_self _)) n.pub⟩⟩

theorem stage_answer (f : Frame) (n : Node) (other : kindOf f ≠ .draw) : Stage [kindOf f] n (placeAnswer f n).1 := by
  have queue := placeAnswer_queues f n
  obtain ⟨t, w, shape⟩ := placeAnswer_shape f n
  rw [shape] at queue ⊢
  exact ⟨rfl, queue, fun k h => rfl, fun _ => ⟨rfl, rfl⟩⟩

/-- The kind's moment is this one, and with room in the queue its frame stands in it. -/
structure Sends (f : Frame) (n m : Node) : Prop where
  moment : m.pub.moment (kindOf f) = some n.now
  stands : n.tx.queue.length < 6 → ∃ e ∈ m.tx.queue, e.frame = f

theorem sends_place {f : Frame} {n : Node} (mark : Published → Published)
    (own : ∀ p, (mark p).moment (kindOf f) = some n.now) :
    Sends f n ((placePeriodic f n).1.setPub (mark (placePeriodic f n).1.pub)) :=
  ⟨own _, fun room => by
    obtain ⟨e, m, same, -⟩ := placePeriodic_stands (f := f) room
    exact ⟨e, m, same⟩⟩

theorem now_placePeriodic (f : Frame) (n : Node) : (placePeriodic f n).1.now = n.now := by
  obtain ⟨t, w, shape⟩ := placePeriodic_shape f n
  rw [shape]
  rfl

theorem isAnswer_of_periodic {e : TxEntry} (h : isPeriodic (kindOf e.frame) = true) : isAnswer e = false := by
  refine isAnswer_eq_false ⟨fun is => ?_, fun is => ?_⟩
  · rw [is] at h
    cases h
  · rw [is] at h
    cases h

/-- A frame that was sent still stands after turns for other kinds. -/
theorem Sends.after {f : Frame} {ls : List Kind} {n m o : Node} (h : Sends f n m) (later : Stage ls m o)
    (other : kindOf f ∉ ls) (plain : isPeriodic (kindOf f) = true) (own : OwnIds m.tx) : Sends f n o where
  moment := (later.moment _ other).trans h.moment
  stands := fun room => by
    obtain ⟨e, m, rfl⟩ := h.stands room
    exact ⟨e, later.queue.entry e m own other (.inl (isAnswer_of_periodic plain)), rfl⟩

/-! ## The turns, kind by kind -/

/-- A PRESENCE is owed at the turn for it (R34). -/
def presenceOwed (n0 n : Node) : Bool :=
  sendsPresence n && (n.ev.presence || entered n0 n || n.ownTravel != n0.ownTravel || n.ownWind != n0.ownWind)

/-- A DRAW is owed at the turn for it (R52). -/
def drawOwed (n0 n : Node) : Bool := sendsDraw n && (n.ev.draw || entered n0 n || broadcastList n != n.pub.list)

/-- An ALLOWANCE is owed at the turn for it (R27). -/
def allowanceOwed (n0 n : Node) : Bool := n.isActive && n.has .battery && (n.ev.allowance || entered n0 n)

/-- A TANKS is owed at the turn for it (R85). -/
def tanksOwed (n0 n : Node) : Bool :=
  n.isActive && (n.has .tanks || n.has .frost) &&
    (n.ev.tanks || entered n0 n || tankMarks n != tankMarks n0 || n.frost.state != n0.frost.state)

/-- A CLIMATE is owed at the turn for it (R130). -/
def climateOwed (n0 n : Node) : Bool :=
  n.isActive && (n.ev.climate || entered n0 n || climateMarks n != climateMarks n0)

/-- A MOTION is owed at the turn for it (R152). -/
def motionOwed (n0 n : Node) : Bool :=
  n.isActive && hasMotion n && (n.ev.motion || entered n0 n || motionMarks n != motionMarks n0)

/-- A LIGHTS is owed at the turn for it (R168). -/
def lightsOwed (n0 n : Node) : Bool :=
  n.isActive && n.has .lights && (n.ev.lights || entered n0 n || lightMarks n != lightMarks n0)

section
variable {n0 n : Node}

theorem queuePresence_owed (h : presenceOwed n0 n = true) : let f := Frame.presence (presenceBody n)
    Stage [.presence] n (queuePresence n0 n) ∧ Sends f n (queuePresence n0 n) := by
  have turn : queuePresence n0 n = _ := if_pos h
  rw [turn]
  exact ⟨stage_place (f := .presence _) (fun p => { p with presence := some _ })
      (fun p k other => by cases k with | presence => exact absurd rfl other | _ => rfl) fun _ _ => rfl,
    sends_place (fun p => { p with presence := some _ }) fun p => congrArg some (now_placePeriodic _ n)⟩

theorem queuePresence_free (h : presenceOwed n0 n = false) : queuePresence n0 n = n :=
  if_neg (Bool.eq_false_iff.mp h)

theorem queueAllowance_owed (h : allowanceOwed n0 n = true) : Stage [.allowance] n (queueAllowance n0 n) ∧
    (queueAllowance n0 n).pub.allowance = some n.now ∧
    ∀ b, allowanceBody n = some b → Sends (.allowance b) n (queueAllowance n0 n) := by
  have turn : queueAllowance n0 n = _ := if_pos h
  rw [turn]
  cases body : allowanceBody n with
  | none =>
    exact ⟨⟨rfl, (Queues.refl n.tx).weaken, fun k other => by
      cases k with | allowance => exact absurd (List.mem_singleton_self _) other | _ => rfl, fun _ => ⟨rfl, rfl⟩⟩, rfl,
      fun b h => nomatch h⟩
  | some b =>
    have sends := sends_place (f := .allowance b) (n := n)
      (fun p => { p with allowance := some (placePeriodic (.allowance b) n).1.now })
      fun p => congrArg some (now_placePeriodic (.allowance b) n)
    refine ⟨stage_place (f := .allowance b) (fun p => { p with allowance := some _ })
      (fun p k other => by cases k with | allowance => exact absurd rfl other | _ => rfl) fun _ _ => rfl,
      sends.moment, fun b' h => ?_⟩
    cases h
    exact sends

theorem queueAllowance_free (h : allowanceOwed n0 n = false) : queueAllowance n0 n = n :=
  if_neg (Bool.eq_false_iff.mp h)

theorem queueTanks_owed (h : tanksOwed n0 n = true) : let f := Frame.tanks (tankMarks n) (frostPart n)
    Stage [.tanks] n (queueTanks n0 n) ∧ Sends f n (queueTanks n0 n) := by
  have turn : queueTanks n0 n = _ := if_pos h
  rw [turn]
  exact ⟨stage_place (f := .tanks _ _) (fun p => { p with tanks := some _ })
      (fun p k other => by cases k with | tanks => exact absurd rfl other | _ => rfl) fun _ _ => rfl,
    sends_place (fun p => { p with tanks := some _ }) fun p => congrArg some (now_placePeriodic _ n)⟩

theorem queueTanks_free (h : tanksOwed n0 n = false) : queueTanks n0 n = n := if_neg (Bool.eq_false_iff.mp h)

theorem queueClimate_owed {c : HeaterCfg} (cfg : n.heaterCfg = some c) (h : climateOwed n0 n = true) :
    let f := Frame.climate (climateBody c n)
    Stage [.climate] n (queueClimate n0 n) ∧ Sends f n (queueClimate n0 n) := by
  have turn : queueClimate n0 n = (placePeriodic (.climate (climateBody c n)) n).1.setPub
      { (placePeriodic (.climate (climateBody c n)) n).1.pub with
        climate := some (placePeriodic (.climate (climateBody c n)) n).1.now } := by
    unfold queueClimate
    rw [cfg]
    exact if_pos h
  rw [turn]
  exact ⟨stage_place (f := .climate _) (fun p => { p with climate := some _ })
      (fun p k other => by cases k with | climate => exact absurd rfl other | _ => rfl) fun _ _ => rfl,
    sends_place (fun p => { p with climate := some _ }) fun p => congrArg some (now_placePeriodic _ n)⟩

theorem queueClimate_free (h : n.heaterCfg = none ∨ climateOwed n0 n = false) : queueClimate n0 n = n := by
  unfold queueClimate
  split
  · rfl
  · rename_i c cfg
    rcases h with h | h
    · rw [h] at cfg
      cases cfg
    · exact if_neg (Bool.eq_false_iff.mp h)

theorem queueMotion_owed (h : motionOwed n0 n = true) :
    Stage [.motion] n (queueMotion n0 n) ∧ Sends (motionFrame n) n (queueMotion n0 n) := by
  have turn : queueMotion n0 n = _ := if_pos h
  rw [turn]
  exact ⟨stage_place (f := motionFrame n) (fun p => { p with motion := some _ })
      (fun p k other => by cases k with | motion => exact absurd rfl other | _ => rfl) fun _ _ => rfl,
    sends_place (f := motionFrame n) (fun p => { p with motion := some _ })
      fun p => congrArg some (now_placePeriodic _ n)⟩

theorem queueMotion_free (h : motionOwed n0 n = false) : queueMotion n0 n = n := if_neg (Bool.eq_false_iff.mp h)

theorem queueLights_owed (h : lightsOwed n0 n = true) : let f := Frame.lights (n.lights.channels.map lightBody)
    Stage [.lights] n (queueLights n0 n) ∧ Sends f n (queueLights n0 n) := by
  have turn : queueLights n0 n = _ := if_pos h
  rw [turn]
  exact ⟨stage_place (f := .lights _) (fun p => { p with lights := some _ })
      (fun p k other => by cases k with | lights => exact absurd rfl other | _ => rfl) fun _ _ => rfl,
    sends_place (fun p => { p with lights := some _ }) fun p => congrArg some (now_placePeriodic _ n)⟩

theorem queueLights_free (h : lightsOwed n0 n = false) : queueLights n0 n = n := if_neg (Bool.eq_false_iff.mp h)

/-! ### DRAW -/

theorem carriedBy_rewrites (entry : Nat) (n : Node) :
    Rewrites (travels none) (fun c => { c with carrier := some entry }) n (carriedBy entry n) :=
  foldl_travels (fun _ c => { c with carrier := some entry }) (fun _ _ => rfl) n

/-- What carries a claim is no part of the broadcast list. -/
theorem broadcastList_carried {p : Claim → Prop} {n m : Node} {v : Option Nat}
    (h : Rewrites p (fun c => { c with carrier := v }) n m) :
    broadcastList m = broadcastList n := by
  unfold broadcastList
  refine List.filterMap_congr fun i _ => ?_
  by_cases meets : p (n.claim i)
  · rw [h.meets i meets]
    rfl
  · rw [h.other i meets]

/-- What carries a claim is no part of a turn's other effects. -/
theorem Stage.rewrites {p : Claim → Prop} {f : Claim → Claim} {n m o : Node} (h : Stage [.draw] n m)
    (k : Rewrites p f m o) : Stage [.draw] n o := by
  obtain ⟨shape, queue, moment, listed⟩ := h
  rw [k.frame]
  exact ⟨by rw [shape]; rfl, queue, moment, fun other => absurd (List.mem_singleton_self _) other⟩

theorem Sends.rewrites {p : Claim → Prop} {g : Claim → Claim} {f : Frame} {n m o : Node} (h : Sends f n m)
    (k : Rewrites p g m o) : Sends f n o := by
  rw [k.frame]
  exact ⟨h.moment, h.stands⟩

/-- The node with the DRAW placed, before its claims are carried. -/
def drawPlaced (n : Node) : Node :=
  let r := placePeriodic (.draw (broadcastList n)) n
  r.1.setPub { r.1.pub with draw := some r.1.now, list := broadcastList n }

theorem queueDraw_owed (h : drawOwed n0 n = true) :
    Stage [.draw] n (queueDraw n0 n) ∧ Sends (.draw (broadcastList n)) n (queueDraw n0 n) ∧
    (n.tx.queue.length < 6 → broadcastList (queueDraw n0 n) = broadcastList n) := by
  have stage : Stage [.draw] n (drawPlaced n) := stage_place (f := .draw (broadcastList n))
    (fun p => { p with draw := some _, list := broadcastList n })
    (fun p k other => by cases k with | draw => exact absurd rfl other | _ => rfl) fun no => absurd rfl no
  have sends : Sends (.draw (broadcastList n)) n (drawPlaced n) := sends_place (f := .draw (broadcastList n))
    (fun p => { p with draw := some _, list := broadcastList n })
    fun p => congrArg some (now_placePeriodic (.draw (broadcastList n)) n)
  have claims : broadcastList (drawPlaced n) = broadcastList n := by
    obtain ⟨t, w, shape⟩ := placePeriodic_shape (.draw (broadcastList n)) n
    rw [drawPlaced, shape]
    rfl
  have turn : queueDraw n0 n = match (placePeriodic (.draw (broadcastList n)) n).2 with
      | some entry => carriedBy entry (drawPlaced n)
      | none => carrierGivenUp none (drawPlaced n) := if_pos h
  rw [turn]
  cases place : (placePeriodic (.draw (broadcastList n)) n).2 with
  | some entry =>
    have carried := carriedBy_rewrites entry (drawPlaced n)
    exact ⟨stage.rewrites carried, sends.rewrites carried, fun _ => (broadcastList_carried carried).trans claims⟩
  | none =>
    have given := carrierGivenUp_rewrites none (drawPlaced n)
    refine ⟨stage.rewrites given, sends.rewrites given, fun room => ?_⟩
    obtain ⟨e, -, -, placed⟩ := placePeriodic_stands (f := .draw (broadcastList n)) room
    rw [place] at placed
    cases placed

theorem queueDraw_free (h : drawOwed n0 n = false) : queueDraw n0 n = n := if_neg (Bool.eq_false_iff.mp h)
end

end Sys2Proof.Machine
end

section
/-!
# The end of an event: from the turns to the queue that an event leaves

The turns follow one another in the order of the kinds. A frame that is owed where its turn finds the node stands in the
queue at the end, unless the queue was full at its turn (`Passes`).
-/

namespace Sys2Proof.Machine

/-- The kinds of a turn: its own when its frame is owed. -/
def turnOf (owed : Bool) (k : Kind) : List Kind := if owed then [k] else []

theorem mem_turnOf {owed : Bool} {k j : Kind} (h : j ∈ turnOf owed k) : j = k := by
  unfold turnOf at h
  split at h
  · exact List.mem_singleton.mp h
  · cases h

/-- The frames of the periodic kinds, in the order of R187. -/
def queuePeriodic (n0 n : Node) : Node :=
  queueLights n0 (queueMotion n0 (queueClimate n0 (queueTanks n0 (queueAllowance n0 (queueDraw n0 (queuePresence n0 n))))))

theorem queueFrames_eq (n0 n : Node) : queueFrames n0 n = queueReport (queueReply (queuePeriodic n0 n)) := rfl

/-! ## A turn reads nothing that another writes -/

section
variable (n0 n : Node) (t : Transmitter) (p : Published) (c : Vector Claim 8) (w : Vector Nat 12)

theorem presenceOwed_putTail : presenceOwed n0 (n.putTail t p c w) = presenceOwed n0 n := rfl
theorem allowanceOwed_putTail : allowanceOwed n0 (n.putTail t p c w) = allowanceOwed n0 n := rfl
theorem tanksOwed_putTail : tanksOwed n0 (n.putTail t p c w) = tanksOwed n0 n := rfl
theorem climateOwed_putTail : climateOwed n0 (n.putTail t p c w) = climateOwed n0 n := rfl
theorem motionOwed_putTail : motionOwed n0 (n.putTail t p c w) = motionOwed n0 n := rfl
theorem lightsOwed_putTail : lightsOwed n0 (n.putTail t p c w) = lightsOwed n0 n := rfl
theorem heaterCfg_putTail : (n.putTail t p c w).heaterCfg = n.heaterCfg := rfl
theorem drawOwed_putTail (list : p.list = n.pub.list) : drawOwed n0 (n.putTail t p n.claims w) = drawOwed n0 n := by
  unfold drawOwed
  rw [show (n.putTail t p n.claims w).pub.list = n.pub.list from list]
  rfl
end

/-! ## The turns at the node that the first one found -/

section
variable {n0 n m : Node} {ks : List Kind}

theorem turn_presence (n0 n : Node) : Stage (turnOf (presenceOwed n0 n) .presence) n (queuePresence n0 n) := by
  cases h : presenceOwed n0 n with
  | true => exact (queuePresence_owed h).1
  | false => rw [queuePresence_free h]; exact Stage.refl n

theorem turn_draw (before : Stage ks n m) (other : .draw ∉ ks) :
    Stage (turnOf (drawOwed n0 n) .draw) m (queueDraw n0 m) := by
  have same : drawOwed n0 m = drawOwed n0 n := by
    obtain ⟨claims, list⟩ := before.listed other
    rw [before.shape, claims]
    exact drawOwed_putTail n0 n _ _ _ list
  rw [← same]
  cases h : drawOwed n0 m with
  | true => exact (queueDraw_owed h).1
  | false => rw [queueDraw_free h]; exact Stage.refl m

theorem turn_allowance (before : Stage ks n m) :
    Stage (turnOf (allowanceOwed n0 n) .allowance) m (queueAllowance n0 m) := by
  have same : allowanceOwed n0 m = allowanceOwed n0 n := by rw [before.shape]; rfl
  rw [← same]
  cases h : allowanceOwed n0 m with
  | true => exact (queueAllowance_owed h).1
  | false => rw [queueAllowance_free h]; exact Stage.refl m

theorem turn_tanks (before : Stage ks n m) : Stage (turnOf (tanksOwed n0 n) .tanks) m (queueTanks n0 m) := by
  have same : tanksOwed n0 m = tanksOwed n0 n := by rw [before.shape]; rfl
  rw [← same]
  cases h : tanksOwed n0 m with
  | true => exact (queueTanks_owed h).1
  | false => rw [queueTanks_free h]; exact Stage.refl m

theorem turn_climate (before : Stage ks n m) :
    Stage (turnOf (climateOwed n0 n) .climate) m (queueClimate n0 m) := by
  have same : climateOwed n0 m = climateOwed n0 n := by rw [before.shape]; rfl
  rw [← same]
  cases h : climateOwed n0 m with
  | true =>
    cases cfg : m.heaterCfg with
    | none => rw [queueClimate_free (.inl cfg)]; exact (Stage.refl m).weaken
    | some c => exact (queueClimate_owed cfg h).1
  | false => rw [queueClimate_free (.inr h)]; exact Stage.refl m

theorem turn_motion (before : Stage ks n m) : Stage (turnOf (motionOwed n0 n) .motion) m (queueMotion n0 m) := by
  have same : motionOwed n0 m = motionOwed n0 n := by rw [before.shape]; rfl
  rw [← same]
  cases h : motionOwed n0 m with
  | true => exact (queueMotion_owed h).1
  | false => rw [queueMotion_free h]; exact Stage.refl m

theorem turn_lights (before : Stage ks n m) : Stage (turnOf (lightsOwed n0 n) .lights) m (queueLights n0 m) := by
  have same : lightsOwed n0 m = lightsOwed n0 n := by rw [before.shape]; rfl
  rw [← same]
  cases h : lightsOwed n0 m with
  | true => exact (queueLights_owed h).1
  | false => rw [queueLights_free h]; exact Stage.refl m
end

/-! ## The turns in order -/

/-- The turn of a place in the order. -/
def turnAt (n0 : Node) : Nat → Node → Node
  | 0 => queuePresence n0
  | 1 => queueDraw n0
  | 2 => queueAllowance n0
  | 3 => queueTanks n0
  | 4 => queueClimate n0
  | 5 => queueMotion n0
  | 6 => queueLights n0
  | _ => id

/-- The node after some turns. -/
def turned (n0 n : Node) : Nat → Node
  | 0 => n
  | i + 1 => turnAt n0 i (turned n0 n i)

theorem queuePeriodic_eq (n0 n : Node) : queuePeriodic n0 n = turned n0 n 7 := rfl

/-- The kinds of the turn of a place. -/
def kindsAt (n0 n : Node) : Nat → List Kind
  | 0 => turnOf (presenceOwed n0 n) .presence
  | 1 => turnOf (drawOwed n0 n) .draw
  | 2 => turnOf (allowanceOwed n0 n) .allowance
  | 3 => turnOf (tanksOwed n0 n) .tanks
  | 4 => turnOf (climateOwed n0 n) .climate
  | 5 => turnOf (motionOwed n0 n) .motion
  | 6 => turnOf (lightsOwed n0 n) .lights
  | _ => []

/-- The kinds of some turns from a place on. -/
def kindsFrom (n0 n : Node) (i : Nat) : Nat → List Kind
  | 0 => []
  | k + 1 => kindsFrom n0 n i k ++ kindsAt n0 n (i + k)

section
variable (n0 n : Node)

theorem draw_late {n0 n : Node} : Kind.draw ∉ kindsFrom n0 n 0 1 := fun h => by
  cases mem_turnOf h

theorem turnAt_stage (i : Nat) (before : Stage (kindsFrom n0 n 0 i) n (turned n0 n i)) :
    Stage (kindsAt n0 n i) (turned n0 n i) (turned n0 n (i + 1)) := by
  match i with
  | 0 => exact turn_presence n0 n
  | 1 => exact turn_draw before draw_late
  | 2 => exact turn_allowance before
  | 3 => exact turn_tanks before
  | 4 => exact turn_climate before
  | 5 => exact turn_motion before
  | 6 => exact turn_lights before
  | i + 7 => exact Stage.refl _

theorem turned_before (i : Nat) : Stage (kindsFrom n0 n 0 i) n (turned n0 n i) := by
  induction i with
  | zero => exact Stage.refl n
  | succ i ih =>
    rw [kindsFrom, Nat.zero_add]
    exact ih.trans (turnAt_stage n0 n i ih)

theorem turned_after (i k : Nat) : Stage (kindsFrom n0 n i k) (turned n0 n i) (turned n0 n (i + k)) := by
  induction k with
  | zero => exact Stage.refl _
  | succ k ih => exact ih.trans (turnAt_stage n0 n (i + k) (turned_before n0 n (i + k)))

theorem queuePeriodic_stage : Stage (kindsFrom n0 n 0 7) n (queuePeriodic n0 n) := turned_before n0 n 7
end

/-! ## A frame that is owed -/

/-- The kind's moment is the event's, and its frame stands in the queue unless that was full at its turn, some kinds
before it. -/
structure Passes (f : Frame) (before : List Kind) (n m : Node) : Prop where
  moment : m.pub.moment (kindOf f) = some n.now
  own : OwnIds n.tx → OwnIds m.tx
  stands : OwnIds n.tx → n.tx.queue.length + before.length < 6 ∨ m.tx.queue.length < 6 →
    ∃ e ∈ m.tx.queue, e.frame = f

theorem Passes.after {f : Frame} {ks ls : List Kind} {n m o : Node} (h : Passes f ks n m) (later : Stage ls m o)
    (other : kindOf f ∉ ls) (plain : isPeriodic (kindOf f) = true) : Passes f ks n o where
  moment := (later.moment _ other).trans h.moment
  own := fun own => later.queue.own (h.own own)
  stands := fun own room => by
    have longer := later.queue.longer
    obtain ⟨e, mem, rfl⟩ := h.stands own (room.imp_right fun r => by omega)
    exact ⟨e, later.queue.entry e mem (h.own own) other (.inl (isAnswer_of_periodic plain)), rfl⟩

/-- A frame sent at its turn passes. -/
theorem passes_of_turn {n0 n : Node} {f : Frame} {i k : Nat} (sends : Sends f (turned n0 n i) (turned n0 n (i + 1)))
    (other : kindOf f ∉ kindsFrom n0 n (i + 1) k) (plain : isPeriodic (kindOf f) = true) (all : i + 1 + k = 7) :
    Passes f (kindsFrom n0 n 0 i) n (queuePeriodic n0 n) := by
  have before := turned_before n0 n i
  have later := turned_after n0 n (i + 1) k
  rw [all] at later
  refine ⟨(later.moment _ other).trans (sends.moment.trans (congrArg some before.now)),
    (queuePeriodic_stage n0 n).queue.own, fun own room => ?_⟩
  refine (sends.after later other plain ((turned_before n0 n (i + 1)).queue.own own)).stands ?_
  have shorter := before.queue.shorter
  have longer := (turned_after n0 n i (k + 1)).queue.longer
  rw [show i + (k + 1) = 7 by omega] at longer
  change n.tx.queue.length + (kindsFrom n0 n 0 i).length < 6 ∨ (turned n0 n 7).tx.queue.length < 6 at room
  omega

section
variable {n0 n : Node}

theorem passes_presence (owed : presenceOwed n0 n = true) :
    Passes (.presence (presenceBody n)) (kindsFrom n0 n 0 0) n (queuePeriodic n0 n) :=
  passes_of_turn (k := 6) (queuePresence_owed owed).2
    (fun h => by simp [kindsFrom, kindsAt, turnOf, kindOf] at h) rfl rfl

theorem passes_draw (owed : drawOwed n0 n = true) :
    Passes (.draw (broadcastList n)) (kindsFrom n0 n 0 1) n (queuePeriodic n0 n) := by
  have before := turned_before n0 n 1
  obtain ⟨claims, list⟩ := before.listed draw_late
  have same : broadcastList (turned n0 n 1) = broadcastList n := by
    rw [before.shape, claims]
    rfl
  have owed' : drawOwed n0 (turned n0 n 1) = true := by
    rw [before.shape, claims, drawOwed_putTail n0 n _ _ _ list, owed]
  have sends := (queueDraw_owed owed').2.1
  rw [same] at sends
  exact passes_of_turn (i := 1) (k := 5) sends (fun h => by simp [kindsFrom, kindsAt, turnOf, kindOf] at h) rfl rfl

theorem passes_allowance {b : AllowanceBody} (owed : allowanceOwed n0 n = true) (body : allowanceBody n = some b) :
    Passes (.allowance b) (kindsFrom n0 n 0 2) n (queuePeriodic n0 n) := by
  have before := turned_before n0 n 2
  have owed' : allowanceOwed n0 (turned n0 n 2) = true := by
    rw [before.shape]
    exact owed
  have body' : allowanceBody (turned n0 n 2) = some b := by
    rw [before.shape]
    exact body
  exact passes_of_turn (i := 2) (k := 4) ((queueAllowance_owed owed').2.2 b body')
    (fun h => by simp [kindsFrom, kindsAt, turnOf, kindOf] at h) rfl rfl

theorem passes_tanks (owed : tanksOwed n0 n = true) :
    Passes (.tanks (tankMarks n) (frostPart n)) (kindsFrom n0 n 0 3) n (queuePeriodic n0 n) := by
  have before := turned_before n0 n 3
  have owed' : tanksOwed n0 (turned n0 n 3) = true := by
    rw [before.shape]
    exact owed
  have same : Frame.tanks (tankMarks (turned n0 n 3)) (frostPart (turned n0 n 3)) = .tanks (tankMarks n) (frostPart n) := by
    rw [before.shape]
    rfl
  have sends := (queueTanks_owed owed').2
  rw [same] at sends
  exact passes_of_turn (i := 3) (k := 3) sends (fun h => by simp [kindsFrom, kindsAt, turnOf, kindOf] at h) rfl rfl

theorem passes_climate {c : HeaterCfg} (cfg : n.heaterCfg = some c) (owed : climateOwed n0 n = true) :
    Passes (.climate (climateBody c n)) (kindsFrom n0 n 0 4) n (queuePeriodic n0 n) := by
  have before := turned_before n0 n 4
  have owed' : climateOwed n0 (turned n0 n 4) = true := by
    rw [before.shape]
    exact owed
  have cfg' : (turned n0 n 4).heaterCfg = some c := by
    rw [before.shape]
    exact cfg
  have same : Frame.climate (climateBody c (turned n0 n 4)) = .climate (climateBody c n) := by
    rw [before.shape]
    rfl
  have sends := (queueClimate_owed cfg' owed').2
  rw [same] at sends
  exact passes_of_turn (i := 4) (k := 2) sends (fun h => by simp [kindsFrom, kindsAt, turnOf, kindOf] at h) rfl rfl

theorem passes_motion (owed : motionOwed n0 n = true) :
    Passes (motionFrame n) (kindsFrom n0 n 0 5) n (queuePeriodic n0 n) := by
  have before := turned_before n0 n 5
  have owed' : motionOwed n0 (turned n0 n 5) = true := by
    rw [before.shape]
    exact owed
  have same : motionFrame (turned n0 n 5) = motionFrame n := by
    rw [before.shape]
    rfl
  have sends := (queueMotion_owed owed').2
  rw [same] at sends
  exact passes_of_turn (i := 5) (k := 1) sends
    (fun h => by simp [kindsFrom, kindsAt, turnOf, kindOf, motionFrame] at h) rfl rfl

theorem passes_lights (owed : lightsOwed n0 n = true) :
    Passes (.lights (n.lights.channels.map lightBody)) (kindsFrom n0 n 0 6) n (queuePeriodic n0 n) := by
  have before := turned_before n0 n 6
  have owed' : lightsOwed n0 (turned n0 n 6) = true := by
    rw [before.shape]
    exact owed
  have same : (turned n0 n 6).lights.channels.map lightBody = n.lights.channels.map lightBody := by
    rw [before.shape]
    rfl
  have sends := (queueLights_owed owed').2
  rw [same] at sends
  exact passes_of_turn (i := 6) (k := 0) sends (fun h => by simp [kindsFrom] at h) rfl rfl
end

/-- An ALLOWANCE that is owed starts its period, with a frame or without (log entry 20). -/
theorem allowance_moment {n0 n : Node} (owed : allowanceOwed n0 n = true) :
    (queuePeriodic n0 n).pub.allowance = some n.now := by
  have before := turned_before n0 n 2
  have owed' : allowanceOwed n0 (turned n0 n 2) = true := by
    rw [before.shape]
    exact owed
  have later := (turned_after n0 n 3 4).moment .allowance fun h => by simp [kindsFrom, kindsAt, turnOf] at h
  exact later.trans ((queueAllowance_owed owed').2.1.trans (congrArg some before.now))

/-- The broadcast list at the end is the one of the DRAW, or the one before it when none was owed. -/
theorem broadcastList_queuePeriodic {n0 n : Node} (h : drawOwed n0 n = false ∨
      n.tx.queue.length + (kindsFrom n0 n 0 1).length < 6 ∨ (queuePeriodic n0 n).tx.queue.length < 6) :
    broadcastList (queuePeriodic n0 n) = broadcastList n := by
  have late : Kind.draw ∉ kindsFrom n0 n 2 5 := fun h => by simp [kindsFrom, kindsAt, turnOf] at h
  have before := turned_before n0 n 1
  obtain ⟨claims, list⟩ := before.listed draw_late
  obtain ⟨claims', -⟩ := (turned_after n0 n 2 5).listed late
  have owed' : drawOwed n0 (turned n0 n 1) = drawOwed n0 n := by
    rw [before.shape, claims, drawOwed_putTail n0 n _ _ _ list]
  have same (a b : Node) (h : a.claims = b.claims) : broadcastList a = broadcastList b := by
    unfold broadcastList Node.claim
    rw [h]
  have ends : broadcastList (queuePeriodic n0 n) = broadcastList (turned n0 n 2) := same _ _ claims'
  have begins : broadcastList (turned n0 n 1) = broadcastList n := same _ _ claims
  have turn : turned n0 n 2 = queueDraw n0 (turned n0 n 1) := rfl
  rw [ends, ← begins, turn]
  cases owed : drawOwed n0 n with
  | false => rw [queueDraw_free (owed'.trans owed)]
  | true =>
    refine (queueDraw_owed (owed'.trans owed)).2.2 ?_
    have shorter := before.queue.shorter
    have longer := (turned_after n0 n 1 6).queue.longer
    have room := h.resolve_left (by simp [owed])
    change n.tx.queue.length + (kindsFrom n0 n 0 1).length < 6 ∨ (turned n0 n 7).tx.queue.length < 6 at room
    change (turned n0 n 1).tx.queue.length ≤ (turned n0 n 7).tx.queue.length at longer
    omega

end Sys2Proof.Machine
end

section
/-!
# The end of an event: quiet events, and events without a restart

A quiet event changes nothing that the blocks watch: its frames find the node as the effect left it, but for the shares
of the lights and the claims. Without a restart the node at the end is the one that the frames leave.
-/

namespace Sys2Proof.Machine

/-! ## The answers (R195) -/

theorem queueReply_silent {n : Node} (free : n.ev.restart = false) (h : n.ev.reply = none ∨ n.isActive = false) :
    queueReply n = n := by
  unfold queueReply
  split
  · rename_i b owed active
    rcases h with h | h
    · rw [h] at owed
      cases owed
    · rw [h] at active
      cases active
  · rw [if_neg (Bool.eq_false_iff.mp free)]

theorem queueReply_owed {n : Node} {b : ReplyBody} (free : n.ev.restart = false) (owed : n.ev.reply = some b)
    (active : n.isActive = true) : queueReply n = (placeAnswer (.reply b) n).1 := by
  obtain ⟨t, w, shape⟩ := placeAnswer_shape (.reply b) n
  have still : (placeAnswer (.reply b) n).1.ev.restart = false := by
    rw [shape]
    exact free
  unfold queueReply
  rw [owed, active]
  simp only [still, Bool.false_eq_true, if_false]

theorem queueReply_stage {n : Node} (free : n.ev.restart = false) : Stage [.reply] n (queueReply n) := by
  cases owed : n.ev.reply with
  | none => rw [queueReply_silent free (.inl owed)]; exact (Stage.refl n).weaken
  | some b =>
    cases active : n.isActive with
    | false => rw [queueReply_silent free (.inr active)]; exact (Stage.refl n).weaken
    | true => rw [queueReply_owed free owed active]; exact stage_answer (.reply b) n (by simp [kindOf])

theorem queueReport_silent {n : Node} (h : n.ev.report = none ∨ n.isActive = false) : queueReport n = n := by
  unfold queueReport
  split
  · rename_i b owed active
    rcases h with h | h
    · rw [h] at owed
      cases owed
    · rw [h] at active
      cases active
  · rfl

theorem queueReport_owed {n : Node} {b : ReportBody} (owed : n.ev.report = some b) (active : n.isActive = true) :
    queueReport n = (placeAnswer (.report b) n).1 := by
  unfold queueReport
  rw [owed, active]

theorem queueReport_stage (n : Node) : Stage [.report] n (queueReport n) := by
  cases owed : n.ev.report with
  | none => rw [queueReport_silent (.inl owed)]; exact (Stage.refl n).weaken
  | some b =>
    cases active : n.isActive with
    | false => rw [queueReport_silent (.inr active)]; exact (Stage.refl n).weaken
    | true => rw [queueReport_owed owed active]; exact stage_answer (.report b) n (by simp [kindOf])

/-! ## Events without a restart -/

section
variable {n0 m : Node} (free : m.ev.restart = false) (pending : m.cmd.restart = none)
include free

theorem told_free : (told n0 m).ev.restart = false := (told_mark Event.restart n0 m fun _ => rfl).trans free

/-- After the periodic frames come the answers. -/
theorem queueFrames_answers : Stage [.reply, .report] (queuePeriodic n0 (told n0 m)) (queueFrames n0 (told n0 m)) := by
  have still : (queuePeriodic n0 (told n0 m)).ev.restart = false := by
    rw [(queuePeriodic_stage n0 (told n0 m)).ev]
    exact told_free free
  rw [queueFrames_eq]
  exact (queueReply_stage still).trans (queueReport_stage _)

include pending

theorem finish_frames : finish n0 m = queueFrames n0 (told n0 m) := by
  have stage := (queuePeriodic_stage n0 (told n0 m)).trans (queueFrames_answers (n0 := n0) free)
  have none_pending : (queueFrames n0 (told n0 m)).cmd.restart = none := by
    rw [stage.shape]
    exact (told_keeps n0 m).restart.trans pending
  rw [finish_eq, restartCheck, none_pending]

/-- The frames of an event without a restart, from the node that they find. -/
theorem finish_stage : Stage (kindsFrom n0 (told n0 m) 0 7 ++ [.reply, .report]) (told n0 m) (finish n0 m) := by
  rw [finish_frames free pending]
  exact (queuePeriodic_stage n0 (told n0 m)).trans (queueFrames_answers (n0 := n0) free)

/-- A frame that passes the turns stands at the end. -/
theorem Passes.finish {f : Frame} {ks : List Kind} (h : Passes f ks (told n0 m) (queuePeriodic n0 (told n0 m)))
    (plain : isPeriodic (kindOf f) = true) : Passes f ks (told n0 m) (finish n0 m) := by
  rw [finish_frames free pending]
  refine h.after (queueFrames_answers (n0 := n0) free) (fun mem => ?_) plain
  simp only [List.mem_cons, List.not_mem_nil, or_false] at mem
  rcases mem with is | is
  · rw [is] at plain
    cases plain
  · rw [is] at plain
    cases plain

end

/-! ## What the frames read of the node that they find -/

/-- What reads nothing but the rest of a node is the same at the same rest. -/
theorem of_rest {α : Type} (look : Node → α) {n m : Node} (h : n.rest = m.rest) (reads : ∀ k, look k.rest = look k) :
    look n = look m := by rw [← reads n, h, reads m]

section
variable {n m : Node} (h : n.rest = m.rest)
include h

theorem view_of_rest : n.view = m.view := congrArg (·.view) h
theorem state_of_rest : n.state = m.state := congrArg (·.state) h
theorem cfg_of_rest : n.cfg = m.cfg := congrArg (·.cfg) h
theorem isActive_of_rest : n.isActive = m.isActive := of_rest Node.isActive h fun _ => rfl
theorem tankMarks_of_rest : tankMarks n = tankMarks m := of_rest tankMarks h fun _ => rfl
theorem frostPart_of_rest : frostPart n = frostPart m := of_rest frostPart h fun _ => rfl
theorem climateMarks_of_rest : climateMarks n = climateMarks m := of_rest climateMarks h fun _ => rfl
theorem climateBody_of_rest (c : HeaterCfg) : climateBody c n = climateBody c m := of_rest (climateBody c) h fun _ => rfl
theorem motionMarks_of_rest : motionMarks n = motionMarks m := of_rest motionMarks h fun _ => rfl
theorem motionFrame_of_rest : motionFrame n = motionFrame m := of_rest motionFrame h fun _ => rfl
theorem allowanceBody_of_rest : allowanceBody n = allowanceBody m := of_rest allowanceBody h fun _ => rfl
theorem ownWind_of_rest : n.ownWind = m.ownWind := of_rest Node.ownWind h fun _ => rfl

theorem ownTravel_of_rest (inputs : ∀ i, (n.chan i).accepted = (m.chan i).accepted) : n.ownTravel = m.ownTravel := by
  have cfg := cfg_of_rest h
  unfold Node.ownTravel Node.has Node.inputActive
  rw [cfg]
  simp only [inputs]

theorem presenceBody_of_rest (inputs : ∀ i, (n.chan i).accepted = (m.chan i).accepted) :
    presenceBody n = presenceBody m := by
  have own : ({ presenceBody n with travel := m.ownTravel } : PresenceBody) =
      { presenceBody m with travel := m.ownTravel } :=
    of_rest (fun k : Node => ({ presenceBody k with travel := m.ownTravel } : PresenceBody)) h fun _ => rfl
  have travel : (presenceBody n).travel = m.ownTravel := ownTravel_of_rest h inputs
  calc presenceBody n = { presenceBody n with travel := m.ownTravel } := by rw [← travel]
    _ = { presenceBody m with travel := m.ownTravel } := own
    _ = presenceBody m := rfl
end

/-! ## Quiet events -/

/-- `m` comes from `n` with nothing written but the peers and the source of the view, the command unit and the marks. -/
def Quiet (n m : Node) : Prop := m = { n with
  view := { n.view with peers := m.view.peers, source := m.view.source, conflict := m.view.conflict }
  cmd := m.cmd, ev := m.ev }

theorem hears_darken (rows : List (LightCfg × Light)) (n : Node) : Hears n (darken rows n) := by
  unfold darken
  exact Hears.foldl (fun k x => by
    split
    · exact (Hears.refl k).ask _ _
    · exact Hears.refl k) rows n

theorem hears_lightsUpdate (n : Node) : Hears n (lightsUpdate n) := by
  have claim (main : Bool) (w : Nat) (k : Node) : Hears k (lightClaim main w k) := by
    obtain ⟨c, wait, e⟩ := lightClaim_puts main w k
    rw [e]
    exact (Hears.refl k).putClaim
  unfold lightsUpdate
  split
  · exact Hears.refl n
  · have lamps (l : List Light) (k : Node) : Hears k (k.setLamps l) := rfl
    exact ((((hears_darken _ n).trans (lamps _ _)).trans (claim true _ _)).trans (claim false _ _)).trans
      ((lamps _ _).trans (lamps _ _))

theorem length_turnOf (owed : Bool) (k : Kind) : (turnOf owed k).length ≤ 1 := by cases owed <;> simp [turnOf]

section
variable {n m : Node} (quiet : Quiet n m)
include quiet

theorem Quiet.told_eq : told n m = serveWaits (lightsUpdate m) := by
  have step : toldCourtesy n m = m := toldCourtesy_same (by rw [quiet])
  have pump : toldPump false n m = m := toldPump_same (by rw [quiet]) (by rw [quiet])
  rw [told, propagate_calm (by rw [quiet]) (by rw [quiet]) (by rw [quiet]; rfl) (by rw [quiet]) (by rw [quiet]), pump, step]

theorem Quiet.rest : (told n m).rest = m.rest := by
  rw [quiet.told_eq, rest_serveWaits, rest_lightsUpdate]

theorem Quiet.inputs (i : Fin 16) : ((told n m).chan i).accepted = (m.chan i).accepted := by
  have body := body_serveWaits (lightsUpdate m)
  have bank : (told n m).bank = (lightsUpdate m).bank := by
    rw [quiet.told_eq]
    exact congrArg (·.1) body
  unfold Node.chan
  rw [bank]
  exact ((hears_lightsUpdate m).inputs i).1

/-- The marks for the kinds that a quiet event does not publish of its own. -/
def markAt (e : Event) : Nat → Bool
  | 0 => e.presence
  | 2 => e.allowance
  | 3 => e.tanks
  | 4 => e.climate
  | 5 => e.motion
  | _ => false

theorem Quiet.isActive : (told n m).isActive = n.isActive := by
  rw [isActive_of_rest quiet.rest, quiet]
  rfl

theorem Quiet.entered : entered n (told n m) = false := by
  rw [Machine.entered, quiet.isActive, Bool.and_not_self]

theorem Quiet.presence (unmarked : m.ev.presence = false) : presenceOwed n (told n m) = false := by
  have mark : (told n m).ev.presence = m.ev.presence := told_mark Event.presence n m fun _ => rfl
  have travel : (told n m).ownTravel = n.ownTravel := by
    rw [ownTravel_of_rest quiet.rest quiet.inputs, quiet]
    rfl
  have wind : (told n m).ownWind = n.ownWind := by
    rw [ownWind_of_rest quiet.rest, quiet]
    rfl
  simp [presenceOwed, mark, unmarked, quiet.entered, travel, wind]

theorem Quiet.allowance (unmarked : m.ev.allowance = false) : allowanceOwed n (told n m) = false := by
  have mark : (told n m).ev.allowance = m.ev.allowance := told_mark Event.allowance n m fun _ => rfl
  simp [allowanceOwed, mark, unmarked, quiet.entered]

theorem Quiet.tanks (unmarked : m.ev.tanks = false) : tanksOwed n (told n m) = false := by
  have mark : (told n m).ev.tanks = m.ev.tanks := told_mark Event.tanks n m fun _ => rfl
  have tanks : tankMarks (told n m) = tankMarks n := by
    rw [tankMarks_of_rest quiet.rest, quiet]
    rfl
  have frost : (told n m).frost = n.frost := by
    rw [show (told n m).frost = m.frost from congrArg (·.frost) quiet.rest, quiet]
  simp [tanksOwed, mark, unmarked, quiet.entered, tanks, frost]

theorem Quiet.climate (unmarked : m.ev.climate = false) : climateOwed n (told n m) = false := by
  have mark : (told n m).ev.climate = m.ev.climate := told_mark Event.climate n m fun _ => rfl
  have heater : climateMarks (told n m) = climateMarks n := by
    rw [climateMarks_of_rest quiet.rest, quiet]
    rfl
  simp [climateOwed, mark, unmarked, quiet.entered, heater]

theorem Quiet.motion (unmarked : m.ev.motion = false) : motionOwed n (told n m) = false := by
  have mark : (told n m).ev.motion = m.ev.motion := told_mark Event.motion n m fun _ => rfl
  have motion : motionMarks (told n m) = motionMarks n := by
    rw [motionMarks_of_rest quiet.rest, quiet]
    rfl
  simp [motionOwed, mark, unmarked, quiet.entered, motion]

theorem Quiet.kindsAt_nil {i : Nat} (low : i < 6) (other : i ≠ 1) (unmarked : markAt m.ev i = false) :
    kindsAt n (told n m) i = [] := by
  match i with
  | 0 => rw [kindsAt, quiet.presence unmarked]; rfl
  | 1 => exact absurd rfl other
  | 2 => rw [kindsAt, quiet.allowance unmarked]; rfl
  | 3 => rw [kindsAt, quiet.tanks unmarked]; rfl
  | 4 => rw [kindsAt, quiet.climate unmarked]; rfl
  | 5 => rw [kindsAt, quiet.motion unmarked]; rfl
  | i + 6 => omega

/-- In a quiet event a DRAW alone may be placed before the turn of a kind that is marked first. -/
theorem Quiet.few {i : Nat} (low : i ≤ 6) (unmarked : ∀ j < i, markAt m.ev j = false) :
    (kindsFrom n (told n m) 0 i).length ≤ if 1 < i then 1 else 0 := by
  induction i with
  | zero => exact Nat.le_refl 0
  | succ i ih =>
    have before := ih (by omega) fun j less => unmarked j (by omega)
    rw [kindsFrom, List.length_append, Nat.zero_add]
    by_cases draw : i = 1
    · subst draw
      have := length_turnOf (drawOwed n (told n m)) .draw
      simp only [lt_irrefl, if_false] at before
      simp only [kindsAt, Nat.reduceAdd, Nat.one_lt_ofNat, if_true]
      omega
    · rw [quiet.kindsAt_nil (by omega) draw (unmarked i (Nat.lt_succ_self i)), List.length_nil, Nat.add_zero]
      refine before.trans ?_
      split <;> split <;> omega

/-- With none of them marked at most a DRAW and a LIGHTS are placed. -/
theorem Quiet.two (unmarked : ∀ j < 6, markAt m.ev j = false) : (kindsFrom n (told n m) 0 7).length ≤ 2 := by
  have six := quiet.few le_rfl unmarked
  have last := length_turnOf (lightsOwed n (told n m)) .lights
  have whole : kindsFrom n (told n m) 0 7 = kindsFrom n (told n m) 0 6 ++ turnOf (lightsOwed n (told n m)) .lights := rfl
  rw [whole, List.length_append]
  simp only [Nat.one_lt_ofNat, if_true] at six
  omega
end

end Sys2Proof.Machine
end

section
/-! # The periods and the frames on change (O20) -/

namespace Sys2Proof.Machine

/-! ## A period that is due -/

/-- The node with the marks of a period's event. -/
def Node.marked (n : Node) (e : Event) : Node := { n with ev := e }

theorem quiet_marked (n : Node) (e : Event) : Quiet n (n.marked e) := rfl

theorem calm_parts {n : Node} (h : n.calm = true) : n.ev = {} ∧ n.cmd.restart = none := by
  simpa [Node.calm] using h

theorem Quiet.tx {n m : Node} (quiet : Quiet n m) : m.tx = n.tx := by rw [quiet]

theorem Quiet.now {n m : Node} (quiet : Quiet n m) : m.now = n.now := by rw [quiet]

section
variable {s : State} {dt : Nat} {rx : Receiver} {m : Node} (quiet : Quiet (s.found dt) m)
  (free : m.ev.restart = false) (still : m.ev.reset = false) (pending : m.cmd.restart = none)
include quiet free still pending

/-- In a quiet event a frame that passes its turn is queued, with four entries at most in the queue before. -/
theorem Quiet.queues {f : Frame} {i : Nat} (low : i ≤ 6) (first : ∀ j < i, markAt m.ev j = false)
    (plain : isPeriodic (kindOf f) = true)
    (passes : Passes f (kindsFrom (s.found dt) (told (s.found dt) m) 0 i) (told (s.found dt) m)
      (queuePeriodic (s.found dt) (told (s.found dt) m))) :
    let t := s.ended dt rx m
    t.node.pub.moment (kindOf f) = some (s.found dt).now ∧
      (OwnIds (s.found dt).tx → (s.found dt).tx.queue.length ≤ 4 → t.queued f) := by
  have keeps := told_keeps (s.found dt) m
  have few := quiet.few low first
  have tx : (told (s.found dt) m).tx = (s.found dt).tx := keeps.tx.trans (quiet.tx)
  have now : (told (s.found dt) m).now = (s.found dt).now := keeps.now.trans (quiet.now)
  have ends := passes.finish free pending plain
  have node : (s.ended dt rx m).node = (finish (s.found dt) m).setEv {} :=
    congrArg State.node (ended_eq free still pending)
  generalize told (s.found dt) m = w at tx now ends few
  obtain ⟨moment, -, stands⟩ := ends
  intro t
  have same : t.node = (finish (s.found dt) m).setEv {} := node
  refine ⟨?_, fun own short => ?_⟩
  · rw [same, ← now]
    exact moment
  · rw [tx] at stands
    obtain ⟨x, mem, is⟩ := stands own (.inl (by split at few <;> omega))
    exact ⟨x, by rw [same]; exact mem, is⟩

/-- A DRAW that passes carries the broadcast list as it stands at the end, with room in the queue at its turn. -/
theorem Quiet.lists (first : m.ev.presence = false) (short : (s.found dt).tx.queue.length ≤ 4) :
    broadcastList (s.ended dt rx m).node = broadcastList (told (s.found dt) m) := by
  have few := quiet.few (i := 1) (by omega) fun j low => by
    rw [show j = 0 by omega]
    exact first
  have tx : (told (s.found dt) m).tx = (s.found dt).tx := (told_keeps (s.found dt) m).tx.trans quiet.tx
  have node : (s.ended dt rx m).node = (finish (s.found dt) m).setEv {} :=
    congrArg State.node (ended_eq free still pending)
  have answers := (queueFrames_answers (n0 := s.found dt) free).listed (by simp)
  have ends : broadcastList (finish (s.found dt) m) = broadcastList (queuePeriodic (s.found dt) (told (s.found dt) m)) := by
    rw [finish_frames free pending]
    unfold broadcastList Node.claim
    rw [answers.1]
  have cleared (k : Node) : broadcastList (k.setEv {}) = broadcastList k := rfl
  rw [node, cleared, ends]
  refine broadcastList_queuePeriodic (.inr (.inl ?_))
  rw [tx]
  simp only [lt_irrefl, if_false] at few
  omega
end

/-! ## The rows of the periods -/

section
variable {s : State} {dt p : Nat}

theorem later_iff {n : Node} {q : Option Nat} {k : Nat} (since : q = some p) (due : p + k ≤ n.now) :
    n.reached (later q k) = true := by
  rw [since]
  exact reached_iff.mpr due

theorem presencePeriod_acts (up : (s.found dt).up = true) (sends : sendsPresence (s.found dt) = true)
    (since : (s.found dt).pub.presence = some p) (due : p + 1000 ≤ (s.found dt).now) :
    exec (.presencePeriod dt) s = .next (s.ended dt s.rx ((s.found dt).marked
      { (s.found dt).ev with presence := true })) := by
  change execPresencePeriod dt s = _
  unfold execPresencePeriod
  refine nodeEvent_found (fun n => by simp [sendsPresence]) up ?_
  rw [sends, later_iff (k := presencePeriodMs) since due]
  rfl

theorem drawPeriod_acts (up : (s.found dt).up = true) (sends : (s.found dt).isActive = true ∨
      ((s.found dt).state = some .listening ∧ broadcastList (s.found dt) ≠ []))
    (since : (s.found dt).pub.draw = some p) (due : p + 500 ≤ (s.found dt).now) :
    exec (.drawPeriod dt) s = .next (s.ended dt s.rx ((s.found dt).marked { (s.found dt).ev with draw := true })) := by
  change execDrawPeriod dt s = _
  unfold execDrawPeriod
  refine nodeEvent_found (fun n => by simp [sendsDraw, broadcastList]) up ?_
  rw [later_iff (k := drawPeriodMs) since due]
  rcases sends with active | ⟨listening, some⟩
  · simp [sendsDraw, active]
  · simp [sendsDraw, listening, some]

theorem allowancePeriod_acts (up : (s.found dt).up = true) (active : (s.found dt).isActive = true)
    (has : (s.found dt).has .battery = true)
    (since : (s.found dt).pub.allowance = some p) (due : p + 500 ≤ (s.found dt).now) :
    exec (.allowancePeriod dt) s = .next (s.ended dt s.rx ((s.found dt).marked
      { (s.found dt).ev with allowance := true })) := by
  change execAllowancePeriod dt s = _
  unfold execAllowancePeriod
  refine nodeEvent_found (fun n => by simp) up ?_
  rw [active, has, later_iff (k := allowancePeriodMs) since due]
  rfl

theorem tanksPeriod_acts (up : (s.found dt).up = true) (active : (s.found dt).isActive = true)
    (has : (s.found dt).has .tanks = true ∨ (s.found dt).has .frost = true)
    (since : (s.found dt).pub.tanks = some p) (due : p + 2000 ≤ (s.found dt).now) :
    exec (.tanksPeriod dt) s = .next (s.ended dt s.rx ((s.found dt).marked { (s.found dt).ev with tanks := true })) := by
  change execTanksPeriod dt s = _
  unfold execTanksPeriod
  refine nodeEvent_found (fun n => by simp) up ?_
  rw [active, Bool.or_eq_true_iff.mpr has, later_iff (k := tanksPeriodMs) since due]
  rfl

theorem climatePeriod_acts (up : (s.found dt).up = true) (active : (s.found dt).isActive = true)
    (has : (s.found dt).has .heater = true)
    (since : (s.found dt).pub.climate = some p) (due : p + 1000 ≤ (s.found dt).now) :
    exec (.climatePeriod dt) s = .next (s.ended dt s.rx ((s.found dt).marked
      { (s.found dt).ev with climate := true })) := by
  change execClimatePeriod dt s = _
  unfold execClimatePeriod
  refine nodeEvent_found (fun n => by simp) up ?_
  rw [active, has, later_iff (k := climatePeriodMs) since due]
  rfl

theorem hasMotion_of {n : Node} (h : n.has .awning = true ∨ n.has .step = true ∨ n.has .wind = true) :
    hasMotion n = true := by
  unfold hasMotion
  rcases h with h | h | h
  · rw [h, Bool.true_or, Bool.true_or]
  · rw [h, Bool.or_true, Bool.true_or]
  · rw [h, Bool.or_true]

theorem motionPeriod_acts (up : (s.found dt).up = true) (active : (s.found dt).isActive = true)
    (has : hasMotion (s.found dt) = true) (since : (s.found dt).pub.motion = some p)
    (due : p + motionPeriodMs (s.found dt) ≤ (s.found dt).now) :
    exec (.motionPeriod dt) s = .next (s.ended dt s.rx ((s.found dt).marked
      { (s.found dt).ev with motion := true })) := by
  change execMotionPeriod dt s = _
  unfold execMotionPeriod
  refine nodeEvent_found (fun n => by simp [hasMotion, motionPeriodMs]) up ?_
  rw [active, has, later_iff since due]
  rfl

theorem lightsPeriod_acts (up : (s.found dt).up = true) (active : (s.found dt).isActive = true)
    (has : (s.found dt).has .lights = true)
    (since : (s.found dt).pub.lights = some p) (due : p + 2000 ≤ (s.found dt).now) :
    exec (.lightsPeriod dt) s = .next (s.ended dt s.rx ((s.found dt).marked { (s.found dt).ev with lights := true })) := by
  change execLightsPeriod dt s = _
  unfold execLightsPeriod
  refine nodeEvent_found (fun n => by simp) up ?_
  rw [active, has, later_iff (k := lightsPeriodMs) since due]
  rfl
end

end Sys2Proof.Machine
end

section
/-! # What a period queues (R27, R34, R52, R85, R130, R152, R168) -/

namespace Sys2Proof.Machine

section
variable {s : State} {dt : Nat} {e : Event} (up : (s.found dt).up = true) (calm : (s.found dt).calm = true)
include up calm

/-- The frame of a period that passes its turn. -/
theorem marked_queues {f : Frame} {i : Nat} (free : e.restart = false) (still : e.reset = false) (low : i ≤ 6)
    (first : ∀ j < i, markAt e j = false) (plain : isPeriodic (kindOf f) = true)
    (passes : Passes f (kindsFrom (s.found dt) (told (s.found dt) ((s.found dt).marked e)) 0 i)
      (told (s.found dt) ((s.found dt).marked e))
      (queuePeriodic (s.found dt) (told (s.found dt) ((s.found dt).marked e)))) :
    let t := s.ended dt s.rx ((s.found dt).marked e)
    t.node.pub.moment (kindOf f) = some (s.found dt).now ∧
      (s.sound = true → (s.found dt).tx.queue.length ≤ 4 → t.queued f) := by
  obtain ⟨moment, stands⟩ := (quiet_marked (s.found dt) e).queues (rx := s.rx) free still (calm_parts calm).2 low first
    plain passes
  exact ⟨moment, fun sound => stands (OwnIds.of_fits ((found_fit sound up).queue trivial))⟩

theorem presence_queues (is : e = { presence := true }) (sends : sendsPresence (s.found dt) = true) :
    let t := s.ended dt s.rx ((s.found dt).marked e)
    t.node.pub.presence = some (s.found dt).now ∧
      (s.sound = true → (s.found dt).tx.queue.length ≤ 4 → t.queued (.presence (presenceBody (s.found dt)))) := by
  have quiet := quiet_marked (s.found dt) e
  have body : presenceBody (told (s.found dt) ((s.found dt).marked e)) = presenceBody (s.found dt) :=
    (presenceBody_of_rest quiet.rest quiet.inputs).trans rfl
  have mark : (told (s.found dt) ((s.found dt).marked e)).ev.presence = true := by
    rw [told_mark Event.presence _ _ fun _ => rfl, is]
    rfl
  have owed : presenceOwed (s.found dt) (told (s.found dt) ((s.found dt).marked e)) = true := by
    have same : sendsPresence (told (s.found dt) ((s.found dt).marked e)) = sendsPresence (s.found dt) :=
      (of_rest sendsPresence quiet.rest fun _ => rfl).trans rfl
    rw [presenceOwed, same, sends, mark]
    rfl
  have passes := passes_presence owed
  rw [body] at passes
  exact marked_queues up calm (i := 0) (by rw [is]) (by rw [is]) (Nat.zero_le 6) (fun j h => nomatch h) rfl passes

theorem draw_queues (is : e = { draw := true })
    (sends : (s.found dt).isActive = true ∨ (s.found dt).state = some .listening) :
    let t := s.ended dt s.rx ((s.found dt).marked e)
    t.node.pub.draw = some (s.found dt).now ∧
      (s.sound = true → (s.found dt).tx.queue.length ≤ 4 → t.queued (.draw (broadcastList t.node))) := by
  have quiet := quiet_marked (s.found dt) e
  have mark : (told (s.found dt) ((s.found dt).marked e)).ev.draw = true := told_draw (by rw [is]; rfl)
  have owed : drawOwed (s.found dt) (told (s.found dt) ((s.found dt).marked e)) = true := by
    have same : sendsDraw (told (s.found dt) ((s.found dt).marked e)) = sendsDraw (s.found dt) :=
      (of_rest sendsDraw quiet.rest fun _ => rfl).trans rfl
    rw [drawOwed, same, mark]
    rcases sends with active | listening
    · simp [sendsDraw, active]
    · simp [sendsDraw, listening]
  obtain ⟨moment, stands⟩ := marked_queues up calm (i := 1) (by rw [is]) (by rw [is]) (by decide)
    (fun j h => by rw [show j = 0 by omega, is]; rfl) rfl (passes_draw owed)
  refine ⟨moment, fun sound short => ?_⟩
  have list := quiet.lists (rx := s.rx) (show e.restart = false by rw [is]) (show e.reset = false by rw [is])
    (calm_parts calm).2 (show e.presence = false by rw [is]) short
  rw [list]
  exact stands sound short

theorem allowance_queues (is : e = { allowance := true }) (active : (s.found dt).isActive = true)
    (has : (s.found dt).has .battery = true) :
    let t := s.ended dt s.rx ((s.found dt).marked e)
    t.node.pub.allowance = some (s.found dt).now ∧ ∀ b, allowanceBody (s.found dt) = some b →
      s.sound = true → (s.found dt).tx.queue.length ≤ 4 → t.queued (.allowance b) := by
  have quiet := quiet_marked (s.found dt) e
  have mark : (told (s.found dt) ((s.found dt).marked e)).ev.allowance = true := by
    rw [told_mark Event.allowance _ _ fun _ => rfl, is]
    rfl
  have owed : allowanceOwed (s.found dt) (told (s.found dt) ((s.found dt).marked e)) = true := by
    have duty : (told (s.found dt) ((s.found dt).marked e)).has .battery = true :=
      (of_rest (·.has .battery) quiet.rest fun _ => rfl).trans has
    rw [allowanceOwed, quiet.isActive, active, duty, mark]
    rfl
  have free : ((s.found dt).marked e).ev.restart = false := by rw [is]; rfl
  have still : ((s.found dt).marked e).ev.reset = false := by rw [is]; rfl
  have pending : ((s.found dt).marked e).cmd.restart = none := (calm_parts calm).2
  refine ⟨?_, fun b body => ?_⟩
  · have keeps := told_keeps (s.found dt) ((s.found dt).marked e)
    have answers := (queueFrames_answers (n0 := s.found dt) free).moment .allowance (by simp)
    have ends : (s.ended dt s.rx ((s.found dt).marked e)).node = _ :=
      congrArg State.node (ended_eq free still pending)
    rw [ends, finish_frames free pending]
    exact answers.trans ((allowance_moment owed).trans (congrArg some keeps.now))
  · have body' : allowanceBody (told (s.found dt) ((s.found dt).marked e)) = some b :=
      (allowanceBody_of_rest quiet.rest).trans body
    exact (marked_queues up calm (i := 2) (by rw [is]) (by rw [is]) (by decide)
      (fun j h => by rw [is]; interval_cases j <;> rfl) rfl (passes_allowance owed body')).2

theorem tanks_queues (is : e = { tanks := true }) (active : (s.found dt).isActive = true)
    (has : (s.found dt).has .tanks = true ∨ (s.found dt).has .frost = true) :
    let t := s.ended dt s.rx ((s.found dt).marked e)
    t.node.pub.tanks = some (s.found dt).now ∧ (s.sound = true → (s.found dt).tx.queue.length ≤ 4 →
      t.queued (.tanks (tankMarks (s.found dt)) (frostPart (s.found dt)))) := by
  have quiet := quiet_marked (s.found dt) e
  have marks : tankMarks (told (s.found dt) ((s.found dt).marked e)) = tankMarks (s.found dt) :=
    (tankMarks_of_rest quiet.rest).trans rfl
  have part : frostPart (told (s.found dt) ((s.found dt).marked e)) = frostPart (s.found dt) :=
    (frostPart_of_rest quiet.rest).trans rfl
  have mark : (told (s.found dt) ((s.found dt).marked e)).ev.tanks = true := by
    rw [told_mark Event.tanks _ _ fun _ => rfl, is]
    rfl
  have owed : tanksOwed (s.found dt) (told (s.found dt) ((s.found dt).marked e)) = true := by
    have duty (d : Duty) : (told (s.found dt) ((s.found dt).marked e)).has d = (s.found dt).has d :=
      (of_rest (·.has d) quiet.rest fun _ => rfl).trans rfl
    rw [tanksOwed, quiet.isActive, active, duty, duty, Bool.or_eq_true_iff.mpr has, mark]
    rfl
  have passes := passes_tanks owed
  rw [marks, part] at passes
  exact marked_queues up calm (i := 3) (by rw [is]) (by rw [is]) (by decide)
    (fun j h => by rw [is]; interval_cases j <;> rfl) rfl passes

theorem climate_queues (is : e = { climate := true }) (active : (s.found dt).isActive = true) {c : HeaterCfg}
    (cfg : (s.found dt).heaterCfg = some c) :
    let t := s.ended dt s.rx ((s.found dt).marked e)
    t.node.pub.climate = some (s.found dt).now ∧ (s.sound = true → (s.found dt).tx.queue.length ≤ 4 →
      t.queued (.climate (climateBody c (s.found dt)))) := by
  have quiet := quiet_marked (s.found dt) e
  have body : climateBody c (told (s.found dt) ((s.found dt).marked e)) = climateBody c (s.found dt) :=
    (climateBody_of_rest quiet.rest c).trans rfl
  have cfg' : (told (s.found dt) ((s.found dt).marked e)).heaterCfg = some c :=
    (of_rest Node.heaterCfg quiet.rest fun _ => rfl).trans cfg
  have mark : (told (s.found dt) ((s.found dt).marked e)).ev.climate = true := by
    rw [told_mark Event.climate _ _ fun _ => rfl, is]
    rfl
  have owed : climateOwed (s.found dt) (told (s.found dt) ((s.found dt).marked e)) = true := by
    rw [climateOwed, quiet.isActive, active, mark]
    rfl
  have passes := passes_climate cfg' owed
  rw [body] at passes
  exact marked_queues up calm (i := 4) (by rw [is]) (by rw [is]) (by decide)
    (fun j h => by rw [is]; interval_cases j <;> rfl) rfl passes

theorem motion_queues (is : e = { motion := true }) (active : (s.found dt).isActive = true)
    (has : hasMotion (s.found dt) = true) :
    let t := s.ended dt s.rx ((s.found dt).marked e)
    t.node.pub.motion = some (s.found dt).now ∧ (s.sound = true → (s.found dt).tx.queue.length ≤ 4 →
      t.queued (motionFrame (s.found dt))) := by
  have quiet := quiet_marked (s.found dt) e
  have body : motionFrame (told (s.found dt) ((s.found dt).marked e)) = motionFrame (s.found dt) :=
    (motionFrame_of_rest quiet.rest).trans rfl
  have mark : (told (s.found dt) ((s.found dt).marked e)).ev.motion = true := by
    rw [told_mark Event.motion _ _ fun _ => rfl, is]
    rfl
  have owed : motionOwed (s.found dt) (told (s.found dt) ((s.found dt).marked e)) = true := by
    have duty : hasMotion (told (s.found dt) ((s.found dt).marked e)) = hasMotion (s.found dt) :=
      (of_rest hasMotion quiet.rest fun _ => rfl).trans rfl
    rw [motionOwed, quiet.isActive, active, duty, has, mark]
    rfl
  have passes := passes_motion owed
  rw [body] at passes
  exact marked_queues up calm (i := 5) (f := motionFrame (s.found dt)) (by rw [is]) (by rw [is]) (by decide)
    (fun j h => by rw [is]; interval_cases j <;> rfl) rfl passes

theorem lights_queues (is : e = { lights := true }) (active : (s.found dt).isActive = true)
    (has : (s.found dt).has .lights = true) :
    let t := s.ended dt s.rx ((s.found dt).marked e)
    t.node.pub.lights = some (s.found dt).now ∧ (s.sound = true → (s.found dt).tx.queue.length ≤ 4 →
      t.queued (.lights (t.node.lights.channels.map lightBody))) := by
  have quiet := quiet_marked (s.found dt) e
  have mark : (told (s.found dt) ((s.found dt).marked e)).ev.lights = true := by
    rw [told_mark Event.lights _ _ fun _ => rfl, is]
    rfl
  have owed : lightsOwed (s.found dt) (told (s.found dt) ((s.found dt).marked e)) = true := by
    have duty : (told (s.found dt) ((s.found dt).marked e)).has .lights = true :=
      (of_rest (·.has .lights) quiet.rest fun _ => rfl).trans has
    rw [lightsOwed, quiet.isActive, active, duty, mark]
    rfl
  have free : ((s.found dt).marked e).ev.restart = false := by rw [is]; rfl
  have still : ((s.found dt).marked e).ev.reset = false := by rw [is]; rfl
  have pending : ((s.found dt).marked e).cmd.restart = none := (calm_parts calm).2
  have lamps : (s.ended dt s.rx ((s.found dt).marked e)).node.lights =
      (told (s.found dt) ((s.found dt).marked e)).lights := by
    have stage := finish_stage (n0 := s.found dt) free pending
    have node : (s.ended dt s.rx ((s.found dt).marked e)).node = _ :=
      congrArg State.node (ended_eq free still pending)
    rw [node, stage.shape]
    rfl
  intro t
  rw [show t.node.lights = _ from lamps]
  exact marked_queues up calm (i := 6) (by rw [is]) (by rw [is]) le_rfl
    (fun j h => by rw [is]; interval_cases j <;> rfl) rfl (passes_lights owed)
end

end Sys2Proof.Machine
end

section
/-! # The frames on change, and the content of a DRAW (O20) -/

namespace Sys2Proof.Machine

/-! ## The frames on change -/

section
variable {s : State} {dt : Nat} {rx : Receiver} {m : Node} (own : OwnIds m.tx) (free : m.ev.restart = false)
  (still : m.ev.reset = false) (pending : m.cmd.restart = none)
include free still pending

theorem ended_finish : (s.ended dt rx m).node = (finish (s.found dt) m).setEv {} :=
  congrArg State.node (ended_eq free still pending)

/-- What the frames do not write stands at the end as they found it. -/
theorem ended_look {α : Type} (look : Node → α)
    (reads : ∀ (k : Node) t p c w, look ((k.putTail t p c w).setEv {}) = look k) :
    look (s.ended dt rx m).node = look (told (s.found dt) m) := by
  rw [ended_finish free still pending, (finish_stage (n0 := s.found dt) free pending).shape]
  exact reads _ _ _ _ _

include own

/-- A frame that passes its turn is published at the end of the event, and stands in a queue that is not full. -/
theorem ended_sends {f : Frame} {ks : List Kind} (plain : isPeriodic (kindOf f) = true)
    (passes : Passes f ks (told (s.found dt) m) (queuePeriodic (s.found dt) (told (s.found dt) m))) :
    let t := s.ended dt rx m
    t.node.pub.moment (kindOf f) = some m.now ∧ (t.node.tx.queue.length < 6 → t.queued f) := by
  have keeps := told_keeps (s.found dt) m
  obtain ⟨moment, -, stands⟩ := passes.finish free pending plain
  have node : (s.ended dt rx m).node = _ := ended_finish free still pending
  intro t
  have same : t.node = (finish (s.found dt) m).setEv {} := node
  refine ⟨?_, fun short => ?_⟩
  · rw [same]
    exact moment.trans (congrArg some keeps.now)
  · rw [same] at short
    obtain ⟨x, mem, is⟩ := stands (by rw [keeps.tx]; exact own) (.inr short)
    exact ⟨x, by rw [same]; exact mem, is⟩

/-- A DRAW is queued when one is owed, or the list has changed. -/
theorem ended_draw (sends : sendsDraw m = true) (changed : entered (s.found dt) m = true ∨
      broadcastList (s.ended dt rx m).node ≠ m.pub.list) :
    let t := s.ended dt rx m
    t.node.pub.draw = some m.now ∧ (t.node.tx.queue.length < 6 → t.queued (.draw (broadcastList t.node))) := by
  have keeps := told_keeps (s.found dt) m
  have answers := (queueFrames_answers (n0 := s.found dt) free).listed (by simp)
  have ends : broadcastList (s.ended dt rx m).node =
      broadcastList (queuePeriodic (s.found dt) (told (s.found dt) m)) := by
    rw [ended_finish free still pending, finish_frames free pending]
    unfold broadcastList Node.claim Node.setEv
    rw [answers.1]
  have state : (told (s.found dt) m).state = m.state := keeps.state
  have owed : drawOwed (s.found dt) (told (s.found dt) m) = true := by
    by_contra no
    have none_owed := Bool.eq_false_iff.mpr no
    have list := broadcastList_queuePeriodic (.inl none_owed)
    have sends' : sendsDraw (told (s.found dt) m) = true := by
      rw [sendsDraw, Node.isActive, state]
      exact sends
    have entered' : entered (s.found dt) (told (s.found dt) m) = entered (s.found dt) m := by
      rw [entered, Node.isActive, state]
      rfl
    rw [drawOwed, sends', Bool.true_and, Bool.or_eq_false_iff, Bool.or_eq_false_iff, entered'] at none_owed
    obtain ⟨⟨-, unentered⟩, same⟩ := none_owed
    rcases changed with is | differs
    · rw [is] at unentered
      cases unentered
    · rw [ends, list, ← keeps.pub] at differs
      exact differs (by simpa using same)
  obtain ⟨moment, stands⟩ := ended_sends (s := s) (dt := dt) (rx := rx) own free still pending rfl (passes_draw owed)
  refine ⟨moment, fun short => ?_⟩
  have room : (queuePeriodic (s.found dt) (told (s.found dt) m)).tx.queue.length < 6 := by
    have longer := (queueFrames_answers (n0 := s.found dt) free).queue.longer
    rw [← finish_frames free pending] at longer
    have short' : (finish (s.found dt) m).tx.queue.length < 6 := by
      rw [ended_finish free still pending] at short
      exact short
    omega
  rw [ends, broadcastList_queuePeriodic (.inr (.inr room))]
  exact stands short

/-! ### An ACTIVE node -/

omit own free still pending in
theorem told_active (n0 : Node) : (told n0 m).isActive = m.isActive := by
  rw [Node.isActive, (told_keeps n0 m).state]
  rfl

omit own free still pending in
theorem told_has (n0 : Node) (d : Duty) : (told n0 m).has d = m.has d := by
  unfold Node.has
  rw [(told_keeps n0 m).cfg]

variable (active : m.isActive = true)

omit own free still pending in
include active in
theorem told_entered {n0 : Node} (before : n0.isActive = false) : entered n0 (told n0 m) = true := by
  rw [entered, told_active, active, before]
  rfl

include active

theorem ended_presence (changed : (s.found dt).isActive = false ∨
      (s.ended dt rx m).node.ownTravel ≠ (s.found dt).ownTravel ∨
      (s.ended dt rx m).node.ownWind ≠ (s.found dt).ownWind) :
    let t := s.ended dt rx m
    t.node.pub.presence = some m.now ∧ (t.node.tx.queue.length < 6 → t.queued (.presence (presenceBody t.node))) := by
  have look {α : Type} := ended_look (s := s) (dt := dt) (rx := rx) (α := α) free still pending
  have owed : presenceOwed (s.found dt) (told (s.found dt) m) = true := by
    rw [look Node.ownTravel fun _ _ _ _ _ => rfl, look Node.ownWind fun _ _ _ _ _ => rfl] at changed
    rw [presenceOwed, sendsPresence, told_active, active]
    rcases changed with before | travel | wind
    · simp [told_entered active before]
    · simp [travel]
    · simp [wind]
  dsimp only
  rw [look presenceBody fun _ _ _ _ _ => rfl]
  exact ended_sends own free still pending rfl (passes_presence owed)

theorem ended_allowance (changed : (s.found dt).isActive = false ∨ m.ev.allowance = true)
    (has : m.has .battery = true) : let t := s.ended dt rx m
    t.node.pub.allowance = some m.now ∧ ∀ b, allowanceBody m = some b →
      t.node.pub.allowance = some m.now ∧ (t.node.tx.queue.length < 6 → t.queued (.allowance b)) := by
  have keeps := told_keeps (s.found dt) m
  have owed : allowanceOwed (s.found dt) (told (s.found dt) m) = true := by
    rw [allowanceOwed, told_active, active, told_has, has]
    rcases changed with before | marked
    · simp [told_entered active before]
    · simp [told_mark Event.allowance (s.found dt) m fun _ => rfl, marked]
  refine ⟨?_, fun b body => ?_⟩
  · have answers := (queueFrames_answers (n0 := s.found dt) free).moment .allowance (by simp)
    rw [ended_finish free still pending, finish_frames free pending]
    exact answers.trans ((allowance_moment owed).trans (congrArg some keeps.now))
  · have body' : allowanceBody (told (s.found dt) m) = some b := by
      unfold allowanceBody
      rw [keeps.battery]
      exact body
    exact ended_sends own free still pending rfl (passes_allowance owed body')

theorem ended_tanks (changed : (s.found dt).isActive = false ∨
      tankMarks (s.ended dt rx m).node ≠ tankMarks (s.found dt) ∨
      (s.ended dt rx m).node.frost.state ≠ (s.found dt).frost.state)
    (has : m.has .tanks = true ∨ m.has .frost = true) : let t := s.ended dt rx m
    t.node.pub.tanks = some m.now ∧
      (t.node.tx.queue.length < 6 → t.queued (.tanks (tankMarks t.node) (frostPart t.node))) := by
  have look {α : Type} := ended_look (s := s) (dt := dt) (rx := rx) (α := α) free still pending
  have owed : tanksOwed (s.found dt) (told (s.found dt) m) = true := by
    rw [look tankMarks fun _ _ _ _ _ => rfl, look (·.frost.state) fun _ _ _ _ _ => rfl] at changed
    rw [tanksOwed, told_active, active, told_has, told_has, Bool.or_eq_true_iff.mpr has]
    rcases changed with before | tanks | frost
    · simp [told_entered active before]
    · simp [tanks]
    · simp [frost]
  dsimp only
  rw [look tankMarks fun _ _ _ _ _ => rfl, look frostPart fun _ _ _ _ _ => rfl]
  exact ended_sends own free still pending rfl (passes_tanks owed)

theorem ended_climate {c : HeaterCfg} (cfg : m.heaterCfg = some c) (changed : (s.found dt).isActive = false ∨
      climateMarks (s.ended dt rx m).node ≠ climateMarks (s.found dt)) : let t := s.ended dt rx m
    t.node.pub.climate = some m.now ∧ (t.node.tx.queue.length < 6 → t.queued (.climate (climateBody c t.node))) := by
  have look {α : Type} := ended_look (s := s) (dt := dt) (rx := rx) (α := α) free still pending
  have cfg' : (told (s.found dt) m).heaterCfg = some c := by
    unfold Node.heaterCfg
    rw [(told_keeps (s.found dt) m).cfg]
    exact cfg
  have owed : climateOwed (s.found dt) (told (s.found dt) m) = true := by
    rw [look climateMarks fun _ _ _ _ _ => rfl] at changed
    rw [climateOwed, told_active, active]
    rcases changed with before | heater
    · simp [told_entered active before]
    · simp [heater]
  dsimp only
  rw [look (climateBody c) fun _ _ _ _ _ => rfl]
  exact ended_sends own free still pending rfl (passes_climate cfg' owed)

theorem ended_motion (changed : (s.found dt).isActive = false ∨ motionMarks m ≠ motionMarks (s.found dt))
    (has : hasMotion m = true) : let t := s.ended dt rx m
    t.node.pub.motion = some m.now ∧ (t.node.tx.queue.length < 6 → t.queued (motionFrame t.node)) := by
  have look {α : Type} := ended_look (s := s) (dt := dt) (rx := rx) (α := α) free still pending
  have owed : motionOwed (s.found dt) (told (s.found dt) m) = true := by
    have duty : hasMotion (told (s.found dt) m) = hasMotion m := by
      unfold hasMotion
      rw [told_has, told_has, told_has]
    have marks : motionMarks (told (s.found dt) m) = motionMarks m := by
      unfold motionMarks
      rw [show (told (s.found dt) m).motion = m.motion from congrArg (·.motion) (told_core (s.found dt) m)]
    rw [motionOwed, told_active, active, duty, has, marks]
    rcases changed with before | motion
    · simp [told_entered active before]
    · simp [motion]
  dsimp only
  rw [look motionFrame fun _ _ _ _ _ => rfl]
  exact ended_sends own free still pending (f := motionFrame (told (s.found dt) m)) rfl (passes_motion owed)

theorem ended_lights_change (changed : (s.found dt).isActive = false ∨ m.ev.lights = true ∨
      lightMarks (s.ended dt rx m).node ≠ lightMarks (s.found dt)) (has : m.has .lights = true) :
    let t := s.ended dt rx m
    t.node.pub.lights = some m.now ∧
      (t.node.tx.queue.length < 6 → t.queued (.lights (t.node.lights.channels.map lightBody))) := by
  have look {α : Type} := ended_look (s := s) (dt := dt) (rx := rx) (α := α) free still pending
  have owed : lightsOwed (s.found dt) (told (s.found dt) m) = true := by
    rw [look lightMarks fun _ _ _ _ _ => rfl] at changed
    rw [lightsOwed, told_active, active, told_has, has]
    rcases changed with before | marked | lamps
    · simp [told_entered active before]
    · simp [told_mark Event.lights (s.found dt) m fun _ => rfl, marked]
    · simp [lamps]
  dsimp only
  rw [look (·.lights) fun _ _ _ _ _ => rfl]
  exact ended_sends own free still pending rfl (passes_lights owed)
end

/-! ### A SILENT node -/

theorem queuePeriodic_silent {n0 n : Node} (silent : n.state = some .silent) : queuePeriodic n0 n = n := by
  have rests : n.isActive = false := by simp [Node.isActive, silent]
  have presence : presenceOwed n0 n = false := by simp [presenceOwed, sendsPresence, rests, silent]
  have draw : drawOwed n0 n = false := by simp [drawOwed, sendsDraw, rests, silent]
  rw [queuePeriodic, queuePresence_free presence, queueDraw_free draw, queueAllowance_free (by simp [allowanceOwed, rests]),
    queueTanks_free (by simp [tanksOwed, rests]), queueClimate_free (.inr (by simp [climateOwed, rests])),
    queueMotion_free (by simp [motionOwed, rests]), queueLights_free (by simp [lightsOwed, rests])]

theorem ended_silent {s : State} {dt : Nat} {rx : Receiver} {m : Node} (free : m.ev.restart = false)
    (still : m.ev.reset = false) (pending : m.cmd.restart = none) (silent : m.state = some .silent) :
    (s.ended dt rx m).node.tx = m.tx ∧ (s.ended dt rx m).node.pub = m.pub := by
  have keeps := told_keeps (s.found dt) m
  have state : (told (s.found dt) m).state = some .silent := keeps.state.trans silent
  have rests : (told (s.found dt) m).isActive = false := by simp [Node.isActive, state]
  have ends : finish (s.found dt) m = told (s.found dt) m := by
    rw [finish_frames free pending, queueFrames_eq, queuePeriodic_silent state,
      queueReply_silent (told_free free) (.inr rests), queueReport_silent (.inr rests)]
  rw [ended_finish free still pending, ends]
  exact ⟨keeps.tx, keeps.pub⟩

end Sys2Proof.Machine
end

section
/-! # The mark of a sample, the content of a DRAW, and the frames of an event (O20) -/

namespace Sys2Proof.Machine

/-! ## The mark for an ALLOWANCE (R27) -/

/-- The hand-over leaves the accountant and the marks but that for the wait service alone. -/
theorem handOver_keeps (n : Node) : (handOver n).battery = n.battery ∧ (handOver n).marks = n.marks := by
  unfold handOver
  split
  · split
    · obtain ⟨-, -, -, marks⟩ := (Adds.refl n).accept
      exact ⟨(accept_keeps ..).battery, marks⟩
    · exact ⟨rfl, rfl⟩
  · exact ⟨rfl, rfl⟩

theorem sampleChanged_of {old new : Battery} {p r : Sample} (before : old.last = some p) (after : new.last = some r)
    (h : p.band ≠ r.band ∨ p.shed ≠ r.shed) : sampleChanged old new = true := by
  unfold sampleChanged
  rw [before, after]
  rcases h with h | h <;> simp [h]

theorem measure_marks {c : BatteryCfg} {raw : Int} {volt : Nat} {n : Node} {p r : Sample}
    (before : n.battery.last = some p) (after : (measure c raw volt n).battery.last = some r)
    (h : p.band ≠ r.band ∨ p.shed ≠ r.shed) : (measure c raw volt n).ev.allowance = true := by
  rw [measure_eq] at after ⊢
  obtain ⟨battery, marks⟩ := handOver_keeps (sampled c raw volt n)
  have mark : (handOver (sampled c raw volt n)).marks.allowance = (sampled c raw volt n).marks.allowance :=
    congrArg Event.allowance marks
  have mark : (handOver (sampled c raw volt n)).ev.allowance = (sampled c raw volt n).ev.allowance := mark
  rw [battery, (sampled_parts c raw volt n).1] at after
  rw [mark]
  exact congrArg (fun k : Node => k.ev.allowance) (if_pos (sampleChanged_of before after h))

/-! ## The broadcast list (R51) -/

theorem broadcastEntry_iff (i : Fin 8) (c : Claim) (d : DrawClaim) : broadcastEntry i c = some d ↔
    d.slot = i.val ∧ d.cls = c.cls ∧ d.held = c.held ∧ c.state ≠ .idle ∧ (c.state = .waiting → 0 < c.held) ∧
    (d.asking = true ↔ c.state = .asking) ∧ d.asked = if c.state = .asking then c.asked else c.held := by
  obtain ⟨slot, cls, asking, held, asked⟩ := d
  unfold broadcastEntry
  cases st : c.state with
  | idle => simp
  | waiting =>
    by_cases none_held : c.held = 0
    · simp [none_held]
    · simp only [none_held, if_false, Option.some.injEq, DrawClaim.mk.injEq]
      simp [Nat.pos_iff_ne_zero, none_held, eq_comm, and_left_comm]
  | asking => simp [eq_comm, and_left_comm]
  | holding => simp [eq_comm, and_left_comm]

theorem mem_slots (i : Fin 8) : i ∈ slots := by rw [slots_eq]; exact List.mem_finRange i

theorem broadcastList_sorted (n : Node) : (broadcastList n).Pairwise fun a b => a.slot < b.slot := by
  refine List.pairwise_filterMap.mpr ?_
  have rising : slots.Pairwise (· < ·) := by decide
  refine rising.imp fun {i j} less a ha b hb => ?_
  rw [((broadcastEntry_iff i _ a).mp ha).1, ((broadcastEntry_iff j _ b).mp hb).1]
  exact less

theorem mem_broadcastList (n : Node) (d : DrawClaim) : d ∈ broadcastList n ↔ ∃ i : Fin 8, let c := n.claim i
    d.slot = i.val ∧ d.cls = c.cls ∧ d.held = c.held ∧ c.state ≠ .idle ∧ (c.state = .waiting → 0 < c.held) ∧
    (d.asking = true ↔ c.state = .asking) ∧ d.asked = if c.state = .asking then c.asked else c.held := by
  rw [broadcastList, List.mem_filterMap]
  exact exists_congr fun i => (and_iff_right (mem_slots i)).trans (broadcastEntry_iff i (n.claim i) d)

/-! ## O20 -/

theorem climateMarks_ne {n m : Node} (h : n.heater.state ≠ m.heater.state ∨ n.heater.level ≠ m.heater.level ∨
    n.heater.mode ≠ m.heater.mode ∨ effectiveSetpoint n.heater ≠ effectiveSetpoint m.heater ∨
    n.heater.reason ≠ m.heater.reason ∨ n.heater.attempts ≠ m.heater.attempts) : climateMarks n ≠ climateMarks m := by
  intro same
  simp only [climateMarks, Prod.mk.injEq] at same
  obtain ⟨state, level, mode, setpoint, reason, attempts⟩ := same
  simp [state, level, mode, setpoint, reason, attempts] at h

theorem motionMarks_ne {n m : Node} (h : ∃ u, (n.unit u).state ≠ (m.unit u).state ∨ (n.unit u).cause ≠ (m.unit u).cause ∨
    (n.unit u).tag ≠ (m.unit u).tag ∨ (n.unit u).outcome ≠ (m.unit u).outcome) : motionMarks n ≠ motionMarks m := by
  intro same
  simp only [motionMarks, unitMarks, List.cons.injEq, Prod.mk.injEq, and_true] at same
  obtain ⟨awning, step⟩ := same
  obtain ⟨u, h⟩ := h
  cases u with
  | awning =>
    obtain ⟨state, cause, tag, outcome⟩ := awning
    rcases h with h | h | h | h
    · exact h state
    · exact h cause
    · exact h tag
    · exact h outcome
  | step =>
    obtain ⟨state, cause, tag, outcome⟩ := step
    rcases h with h | h | h | h
    · exact h state
    · exact h cause
    · exact h tag
    · exact h outcome

theorem up_of_active {n : Node} (active : n.isActive = true) : n.up = true :=
  up_of_state (by simpa [Node.isActive] using active) (by decide)

/-- The seven periods. -/
theorem periods_owe : ∀ (s : State) (dt : Nat) (n : Node) (p : Nat), n = s.found dt →
    let owes (row : Instr) (e : Event) (content : State → Prop) : Prop :=
      ∃ t, exec row s = .next t ∧ t = s.ended dt s.rx { n with ev := e } ∧ (n.calm = true → content t)
    let places (t : State) (f : Frame) : Prop := s.sound = true → n.tx.queue.length ≤ 4 → t.queued f
    (n.isActive = true ∨ (n.state = some .listenOnly ∧ n.station ≠ none ∧ n.cfg = none) →
      n.pub.presence = some p → p + 1000 ≤ n.now →
      owes (.presencePeriod dt) { n.ev with presence := true } fun t =>
        t.node.pub.presence = some n.now ∧ places t (.presence (presenceBody n))) ∧
    (n.isActive = true ∨ (n.state = some .listening ∧ broadcastList n ≠ []) →
      n.pub.draw = some p → p + 500 ≤ n.now →
      owes (.drawPeriod dt) { n.ev with draw := true } fun t =>
        t.node.pub.draw = some n.now ∧ places t (.draw (broadcastList t.node))) ∧
    (n.isActive = true → n.has .battery = true → n.pub.allowance = some p → p + 500 ≤ n.now →
      owes (.allowancePeriod dt) { n.ev with allowance := true } fun t =>
        t.node.pub.allowance = some n.now ∧ ∀ b, allowanceBody n = some b → places t (.allowance b)) ∧
    (n.isActive = true → n.has .tanks = true ∨ n.has .frost = true → n.pub.tanks = some p → p + 2000 ≤ n.now →
      owes (.tanksPeriod dt) { n.ev with tanks := true } fun t =>
        t.node.pub.tanks = some n.now ∧ places t (.tanks (n.ownTanks.map tankBody) (frostPart n))) ∧
    (n.isActive = true → n.has .heater = true → n.pub.climate = some p → p + 1000 ≤ n.now →
      owes (.climatePeriod dt) { n.ev with climate := true } fun t => ∀ c, n.heaterCfg = some c →
        t.node.pub.climate = some n.now ∧ places t (.climate (climateBody c n))) ∧
    (n.isActive = true → n.has .awning = true ∨ n.has .step = true ∨ n.has .wind = true → n.pub.motion = some p →
      p + (if isMoving n.motion.awning || isMoving n.motion.step then 250 else 1000) ≤ n.now →
      owes (.motionPeriod dt) { n.ev with motion := true } fun t =>
        t.node.pub.motion = some n.now ∧ places t (motionFrame n)) ∧
    (n.isActive = true → n.has .lights = true → n.pub.lights = some p → p + 2000 ≤ n.now →
      owes (.lightsPeriod dt) { n.ev with lights := true } fun t =>
        t.node.pub.lights = some n.now ∧ places t (.lights (t.node.lights.channels.map lightBody))) := by
  intro s dt n p hn owes places
  subst hn
  have still (e : Event → Event) (calm : (s.found dt).calm = true) : e (s.found dt).ev = e {} :=
    congrArg e (calm_parts calm).1
  refine ⟨fun sends since due => ?_, fun sends since due => ?_, fun active has since due => ?_,
    fun active has since due => ?_, fun active has since due => ?_, fun active has since due => ?_,
    fun active has since due => ?_⟩
  · have publishes : sendsPresence (s.found dt) = true := by
      rcases sends with active | ⟨state, station, cfg⟩
      · simp [sendsPresence, active]
      · simp [sendsPresence, state, Option.isSome_iff_ne_none, station, cfg]
    have up : (s.found dt).up = true := by
      rcases sends with active | ⟨state, -, -⟩
      · exact up_of_active active
      · exact up_of_state state (by decide)
    exact ⟨_, presencePeriod_acts up publishes since due, rfl, fun calm =>
      presence_queues up calm (still (fun e => { e with presence := true }) calm) publishes⟩
  · have up : (s.found dt).up = true := by
      rcases sends with active | ⟨state, -⟩
      · exact up_of_active active
      · exact up_of_state state (by decide)
    exact ⟨_, drawPeriod_acts up sends since due, rfl, fun calm =>
      draw_queues up calm (still (fun e => { e with draw := true }) calm) (sends.imp_right And.left)⟩
  · have up := up_of_active active
    exact ⟨_, allowancePeriod_acts up active has since due, rfl, fun calm =>
      allowance_queues up calm (still (fun e => { e with allowance := true }) calm) active has⟩
  · have up := up_of_active active
    exact ⟨_, tanksPeriod_acts up active has since due, rfl, fun calm =>
      tanks_queues up calm (still (fun e => { e with tanks := true }) calm) active has⟩
  · have up := up_of_active active
    exact ⟨_, climatePeriod_acts up active has since due, rfl, fun calm c cfg =>
      climate_queues up calm (still (fun e => { e with climate := true }) calm) active cfg⟩
  · have up := up_of_active active
    exact ⟨_, motionPeriod_acts up active (hasMotion_of has) since due, rfl, fun calm =>
      motion_queues up calm (still (fun e => { e with motion := true }) calm) active (hasMotion_of has)⟩
  · have up := up_of_active active
    exact ⟨_, lightsPeriod_acts up active has since due, rfl, fun calm =>
      lights_queues up calm (still (fun e => { e with lights := true }) calm) active has⟩

/-- Settles O20: the periods by their rows and turns, the frames on change by the turns of the kinds, the mark of a sample
by the hand-over, and the broadcast list entry by entry. -/
theorem periodsQueueTheirFrames : Obligations.PeriodsQueueTheirFrames := by
  unfold Obligations.PeriodsQueueTheirFrames
  refine ⟨periods_owe, ?_, fun c raw volt n p r before after changed => measure_marks before after changed,
    fun n => ⟨broadcastList_sorted n, mem_broadcastList n⟩⟩
  intro s dt rx m fits free still pending n t sends enters h
  have own := OwnIds.of_fits fits
  refine ⟨ended_silent free still pending, fun listening changed => ?_, fun active => ⟨fun changed => ?_,
    fun changed => ?_, fun changed has => ?_, fun changed has => ?_, fun c cfg changed => ?_, fun has changed => ?_,
    fun has changed => ?_⟩⟩
  · exact ended_draw own free still pending (by simp [sendsDraw, listening]) (.inr changed)
  · exact ended_presence own free still pending active changed
  · refine ended_draw own free still pending (by simp [sendsDraw, active]) (changed.imp_left fun before => ?_)
    rw [entered, active, show (s.found dt).isActive = false from before]
    rfl
  · exact ended_allowance own free still pending active changed has
  · exact ended_tanks own free still pending active changed has
  · exact ended_climate own free still pending active cfg (changed.imp_right climateMarks_ne)
  · exact ended_motion own free still pending active (changed.imp_right motionMarks_ne) (hasMotion_of has)
  · exact ended_lights_change own free still pending active changed has

end Sys2Proof.Machine
end

section
/-! # The entry to ACTIVE (O21) -/

namespace Sys2Proof.Machine

theorem startCheck_shape (c : HeaterCfg) (n : Node) :
    ∃ k w h, startCheck c n = (n.putClaim slotHeater k w).setHeater h := by
  have writes (h : Heater) : n.setHeater h = (n.putClaim slotHeater (n.claim slotHeater) n.ev.wait).setHeater h := by
    rw [putClaim_self]
  unfold startCheck
  repeat' split
  · exact ⟨_, _, _, writes n.heater⟩
  · exact ⟨_, _, _, writes _⟩
  · exact ⟨_, _, _, writes _⟩
  · exact ⟨_, _, _, writes n.heater⟩
  · exact ⟨_, _, _, writes _⟩
  · obtain ⟨k, w, e⟩ := fileClaim_puts slotHeater 3 (units c.start) (some heaterWait) n
    exact ⟨k, w, n.heater, e⟩

/-- An evaluation of the heater in STANDBY writes its claim, and its last stop reason. -/
theorem heaterCheck_shape (n : Node) : ∃ k w h, heaterCheck n = (n.putClaim slotHeater k w).setHeater h := by
  have still : n = (n.putClaim slotHeater (n.claim slotHeater) n.ev.wait).setHeater n.heater := by
    rw [putClaim_self]
    rfl
  unfold heaterCheck standbyCheck ventCheck
  repeat' split
  · exact ⟨_, _, _, still⟩
  · exact startCheck_shape _ n
  · exact startCheck_shape _ n
  · rename_i c _ _ _ _ _
    obtain ⟨k, w, e⟩ := fileClaim_puts slotHeater 3 (units c.vent) (some heaterWait) n
    exact ⟨k, w, n.heater, e⟩
  · exact ⟨_, _, _, still⟩
  · exact ⟨_, _, _, still⟩
  · exact ⟨_, _, _, still⟩

/-- The node as the jobs find it at the entry to ACTIVE. -/
def activated (n : Node) : Node :=
  { n with state := some .active, view := { n.view with listen := none }, ev := { n.ev with wait := true } }

/-- The pump's turn at the entry to ACTIVE. -/
def pumpStarts (n : Node) : Node :=
  match n.pumpCfg with
  | some c => pumpBegin c (activated n)
  | none => activated n

theorem enterActive_eq (n : Node) : enterActive n = heaterCheck (pumpStarts n) := rfl

theorem pumpStarts_shape (n : Node) :
    ∃ k w p, pumpStarts n = ((activated n).putClaim slotPump k w).setPump p := by
  unfold pumpStarts
  split
  · rename_i c _
    obtain ⟨k, w, p, e, -, -⟩ := pumpBegin_shape c (activated n)
    exact ⟨k, w, p, e⟩
  · exact ⟨(activated n).claim slotPump, _, n.pump, by rw [putClaim_self]; rfl⟩

/-- The entry to ACTIVE writes the state, the listening timer, the claims, the pump, the heater and the marks. -/
theorem enterActive_frame (n : Node) : let m := enterActive n
    m = { n with state := some .active, view := { n.view with listen := none }, claims := m.claims, pump := m.pump,
                 heater := m.heater, ev := m.ev } := by
  obtain ⟨k, w, p, pump⟩ := pumpStarts_shape n
  obtain ⟨k', w', h, heater⟩ := heaterCheck_shape (pumpStarts n)
  intro m
  have shape : m = (((((activated n).putClaim slotPump k w).setPump p).putClaim slotHeater k' w').setHeater h) := by
    rw [← pump, ← heater]
    rfl
  rw [shape]
  rfl

/-- The entry to ACTIVE keeps the marks but that for the wait service, and the command unit. -/
theorem enterActive_marks (n : Node) : (enterActive n).marks = n.marks := by
  obtain ⟨k, w, p, e⟩ := pumpStarts_shape n
  rw [enterActive_eq, marks_heaterCheck, e]
  rfl

/-- A pump that deferred its claim files it (R30, R91). -/
theorem enterActive_pump {n : Node} {c : PumpCfg} (cfg : n.pumpCfg = some c) (idle : n.pump.state = .idle)
    (on : n.pump.modeOn = true) (wanted : demand c n = true) (free : pumpInhibit c n = none)
    (slot : (n.claim slotPump).state = .idle) : let m := enterActive n
    m.pump.state = .waiting ∧ (m.claim slotPump).state = .waiting ∧
      (m.claim slotPump).deadline = some (n.now + 3000) := by
  have inhibit : pumpInhibit c (activated n) = none := free
  have demanded : demand c (activated n) = true := wanted
  have starts : pumpStarts n = pumpTo .waiting none (fileClaim slotPump 1 (units c.draw) (some pumpWait) (activated n)) := by
    unfold pumpStarts
    rw [cfg]
    dsimp only
    rw [pumpBegin_idle (n := activated n) idle on, inhibit]
    exact pumpFile_files (n := activated n) rfl on demanded idle
  have files := fileClaim_pump (n := activated n) (draw := units c.draw) slot
  obtain ⟨k, w, h, heater⟩ := heaterCheck_shape (pumpStarts n)
  intro m
  have shape : m = ((pumpStarts n).putClaim slotHeater k w).setHeater h := heater
  have claim : m.claim slotPump = (pumpStarts n).claim slotPump := by
    rw [shape]
    exact (claim_putClaim (pumpStarts n) slotHeater slotPump k w).trans (if_neg (by decide))
  have filed : (pumpStarts n).claim slotPump =
      { state := .waiting, cls := 1, wanted := units c.draw, stamp := n.now, deadline := some (n.now + 3000) } := by
    rw [starts]
    exact files
  refine ⟨?_, ?_, ?_⟩
  · rw [shape, starts]
    rfl
  · rw [claim, filed]
  · rw [claim, filed]

/-- At the entry to ACTIVE with nothing queued a PRESENCE and a DRAW are queued (R30). -/
theorem entry_queues {s : State} {dt : Nat} {rx : Receiver} {m : Node} (free : m.ev.restart = false)
    (still : m.ev.reset = false) (pending : m.cmd.restart = none) (before : (s.found dt).isActive = false)
    (active : m.isActive = true) (empty : m.tx.queue = []) :
    (s.ended dt rx m).queuedKind .presence ∧ (s.ended dt rx m).queuedKind .draw := by
  have keeps := told_keeps (s.found dt) m
  have enters := told_entered active before
  have none_queued : (told (s.found dt) m).tx.queue = [] := by rw [keeps.tx, empty]
  have ends : (s.ended dt rx m).node = _ := ended_finish free still pending
  have presence : presenceOwed (s.found dt) (told (s.found dt) m) = true := by
    simp [presenceOwed, sendsPresence, told_active, active, enters]
  have draw : drawOwed (s.found dt) (told (s.found dt) m) = true := by
    simp [drawOwed, sendsDraw, told_active, active, enters]
  have first := length_turnOf (presenceOwed (s.found dt) (told (s.found dt) m)) .presence
  constructor
  · obtain ⟨e, mem, is⟩ := ((passes_presence presence).finish free pending rfl).stands (.nil none_queued)
      (.inl (by simp [none_queued, kindsFrom]))
    exact ⟨e, by rw [ends]; exact mem, by rw [is]; rfl⟩
  · obtain ⟨e, mem, is⟩ := ((passes_draw draw).finish free pending rfl).stands (.nil none_queued)
      (.inl (by simp [none_queued, kindsFrom, kindsAt]; omega))
    exact ⟨e, by rw [ends]; exact mem, by rw [is]; rfl⟩

/-- Settles O21: the row's guard, then the writes of the entry to ACTIVE. -/
theorem listeningEndsInActive : Obligations.ListeningEndsInActive := by
  unfold Obligations.ListeningEndsInActive
  intro s dt n p hn listening since due
  subst hn
  have frame := enterActive_frame (s.found dt)
  have marks := enterActive_marks (s.found dt)
  refine ⟨enterActive (s.found dt), ?_, frame, fun c cfg idle on wanted free slot =>
    enterActive_pump cfg idle on wanted free slot, fun calm empty => ?_⟩
  · change execListeningTimerExpiry dt s = _
    unfold execListeningTimerExpiry
    refine nodeEvent_found (fun n => by simp) (up_of_state listening (by decide)) ?_
    simp [listening, since, Node.reached, due]
  · obtain ⟨clear, pending⟩ := calm_parts calm
    have mark {α : Type} (look : Event → α) : look (enterActive (s.found dt)).marks = look (s.found dt).marks :=
      congrArg look marks
    have free : (enterActive (s.found dt)).ev.restart = (s.found dt).ev.restart := mark Event.restart
    have still : (enterActive (s.found dt)).ev.reset = (s.found dt).ev.reset := mark Event.reset
    refine entry_queues (by rw [free, clear]) (by rw [still, clear]) ?_ (by simp [Node.isActive, listening]) ?_ ?_
    · rw [frame]
      exact pending
    · rw [frame]
      rfl
    · rw [frame]
      exact empty

end Sys2Proof.Machine
end

section
/-!
# RESTART (O60)

The statement's first clause asks nothing of the further REPLYs that are waited for (`restartAgain`). In a state where one
is waited for though no restart is pending, which no reset and no RESTART leaves behind, the REPLY of a RESTART is queued
and the check of the restart finds that stray one missing: the node is reset in the same event.
-/

namespace Sys2Proof.Machine

/-- A RESTART of station 2 to station 1. -/
def restartOrder : CommandBody := { target := 1, tag := 0, code := 0x3F, args := [] }

/-- The RESTART as the receiver took it. -/
def restartHeard : RxFrame := { stamp := 0, source := 2, frame := .command restartOrder }

/-- ACTIVE with nothing queued, and an entry 7 waited for as the REPLY of a further RESTART though none is pending. -/
def strayRestart : State :=
  { rx := { arrival := [restartHeard] }
    node := { station := some 1, state := some .active, cmd := { restartAgain := [7] } } }

theorem strayRestart_heard : Heard strayRestart 0 0x3F restartHeard [] restartOrder where
  up := by decide
  head := rfl
  low := by decide
  high := by decide
  other := by decide
  fresh := by decide
  room := by decide
  frame := rfl
  code := rfl
  target := by decide
  station := by decide

/-- The node is reset with cause 4, and its queue is empty. -/
theorem strayRestart_resets : exec (.restart 0) strayRestart =
    .next { node := { cause := 4, held := false } } := rfl

/-- Refutes O60: with a stray entry in `restartAgain` the event of the RESTART itself resets the node, and no REPLY stands in
its queue. -/
theorem not_restartResets : ¬ Obligations.RestartResets := by
  unfold Obligations.RestartResets
  intro h
  obtain ⟨first, -⟩ := h strayRestart 0
  obtain ⟨active, -⟩ := first restartHeard [] restartOrder _ rfl strayRestart_heard rfl (by decide) (by decide)
  obtain ⟨t, e, runs, queued, -⟩ := active (by decide) (by decide)
  rw [strayRestart_resets] at runs
  cases runs
  cases queued

end Sys2Proof.Machine
end

section
/-! # The answers of a COMMAND stand in the queue (R187, R195) -/

namespace Sys2Proof.Machine

/-- A COMMAND that is taken writes nothing but the sender's entry and the source that follows from the table. -/
theorem admitted_command {s : State} {dt : Nat} {x : RxFrame} {rest : List RxFrame} {b : CommandBody}
    (a : Admitted s dt x rest) (frame : x.frame = .command b) : s.admitted dt x = { s.found dt with
      view := { (s.found dt).view with
        peers := (s.admitted dt x).view.peers, source := (s.admitted dt x).view.source,
        conflict := (s.admitted dt x).view.conflict } } := by
  obtain ⟨new, table, -⟩ := upsertPeer_writes a.room
  rw [State.admitted, takeFrame_admitted a table, derive_command frame]
  rfl

/-- What a COMMAND writes to the command unit and the marks leaves its event quiet. -/
theorem quiet_command {s : State} {dt : Nat} {x : RxFrame} {rest : List RxFrame} {b : CommandBody}
    (a : Admitted s dt x rest) (frame : x.frame = .command b) (c : CommandUnit) (e : Event) :
    Quiet (s.found dt) { s.admitted dt x with cmd := c, ev := e } := by
  unfold Quiet
  rw [admitted_command a frame]

/-- The node at the turn of the REPLY. -/
theorem answers_turn {n m : Node} (quiet : Quiet n m) (unmarked : ∀ j < 6, markAt m.ev j = false) :
    let w := queuePeriodic n (told n m)
    w.tx.queue.length ≤ n.tx.queue.length + 2 ∧ w.isActive = n.isActive ∧ w.ev.reply = m.ev.reply ∧
      w.ev.report = m.ev.report ∧ w.ev.restart = m.ev.restart := by
  have stage := queuePeriodic_stage n (told n m)
  have keeps := told_keeps n m
  have two := quiet.two unmarked
  have shorter := stage.queue.shorter
  rw [keeps.tx, quiet.tx] at shorter
  refine ⟨by omega, ?_, ?_, ?_, ?_⟩
  · rw [stage.shape]
    exact quiet.isActive
  · rw [stage.ev]
    exact told_mark Event.reply n m fun _ => rfl
  · rw [stage.ev]
    exact told_mark Event.report n m fun _ => rfl
  · rw [stage.ev]
    exact told_mark Event.restart n m fun _ => rfl

theorem answer_stays {e : TxEntry} {f : Frame} {n : Node} (mem : e ∈ n.tx.queue) : e ∈ (placeAnswer f n).1.tx.queue := by
  by_cases room : n.tx.queue.length < 6
  · rw [placeAnswer_appends room]
    exact List.mem_append_left _ mem
  · rw [placeAnswer_drops room]
    exact mem

/-- A REPLY that is owed, and a REPORT beside it, stand in the queue after a quiet event that found two entries at most
in it. -/
theorem answers_queued {s : State} {dt : Nat} {rx : Receiver} {m : Node} {r : ReplyBody} (quiet : Quiet (s.found dt) m)
    (free : m.ev.restart = false) (still : m.ev.reset = false) (pending : m.cmd.restart = none)
    (unmarked : ∀ j < 6, markAt m.ev j = false) (active : (s.found dt).isActive = true)
    (short : (s.found dt).tx.queue.length ≤ 2) (reply : m.ev.reply = some r) :
    (s.ended dt rx m).queued (.reply r) ∧ ∀ q, m.ev.report = some q → (s.ended dt rx m).queued (.report q) := by
  obtain ⟨length, stays, replies, reports, restarts⟩ := answers_turn quiet unmarked
  have node : (s.ended dt rx m).node = (finish (s.found dt) m).setEv {} := ended_finish free still pending
  rw [finish_frames free pending, queueFrames_eq] at node
  generalize queuePeriodic (s.found dt) (told (s.found dt) m) = w at length stays replies reports restarts node
  have placed : queueReply w = (placeAnswer (.reply r) w).1 :=
    queueReply_owed (restarts.trans free) (replies.trans reply) (stays.trans active)
  rw [placed] at node
  obtain ⟨e, mem, is, -⟩ := placeAnswer_stands (f := .reply r) (n := w) (by omega)
  have stage := stage_answer (.reply r) w (by simp [kindOf])
  have shorter := stage.queue.shorter
  simp only [List.length_singleton] at shorter
  have active' : (placeAnswer (.reply r) w).1.isActive = true := by
    rw [stage.shape]
    exact stays.trans active
  have reports' : (placeAnswer (.reply r) w).1.ev.report = m.ev.report := by rw [stage.ev, reports]
  generalize (placeAnswer (.reply r) w).1 = v at node mem shorter active' reports'
  have kept : e ∈ (queueReport v).tx.queue := by
    cases owed : v.ev.report with
    | none => rwa [queueReport_silent (.inl owed)]
    | some q => rw [queueReport_owed owed active']; exact answer_stays mem
  refine ⟨⟨e, by rw [node]; exact kept, is⟩, fun q owed => ?_⟩
  rw [queueReport_owed (reports'.trans owed) active'] at node
  obtain ⟨e', mem', is', -⟩ := placeAnswer_stands (f := .report q) (n := v) (by omega)
  exact ⟨e', by rw [node]; exact mem', is'⟩

end Sys2Proof.Machine
end

section
/-! # The tables of quantities and standing conditions (R196, R199; O59) -/

namespace Sys2Proof.Machine

/-! ## The quantities (R196) -/

theorem natOr_eq (v : Option Nat) : natOr v = (v.map fun k => (k : Int)).getD (-2147483648) := by cases v <;> rfl

/-- The lowest AIN channel of AUX is the one that is found. -/
theorem auxReading_first {n : Node} {i : Fin 16} (is : n.role i = .ain ∧ n.owner i = some .aux)
    (first : ∀ j, j < i → ¬(n.role j = .ain ∧ n.owner j = some .aux)) : auxReading n = (n.chan i).reading := by
  have found : channels.find? (fun i => n.role i == .ain && n.owner i == some .aux) = some i := by
    rw [channels, ← Fin.find?_eq_find?_finRange, Fin.find?_eq_some_iff]
    exact ⟨by simp [is], fun j less => by simpa using first j less⟩
  rw [auxReading, found]
  rfl

theorem auxReading_none {n : Node} (h : ∀ i, ¬(n.role i = .ain ∧ n.owner i = some .aux)) : auxReading n = none := by
  have found : channels.find? (fun i => n.role i == .ain && n.owner i == some .aux) = none :=
    List.find?_eq_none.mpr fun i _ => by simpa using h i
  rw [auxReading, found]
  rfl

/-- Selectors 9 to 11. -/
theorem quantity_tank (k : Fin 3) (n : Node) :
    quantity (9 + k) n = (((n.tanks.records[k.val]?.bind (·.level)).map fun v => (v : Int)).getD (-2147483648)) := by
  match k with
  | 0 => exact natOr_eq _
  | 1 => exact natOr_eq _
  | 2 => exact natOr_eq _

/-- Selector 12. -/
theorem pumpCode_eq (s : PumpState) (r : Option PumpReason) : ((pumpStateCode s * 16 + pumpReasonCode r : Nat) : Int) =
    16 * (match s with | .idle => 0 | .waiting => 1 | .running => 2 | .inhibited => 3 | .dryFault => 4) +
      match r with
        | none => 0 | some .frost => 1 | some .greyFull => 2 | some .freshEmpty => 3 | some .channel => 4
        | some .shed => 5 | some .noEnergy => 6 := by
  rw [Nat.mul_comm, Nat.cast_add, Nat.cast_mul]
  congr 1
  · cases s <;> rfl
  · cases r with
    | none => rfl
    | some r => cases r <;> rfl

/-- Selector 14. -/
theorem frostCode_eq (s : FrostState) : ((frostCode s : Nat) : Int) = match s with
    | .armed => 0 | .countdown => 1 | .dumping => 2 | .drained => 3 | .closing => 4 | .valveFault => 5
    | .disarmed => 6 := by cases s <;> rfl

/-! ## The standing conditions (R199) -/

theorem isHeldOff_eq (c : Channel) : isHeldOff c = true ↔ c.protection = .tripped ∨ c.protection = .latchedOff := by
  unfold isHeldOff
  cases c.protection <;> decide

/-- What holds of one of the units. -/
theorem exists_unit {p : MotionUnit → Prop} : (∃ u, p u) ↔ p .awning ∨ p .step :=
  ⟨fun ⟨u, h⟩ => by cases u with | awning => exact .inl h | step => exact .inr h,
    fun h => h.elim (fun a => ⟨_, a⟩) fun b => ⟨_, b⟩⟩

theorem faultedBy_iff {c : FaultCause} {m : MoveUnit} : faultedBy c m = true ↔ m.state = .fault ∧ m.cause = c := by
  simp [faultedBy]

theorem standing_channelTrip (n : Node) : standing .channelTrip n = true ↔
    ∃ i, n.role i = .out ∧ ((n.chan i).protection = .tripped ∨ (n.chan i).protection = .latchedOff) := by
  simp only [standing, channels, List.any_eq_true, List.mem_finRange, true_and, Bool.and_eq_true, beq_iff_eq, isHeldOff_eq]

theorem standing_sensorFault (n : Node) : standing .sensorFault n = true ↔ ∃ (c : Image) (t : Fin 4), n.cfg = some c ∧
    c.temps[t] ≠ .unused ∧ (n.bank.temps[t]).reading = some none := by
  simp only [standing, List.any_eq_true, List.mem_finRange, true_and, Bool.and_eq_true, bne_iff_ne, beq_iff_eq]
  constructor
  · rintro ⟨t, used, fault⟩
    unfold tempTypeOf at used
    split at used
    · rename_i c cfg
      exact ⟨c, t, cfg, used, fault⟩
    · exact absurd rfl used
  · rintro ⟨c, t, cfg, used, fault⟩
    refine ⟨t, ?_, fault⟩
    unfold tempTypeOf
    rw [cfg]
    exact used

/-! ## The flags after a query (R199) -/

theorem flagMask_bit (g f : Flag) : (flagMask g).getLsbD (flagBit f) = decide (g = f) := by
  cases g <;> cases f <;> rfl

theorem foldl_flags (n : Node) (f : Flag) (l : List Flag) (w : BitVec 16) :
    (l.foldl (fun w g => if standing g n then w ||| flagMask g else w) w).getLsbD (flagBit f) =
      (w.getLsbD (flagBit f) || l.any fun g => standing g n && decide (g = f)) := by
  induction l generalizing w with
  | nil => simp
  | cons g l ih =>
    rw [List.foldl_cons, ih, List.any_cons]
    cases standing g n with
    | false => simp
    | true => simp [flagMask_bit, Bool.or_assoc]

theorem mem_allFlags (f : Flag) : f ∈ allFlags := by cases f <;> decide

/-- The flags that stand after a query are those whose conditions stand. -/
theorem standingFlags_bit (f : Flag) (n : Node) : (standingFlags n).getLsbD (flagBit f) = standing f n := by
  rw [standingFlags, foldl_flags]
  have only : (allFlags.any fun g => standing g n && decide (g = f)) = standing f n := by
    rw [Bool.eq_iff_iff, List.any_eq_true]
    constructor
    · rintro ⟨g, -, h⟩
      obtain ⟨stands, rfl⟩ := by simpa using h
      exact stands
    · exact fun h => ⟨f, mem_allFlags f, by simp [h]⟩
  simpa using only

end Sys2Proof.Machine
end

section
/-! # REPORT_SELECT, the queries and UNKNOWN_COMMAND (O59) -/

namespace Sys2Proof.Machine

section
variable {s : State} {dt code : Nat} {x : RxFrame} {rest : List RxFrame} {b : CommandBody} {k : Node}

/-- What a REPLY owed leaves, and the command unit as the COMMAND leaves it. -/
theorem command_ends (h : Heard s dt code x rest b) (hk : k = s.admitted dt x) (active : k.isActive = true)
    (empty : k.tx.queue = []) {c : CommandUnit} (pending : c.restart = none) {e : Event} {r : ReplyBody}
    {q : Option ReportBody} (is : e = { reply := some r, report := q }) (rx : Receiver) :
    let t := s.ended dt rx { k with cmd := c, ev := e }
    t.queued (.reply r) ∧ (∀ p, q = some p → t.queued (.report p)) ∧ t.node.cmd.map = c.map ∧
      t.node.cmd.flags = c.flags ∧ ∀ k, k ≠ .queueDrops → counter k t.node = c.counters[counterPlace k] := by
  have frame := admitted_command h.toAdmitted h.frame
  have quiet := quiet_command h.toAdmitted h.frame c e
  rw [← hk] at frame quiet
  have same : k.isActive = (s.found dt).isActive := by rw [frame]; rfl
  have queue : k.tx = (s.found dt).tx := by rw [frame]
  have free : e.restart = false := by rw [is]
  have still : e.reset = false := by rw [is]
  obtain ⟨reply, report⟩ := answers_queued (rx := rx) (r := r) quiet free still pending
    (fun j low => by rw [is]; interval_cases j <;> rfl) (same ▸ active) (by rw [← queue, empty]; decide) (by rw [is])
  have node : (s.ended dt rx { k with cmd := c, ev := e }).node = _ := ended_finish free still pending
  have core := core_finish (n0 := s.found dt) (n := { k with cmd := c, ev := e }) free pending
  refine ⟨reply, fun p owed => report p (by rw [is]; exact owed), ?_, ?_, fun k other => ?_⟩
  · rw [node]
    exact congrArg (·.cmd.map) core
  · rw [node]
    exact congrArg (·.cmd.flags) core
  · rw [node]
    exact counter_of_core core other

/-! ## REPORT_SELECT (R196) -/

theorem badMap_iff (map : List Nat) : badMap map = true ↔ map = [] ∨ ∃ q ∈ map, 23 < q := by
  simp [badMap]

theorem reportSelect_heard (h : Heard s dt 0x38 x rest b) (addressed : (s.admitted dt x).station = some b.target)
    (length : b.args.length = 8) : exec (.reportSelect dt) s = .next (s.ended dt (s.rx.without rest)
      (answer x.source b (reportSelectAct x.source b (s.admitted dt x)))) := by
  change execReportSelect dt s = _
  unfold execReportSelect
  rw [commandEvent_heard h rfl, runCommand_result addressed (hasLength_eq_true length) rfl]

theorem reportSelectAct_takes {source : Nat} {n : Node} (good : badMap (newMap (selectPlaces b.args)) = false) :
    reportSelectAct source b n =
      { result := .done
        detail := (newMap (selectPlaces b.args)).length
        node := n.setCmd { n.cmd with map := newMap (selectPlaces b.args) } } := by
  simp only [reportSelectAct, good, Bool.false_eq_true, if_false]

theorem reportSelectAct_refuses {source : Nat} {n : Node} (bad : badMap (newMap (selectPlaces b.args)) = true) :
    reportSelectAct source b n = give .refusedRange n := by
  simp only [reportSelectAct, bad, if_true]

/-! ## The queries (R195, R197 to R199) -/

theorem query_heard {row : Instr} {lengthOk : List Byte → Bool} {ask : CommandBody → Node → Outcome}
    (e : exec row s = commandEvent dt code (fun _ => true) (runQuery lengthOk ask) s)
    (h : Heard s dt code x rest b) (addressed : (s.admitted dt x).station = some b.target)
    (active : (s.admitted dt x).isActive = true) (empty : (s.admitted dt x).tx.queue = [])
    (length : lengthOk b.args = true) : exec row s = .next (s.ended dt (s.rx.without rest)
      (answer x.source b (ask b (s.admitted dt x)))) := by
  rw [e, commandEvent_heard h rfl, runQuery_active active]
  simp [runAddressed, addressed, length, empty, queueLimit]

theorem queryReportAct_refuses {n : Node} (h : n.cmd.map.length ≤ argOf b 0 ∨ argOf b 1 = 0) :
    queryReportAct b n = give .refusedRange n := if_pos h

theorem queryReportAct_reports {n : Node} (within : argOf b 0 < n.cmd.map.length) (asked : 0 < argOf b 1) :
    queryReportAct b n =
      let m := owe (.quantities (argOf b 0) (min (argOf b 1) 6) (windowOf (argOf b 0) (min (argOf b 1) 6) n)) n
      if 6 < argOf b 1 then { result := .doneClamped, detail := 6, node := m } else give .done m :=
  if_neg (by omega)

/-! ## UNKNOWN_COMMAND (R195) -/

theorem unknownCommand_heard (h : Heard s dt b.code x rest b) (unknown : b.code ∉ commandCodes)
    (addressed : (s.admitted dt x).station = some b.target) : exec (.unknownCommand dt) s =
      .next (s.ended dt (s.rx.without rest) (answer x.source b (give .unknownCommand (s.admitted dt x)))) := by
  change execUnknownCommand dt s = _
  unfold execUnknownCommand
  rw [dispatchEvent_acts h.up h.head (by rw [h.frame]; simpa [isUnknown] using unknown), dispatch,
    takeFrame_heard h.toAdmitted, onCommand, h.frame]
  simp [runAddressed, addressed]
end

/-! ## The rows, heard by a node with nothing queued -/

section
variable {s : State} {dt : Nat} {x : RxFrame} {rest : List RxFrame} {b : CommandBody} {k : Node}
  (hk : k = s.admitted dt x) (active : k.isActive = true) (calm : k.calm = true) (empty : k.tx.queue = [])
  (addressed : k.station = some b.target)

/-- The REPLY of a COMMAND with a result and a detail. -/
def replyTo (x : RxFrame) (b : CommandBody) (r : Result) (detail : Int) : ReplyBody :=
  ⟨x.source, b.tag, b.code, resultCode r, detail⟩

theorem answer_give (r : Result) (n : Node) :
    answer x.source b (give r n) = { n with ev := { n.ev with reply := some (replyTo x b r 0) } } := rfl

include hk addressed

theorem reportSelect_row (h : Heard s dt 0x38 x rest b) (length : b.args.length = 8) :
    exec (.reportSelect dt) s = .next (s.ended dt (s.rx.without rest) (answer x.source b (reportSelectAct x.source b k))) := by
  rw [hk] at addressed ⊢
  exact reportSelect_heard h addressed length

theorem unknownCommand_row (h : Heard s dt b.code x rest b) (unknown : b.code ∉ commandCodes) :
    exec (.unknownCommand dt) s = .next (s.ended dt (s.rx.without rest) (answer x.source b (give .unknownCommand k))) := by
  rw [hk] at addressed ⊢
  exact unknownCommand_heard h unknown addressed

include active empty

theorem queryRow_acts {code : Nat} {row : Instr} {lengthOk : List Byte → Bool} {ask : CommandBody → Node → Outcome}
    (e : exec row s = commandEvent dt code (fun _ => true) (runQuery lengthOk ask) s)
    (h : Heard s dt code x rest b) (length : lengthOk b.args = true) :
    exec row s = .next (s.ended dt (s.rx.without rest) (answer x.source b (ask b k))) := by
  rw [hk] at addressed active empty ⊢
  exact query_heard e h addressed active empty length

include calm

theorem reportSelect_acts (h : Heard s dt 0x38 x rest b) (length : b.args.length = 8) :
    let map := newMap (selectPlaces b.args)
    ∃ t, exec (.reportSelect dt) s = .next t ∧
      (map ≠ [] → (∀ q ∈ map, q ≤ 23) → t = s.ended dt (s.rx.without rest) { k with
        cmd := { k.cmd with map := map }, ev := { k.ev with reply := some (replyTo x b .done map.length) } } ∧
        t.node.cmd.map = map ∧ t.queued (.reply (replyTo x b .done map.length))) ∧
      (map = [] ∨ (∃ q ∈ map, 23 < q) → t = s.ended dt (s.rx.without rest) { k with
        ev := { k.ev with reply := some (replyTo x b .refusedRange 0) } }) := by
  obtain ⟨clear, pending⟩ := calm_parts calm
  intro map
  refine ⟨_, reportSelect_row hk addressed h length, fun some_map small => ?_, fun bad => ?_⟩
  · have good : badMap map = false := by
      rw [Bool.eq_false_iff, Ne, badMap_iff, not_or]
      exact ⟨some_map, fun ⟨q, mem, large⟩ => absurd (small q mem) (not_le.mpr large)⟩
    have shape : answer x.source b (reportSelectAct x.source b k) = { k with
        cmd := { k.cmd with map := map }, ev := { k.ev with reply := some (replyTo x b .done map.length) } } := by
      rw [reportSelectAct_takes good]
      rfl
    rw [shape]
    obtain ⟨queued, -, stands, -⟩ := command_ends h hk active empty (c := { k.cmd with map := map }) pending
      (e := { k.ev with reply := some (replyTo x b .done map.length) }) (q := none) (by rw [clear]) (s.rx.without rest)
    exact ⟨rfl, stands, queued⟩
  · rw [reportSelectAct_refuses ((badMap_iff _).mpr bad), answer_give]

theorem queryReport_acts {start count : Byte} (h : Heard s dt 0x39 x rest b) (args : b.args = [start, count]) :
    ∃ t, exec (.queryReport dt) s = .next t ∧
      (start.toNat < k.cmd.map.length → 0 < count.toNat →
        t.queued (.report (.quantities start.toNat (min count.toNat 6) (windowOf start.toNat (min count.toNat 6) k))) ∧
        t.queued (.reply (if 6 < count.toNat then replyTo x b .doneClamped 6 else replyTo x b .done 0)) ∧
        t.node.cmd.map = k.cmd.map) ∧
      (k.cmd.map.length ≤ start.toNat ∨ count = 0 → t = s.ended dt (s.rx.without rest) { k with
        ev := { k.ev with reply := some (replyTo x b .refusedRange 0) } }) := by
  obtain ⟨clear, pending⟩ := calm_parts calm
  have first : argOf b 0 = start.toNat := by rw [argOf, args]; rfl
  have second : argOf b 1 = count.toNat := by rw [argOf, args]; rfl
  refine ⟨_, queryRow_acts hk active empty addressed (row := .queryReport dt) rfl h (by rw [args]; rfl),
    fun within asked => ?_, fun bad => ?_⟩
  · have ends (r : ReplyBody) (q : ReportBody) := command_ends h hk active empty (c := k.cmd) pending (r := r)
      (e := { k.ev with reply := some r, report := some q }) (q := some q) (by rw [clear]) (s.rx.without rest)
    rw [queryReportAct_reports (by rw [first]; exact within) (by rw [second]; exact asked), first, second]
    dsimp only
    split
    · obtain ⟨replied, reported, map, -⟩ := ends (replyTo x b .doneClamped 6) (.quantities start.toNat _ _)
      exact ⟨reported _ rfl, replied, map⟩
    · obtain ⟨replied, reported, map, -⟩ := ends (replyTo x b .done 0) (.quantities start.toNat _ _)
      exact ⟨reported _ rfl, replied, map⟩
  · have refused : k.cmd.map.length ≤ argOf b 0 ∨ argOf b 1 = 0 := by
      rw [first, second]
      exact bad.imp_right fun none_asked => by rw [none_asked]; rfl
    rw [queryReportAct_refuses refused, answer_give]

theorem queryCounters_acts (h : Heard s dt 0x3A x rest b) (args : b.args = []) :
    ∃ t, exec (.queryCounters dt) s = .next t ∧ t.queued (.report (.counters 0 12 k.cmd.counters.toList)) ∧
      t.queued (.reply (replyTo x b .done 0)) ∧ ∀ c, c ≠ .queueDrops → counter c t.node = 0 := by
  obtain ⟨clear, pending⟩ := calm_parts calm
  refine ⟨_, queryRow_acts hk active empty addressed (row := .queryCounters dt) rfl h (by rw [args]; rfl), ?_⟩
  obtain ⟨replied, reported, -, -, counters⟩ := command_ends h hk active empty
    (c := { k.cmd with counters := .replicate 12 0 }) pending (r := replyTo x b .done 0)
    (e := { k.ev with reply := some (replyTo x b .done 0), report := some (.counters 0 12 k.cmd.counters.toList) })
    (q := some (.counters 0 12 k.cmd.counters.toList)) (by rw [clear]) (s.rx.without rest)
  exact ⟨reported _ rfl, replied, fun c other => (counters c other).trans (by simp)⟩

theorem queryFlags_acts (h : Heard s dt 0x3B x rest b) (args : b.args = []) :
    ∃ t, exec (.queryFlags dt) s = .next t ∧ t.queued (.report (.flags 0 16 k.cmd.flags)) ∧
      t.queued (.reply (replyTo x b .done 0)) ∧ ∀ f, hasFlag f t.node = standing f k := by
  obtain ⟨clear, pending⟩ := calm_parts calm
  refine ⟨_, queryRow_acts hk active empty addressed (row := .queryFlags dt) rfl h (by rw [args]; rfl), ?_⟩
  obtain ⟨replied, reported, -, flags, -⟩ := command_ends h hk active empty
    (c := { k.cmd with flags := standingFlags k }) pending (r := replyTo x b .done 0)
    (e := { k.ev with reply := some (replyTo x b .done 0), report := some (.flags 0 16 k.cmd.flags) })
    (q := some (.flags 0 16 k.cmd.flags)) (by rw [clear]) (s.rx.without rest)
  refine ⟨reported _ rfl, replied, fun f => ?_⟩
  rw [hasFlag, ← standingFlags_bit]
  exact congrArg (·.getLsbD (flagBit f)) flags

theorem unknownCommand_acts (h : Heard s dt b.code x rest b) (unknown : b.code ∉ commandCodes) :
    ∃ t, exec (.unknownCommand dt) s = .next t ∧
      t = s.ended dt (s.rx.without rest) { k with ev := { k.ev with reply := some (replyTo x b .unknownCommand 0) } } ∧
      t.queued (.reply (replyTo x b .unknownCommand 0)) := by
  obtain ⟨clear, pending⟩ := calm_parts calm
  refine ⟨_, unknownCommand_row hk addressed h unknown, by rw [answer_give], ?_⟩
  obtain ⟨queued, -⟩ := command_ends h hk active empty (c := k.cmd) pending (r := replyTo x b .unknownCommand 0)
    (e := { k.ev with reply := some (replyTo x b .unknownCommand 0) }) (q := none) (by rw [clear]) (s.rx.without rest)
  exact queued
end

/-! ## The tables -/

theorem quantity_table (n : Node) :
    let absent : Int := -2147483648
    let number (v : Option Nat) : Int := (v.map fun k => (k : Int)).getD absent
    let held (d : Duty) (v : Int) : Int := if n.has d then v else absent
    quantity 4 n = number (n.batteryCfg.map fun c => n.battery.q * 1000 / (c.capacityAh * 3600000)) ∧
    quantity 6 n = number (n.battery.last.map (·.voltage)) ∧
    quantity 12 n = held .pump (16 * (match n.pump.state with
        | .idle => 0 | .waiting => 1 | .running => 2 | .inhibited => 3 | .dryFault => 4) +
      match n.pump.reason with
        | none => 0 | some .frost => 1 | some .greyFull => 2 | some .freshEmpty => 3 | some .channel => 4
        | some .shed => 5 | some .noEnergy => 6) ∧
    quantity 14 n = held .frost (match n.frost.state with
      | .armed => 0 | .countdown => 1 | .dumping => 2 | .drained => 3 | .closing => 4 | .valveFault => 5
      | .disarmed => 6) :=
  ⟨natOr_eq _, natOr_eq _, congrArg (ofDuty .pump n) (pumpCode_eq n.pump.state n.pump.reason),
    congrArg (ofDuty .frost n) (frostCode_eq n.frost.state)⟩

/-- Settles O59: the rows end quiet with the REPLY, and the REPORT of a query, queued; the tables are read off. -/
theorem commandUnitRows : Obligations.CommandUnitRows := by
  unfold Obligations.CommandUnitRows
  refine ⟨?_, fun n => ?_, fun n => ?_⟩
  · intro s dt x rest b k hk active calm empty addressed reply places map
    exact ⟨reportSelect_acts hk active calm empty addressed,
      fun start count h args => queryReport_acts hk active calm empty addressed h args,
      queryCounters_acts hk active calm empty addressed, queryFlags_acts hk active calm empty addressed,
      fun unknown h => unknownCommand_acts hk active calm empty addressed h unknown⟩
  · intro absent number held auxAin
    obtain ⟨soc, voltage, pump, frost⟩ := quantity_table n
    refine ⟨rfl, rfl, rfl, ?_, soc, rfl, voltage, rfl, rfl, fun k => quantity_tank k n, pump, rfl, frost, rfl, rfl, rfl,
      rfl, rfl, ?_, fun i is first => ?_, fun no => ?_, rfl, rfl⟩
    · simp only [quantity, heldInView, slots_eq]
    · simp only [quantity, channelMask, channels, Node.auxState, beq_iff_eq]
      rfl
    · simp only [quantity, auxReading_first is first]
      rfl
    · simp only [quantity, auxReading_none no]
      rfl
  · refine ⟨Iff.rfl, Iff.rfl, standing_channelTrip n, ?_, by simp [standing], by simp [standing], by simp [standing],
      by simp [standing], by simp [standing], ?_, ?_, by simp [standing, and_assoc], standing_sensorFault n, rfl, rfl, rfl⟩
    · rw [exists_unit]
      simp [standing, Node.bridge]
    · rw [exists_unit]
      simp [standing, faultedBy_iff, Node.unit]
    · rw [exists_unit]
      simp [standing, faultedBy_iff, Node.unit]

end Sys2Proof.Machine
end

section
/-! # START_DECISION (O9) -/

namespace Sys2Proof.Machine

/-! ## What the decision writes (R30, R43, R193, R205) -/

/-- The parts of the node that the decision of the state leaves as they are. -/
theorem decideState_frame (valid : Bool) (n : Node) : let m := decideState valid n
    m = { n with state := m.state, view := m.view, tx := { n.tx with since := m.tx.since },
                 ev := { n.ev with presence := true } } ∧
      m.view.orphanRef = some n.now ∧ m.tx.since = if n.station.isSome then some n.now else none := ⟨rfl, rfl, rfl⟩

/-- A valid image and a station make the node LISTENING for 1 500 ms. -/
theorem decideState_listening {n : Node} {k : Nat} (station : n.station = some k) : let m := decideState true n
    m.state = some .listening ∧ m.view.listen = some (n.now + 1500) ∧ m.view.shed = 0 := by
  simp [decideState, Node.setView, Node.setTx, Node.setEv, station, Node.after, listeningTime]

/-- Else the node is in LISTEN-ONLY. -/
theorem decideState_listenOnly {n : Node} {valid : Bool} (h : valid = false ∨ n.station = none) :
    let m := decideState valid n
    m.state = some .listenOnly ∧ m.view.listen = none ∧ m.view.shed = 4 := by
  have rests : (valid && n.station.isSome) = false := by
    rcases h with h | h
    · rw [h, Bool.false_and]
    · rw [h, Option.isSome_none, Bool.and_false]
  simp [decideState, Node.setView, Node.setTx, Node.setEv, rests]

/-- The image gives what its bytes hold, exactly when it fits them (R204). -/
theorem startDecide_valid {eeprom : List Byte} {sections : List (Nat × List Byte)} (fits : ImageFits eeprom sections)
    (pins : Vector PinLevel 16) (n : Node) : ∃ c, ImageGives eeprom sections c ∧
      startDecide eeprom pins n = decideState true (applyImage c pins n) := by
  obtain ⟨c, read⟩ := (image_iff eeprom).mpr ⟨sections, fits⟩
  refine ⟨c, image_gives eeprom sections c read fits, ?_⟩
  rw [startDecide, read]

theorem startDecide_invalid {eeprom : List Byte} (unfit : ∀ sections, ¬ImageFits eeprom sections)
    (pins : Vector PinLevel 16) (n : Node) : startDecide eeprom pins n = decideState false n := by
  have unread : readImage eeprom = none := by
    rw [Option.eq_none_iff_forall_ne_some]
    intro c read
    obtain ⟨sections, fits⟩ := (image_iff eeprom).mp ⟨c, read⟩
    exact unfit sections fits
  rw [startDecide, unread]

/-- Whether the image is valid or not, the decision leaves these parts alone. -/
theorem startDecide_keeps (eeprom : List Byte) (pins : Vector PinLevel 16) (n : Node) :
    let m := startDecide eeprom pins n
    m.now = n.now ∧ m.station = n.station ∧ m.cause = n.cause ∧
      m.tx = { n.tx with since := if n.station.isSome then some n.now else none } ∧ m.claims = n.claims ∧
      m.pub = n.pub ∧ m.motion = n.motion ∧ m.faultPin = n.faultPin ∧ m.cmd.counters = n.cmd.counters ∧
      m.cmd.flags = n.cmd.flags ∧ m.view.orphanRef = some n.now := by
  unfold startDecide
  split
  · exact ⟨rfl, rfl, rfl, rfl, rfl, rfl, rfl, rfl, rfl, rfl, rfl⟩
  · exact ⟨rfl, rfl, rfl, rfl, rfl, rfl, rfl, rfl, rfl, rfl, rfl⟩

/-! ## The channels at the application (R170 to R172, R176) -/

theorem pinHigh_driven {pull : Pull} {level : PinLevel} {free : Nat} (h : level ≠ .floating) :
    pinHigh pull level free = (level == .high) := by
  cases level with
  | low => rfl
  | high => rfl
  | floating => exact absurd rfl h

theorem pinHigh_open {pull : Pull} {free : Nat} (h : pull ≠ .none) : pinHigh pull .floating free = (pull == .up) := by
  cases pull with
  | none => exact absurd rfl h
  | up => rfl
  | down => rfl

/-- The level that a channel reads at the application: an OUT pin as one without a pull device. -/
def startLevel (c : ChanCfg) (level : PinLevel) (free : Nat) : Bool :=
  pinHigh (if c.role = .out then .none else c.pull) level free

theorem startChannel_eq (c : ChanCfg) (level : PinLevel) (now free : Nat) :
    startChannel c level now free = match c.role with
      | .off => {}
      | .out => { pinHigh := startLevel c level free, highOff := if startLevel c level free then some now else none
                  lowOff := if startLevel c level free then none else some now }
      | .inp => { instant := xor (startLevel c level free) c.activeLow, filter := some now }
      | .ain => { due := some (now + 100) }
      | .pulse => { instant := xor (startLevel c level free) c.activeLow, due := some (now + 250) } := by
  unfold startChannel startLevel
  cases c.role <;> rfl

theorem startChannel_reads (c : ChanCfg) (level : PinLevel) (now free : Nat) : ∃ high : Bool,
    (level ≠ .floating → high = (level == .high)) ∧
    (level = .floating → c.role = .inp ∨ c.role = .pulse → c.pull ≠ .none → high = (c.pull == .up)) ∧
    startChannel c level now free = match c.role with
      | .off => {}
      | .out => { pinHigh := high, highOff := if high then some now else none
                  lowOff := if high then none else some now }
      | .inp => { instant := xor high c.activeLow, filter := some now }
      | .ain => { due := some (now + 100) }
      | .pulse => { instant := xor high c.activeLow, due := some (now + 250) } := by
  refine ⟨startLevel c level free, pinHigh_driven, fun is input pulled => ?_, startChannel_eq c level now free⟩
  have other : c.role ≠ .out := by
    rcases input with h | h
    · rw [h]; decide
    · rw [h]; decide
  rw [startLevel, if_neg other, is, pinHigh_open pulled]

theorem applyImage_chan (c : Image) (pins : Vector PinLevel 16) (n : Node) (i : Fin 16) :
    (applyImage c pins n).chan i = startChannel c.chans[i] pins[i] n.now (n.free + i.val) := by
  simp [applyImage, startBank, Node.chan]

theorem applyImage_temp (c : Image) (pins : Vector PinLevel 16) (n : Node) (t : Fin 4) :
    (applyImage c pins n).bank.temps[t] = { due := if c.temps[t] = .unused then none else some (n.now + 500) } := by
  simp [applyImage, startBank, startTemp, tempPeriod]

/-! ## The PRESENCE of a node without a valid image (R205) -/

theorem unconfigured_queues {s : State} {n : Node} (station : n.station.isSome = true) (cfg : n.cfg = none)
    (empty : n.tx.queue = []) (calm : n.calm = true) :
    ∃ b, (commit s s.rx (finish n (decideState false n))).queued (.presence b) ∧ b.node = 1 ∧ b.duties = 0 ∧
      b.ident = 0 ∧ b.unconfigured = true ∧ b.cause = n.cause := by
  obtain ⟨clear, pending⟩ := calm_parts calm
  have frame := (decideState_frame false n).1
  obtain ⟨state, -, -⟩ := decideState_listenOnly (n := n) (.inl rfl)
  have marks : (decideState false n).ev = { presence := true } := by rw [frame, clear]
  have free : (decideState false n).ev.restart = false := by rw [marks]
  have still : (decideState false n).ev.reset = false := by rw [marks]
  have pending' : (decideState false n).cmd.restart = none := pending
  have station' : (decideState false n).station = n.station := rfl
  have cfg' : (decideState false n).cfg = none := cfg
  have tx : (decideState false n).tx.queue = [] := empty
  have cause : (decideState false n).cause = n.cause := rfl
  generalize decideState false n = m at *
  have keeps := told_keeps n m
  have owed : presenceOwed n (told n m) = true := by
    rw [presenceOwed, told_mark Event.presence n m fun _ => rfl, marks]
    simp [sendsPresence, keeps.state, state, keeps.station, station', station, keeps.cfg, cfg']
  have passes := (passes_presence owed).finish free pending' rfl
  have none_queued : (told n m).tx.queue = [] := by rw [keeps.tx, tx]
  obtain ⟨e, mem, is⟩ := passes.stands (.nil none_queued) (.inl (by simp [none_queued, kindsFrom]))
  have runs : commit s s.rx (finish n m) = { pending := s.pending, rx := s.rx, node := (finish n m).setEv {} } :=
    commit_runs ((congrArg (·.ev.reset) (core_finish free pending') : _ = m.ev.reset).trans still)
  refine ⟨presenceBody (told n m), ⟨e, by rw [runs]; exact mem, is⟩, ?_, ?_, ?_, ?_, ?_⟩
  · simp [presenceBody, keeps.state, state, nodeCode]
  · simp [presenceBody, keeps.cfg, cfg']
  · simp [presenceBody, keeps.cfg, cfg']
  · simp [presenceBody, keeps.cfg, cfg']
  · exact keeps.cause.trans cause

/-- Settles O9: the decision's writes, with the image that its bytes give when they fit, and the PRESENCE of a node
without a valid one. -/
theorem startDecides : Obligations.StartDecides := by
  unfold Obligations.StartDecides
  intro s dt eeprom pins n hn held checked state
  subst hn
  obtain ⟨now, station, cause, tx, claims, pub, motion, pin, counters, flags, ref⟩ :=
    startDecide_keeps eeprom pins (advance dt s.node)
  have acts : exec (.startDecision dt eeprom pins) s =
      .next (commit s s.rx (finish (advance dt s.node) (startDecide eeprom pins (advance dt s.node)))) := by
    change execStartDecision dt eeprom pins s = _
    exact if_pos (by rw [starting, held, checked, state]; rfl)
  refine ⟨_, acts, now, station, cause, tx, claims, pub, motion, pin, counters, flags, ref, fun sections fits => ?_,
    fun unfit => ?_⟩
  · obtain ⟨c, gives, decides⟩ := startDecide_valid fits pins (advance dt s.node)
    rw [decides]
    generalize advance dt s.node = n
    refine ⟨c, gives, rfl, rfl, fun b is => ?_, fun l is => ?_, rfl, rfl, fun h is => ?_, rfl, rfl, rfl, rfl,
      applyImage_temp c pins n, fun i => ?_, fun k named => decideState_listening named,
      fun unnamed => decideState_listenOnly (.inr unnamed)⟩
    · have battery : (decideState true (applyImage c pins n)).battery = startBattery b n.now := by
        change (c.battery.map (startBattery · n.now)).getD {} = _
        rw [is]
        rfl
      rw [battery]
      exact ⟨rfl, rfl, rfl, rfl, rfl⟩
    · have tanks : (decideState true (applyImage c pins n)).tanks =
          { records := l.map fun _ => {}, due := some (n.now + firstScan) } := by
        change (c.tanks.map fun l => { records := l.map fun _ => {}, due := some (n.now + firstScan) : Tanks }).getD {} = _
        rw [is]
        rfl
      rw [tanks]
      exact ⟨rfl, rfl⟩
    · change (c.heater.map startHeater).getD {} = _
      rw [is]
      rfl
    · obtain ⟨high, driven, opened, reads⟩ := startChannel_reads c.chans[i] pins[i] n.now (n.free + i.val)
      exact ⟨high, driven, opened, (applyImage_chan c pins n i).trans reads⟩
  · rw [startDecide_invalid unfit]
    exact ⟨rfl, rfl, rfl, rfl, rfl, rfl, rfl, rfl, rfl, rfl, (decideState_listenOnly (.inl rfl)).1,
      (decideState_listenOnly (.inl rfl)).2.1, (decideState_listenOnly (.inl rfl)).2.2, unconfigured_queues⟩

end Sys2Proof.Machine
end
